-- ==== Sys2Proof/Word.lean ====
section
/-! DEFINITION. The machine's words and nothing else: 64-bit scalar values, bytes, the bits of a vector row. -/
namespace Sys2Proof

/-- A scalar register, an address while it is computed (R38). -/
abbrev Word := BitVec 64
/-- One byte of memory (R6). -/
abbrev Byte := BitVec 8
/-- The bits of one physical vector row: 1,024 lanes of 128 bits (R16, R61). -/
abbrev RowBits := BitVec 131072
/-- A predicate register: one bit per element, up to 32,768 (R38). -/
abbrev PredBits := BitVec 32768
/-- A scale register: 512 scales of 8 bits (R38). -/
abbrev ScaleBits := BitVec 4096
/-- A general register name g0 to g127, and likewise a vector name (R96). -/
abbrev Reg := BitVec 7

end Sys2Proof
end

