-- ==== Sys2Proof/Syntax.lean ====
section
/-! DEFINITION. The instruction set as syntax: one constructor per row of the opcode table. The first 336 are the 32-bit
words of the map of R100; their arguments are the fields of the word: a, b, c register names, i an immediate, m the x
bit of the predicated form, o the x bit of AMO. The other 76 are the events of the package (95_what_each_step_holds);
their arguments say which block they concern and what the world outside the package supplies. -/
namespace Sys2Proof

/-- Which access of an engine, a record or the dispatcher fails (R224, R363, R366, R367, R380, R381). Drovers are keyed
8 x package core + slot. -/
inductive EngineAccess where
  | transfer (key ch id : Nat)
  | swapIn (h : Nat)
  | ringRead (h : Nat)
  | launch (h : Nat)
  | record (h n : Nat)
  | completion (task : Nat)
  | successor (task : Nat)
  | profile (task : Nat)
  deriving DecidableEq, Repr

/-- An instruction or event. -/
inductive Instr where
  /-- ADD (R124) -/
  | add (a : Reg) (b : Reg) (c : Reg)
  /-- SUB (R124) -/
  | sub (a : Reg) (b : Reg) (c : Reg)
  /-- MUL (R124) -/
  | mul (a : Reg) (b : Reg) (c : Reg)
  /-- MULH (R124) -/
  | mulh (a : Reg) (b : Reg) (c : Reg)
  /-- MULHU (R124) -/
  | mulhu (a : Reg) (b : Reg) (c : Reg)
  /-- MULHSU (R124) -/
  | mulhsu (a : Reg) (b : Reg) (c : Reg)
  /-- DIV (R125) -/
  | div (a : Reg) (b : Reg) (c : Reg)
  /-- DIVU (R125) -/
  | divu (a : Reg) (b : Reg) (c : Reg)
  /-- REM (R125) -/
  | rem (a : Reg) (b : Reg) (c : Reg)
  /-- REMU (R125) -/
  | remu (a : Reg) (b : Reg) (c : Reg)
  /-- AND (R124) -/
  | and (a : Reg) (b : Reg) (c : Reg)
  /-- OR (R124) -/
  | or (a : Reg) (b : Reg) (c : Reg)
  /-- XOR (R124) -/
  | xor (a : Reg) (b : Reg) (c : Reg)
  /-- ANDN (R124) -/
  | andn (a : Reg) (b : Reg) (c : Reg)
  /-- ORN (R124) -/
  | orn (a : Reg) (b : Reg) (c : Reg)
  /-- SHL (R124) -/
  | shl (a : Reg) (b : Reg) (c : Reg)
  /-- SHR (R124) -/
  | shr (a : Reg) (b : Reg) (c : Reg)
  /-- SRA (R124) -/
  | sra (a : Reg) (b : Reg) (c : Reg)
  /-- ROR (R124) -/
  | ror (a : Reg) (b : Reg) (c : Reg)
  /-- SLT (R124) -/
  | slt (a : Reg) (b : Reg) (c : Reg)
  /-- SLTU (R124) -/
  | sltu (a : Reg) (b : Reg) (c : Reg)
  /-- MIN (R124) -/
  | min (a : Reg) (b : Reg) (c : Reg)
  /-- MAX (R124) -/
  | max (a : Reg) (b : Reg) (c : Reg)
  /-- MINU (R124) -/
  | minu (a : Reg) (b : Reg) (c : Reg)
  /-- MAXU (R124) -/
  | maxu (a : Reg) (b : Reg) (c : Reg)
  /-- CLZ (R124) -/
  | clz (a : Reg) (b : Reg)
  /-- CTZ (R124) -/
  | ctz (a : Reg) (b : Reg)
  /-- POPC (R124) -/
  | popc (a : Reg) (b : Reg)
  /-- EXTS (R124) -/
  | exts (a : Reg) (b : Reg) (c : Reg)
  /-- EXTZ (R124) -/
  | extz (a : Reg) (b : Reg) (c : Reg)
  /-- BSWP (R124) -/
  | bswp (a : Reg) (b : Reg)
  /-- SELNZ (R124) -/
  | selnz (a : Reg) (b : Reg) (c : Reg)
  /-- ADDI (R126) -/
  | addi (a : Reg) (b : Reg) (i : BitVec 11)
  /-- ANDI (R126) -/
  | andi (a : Reg) (b : Reg) (i : BitVec 11)
  /-- ORI (R126) -/
  | ori (a : Reg) (b : Reg) (i : BitVec 11)
  /-- XORI (R126) -/
  | xori (a : Reg) (b : Reg) (i : BitVec 11)
  /-- SLTI (R126) -/
  | slti (a : Reg) (b : Reg) (i : BitVec 11)
  /-- SLTIU (R126) -/
  | sltiu (a : Reg) (b : Reg) (i : BitVec 11)
  /-- SHLI (R127) -/
  | shli (a : Reg) (b : Reg) (s : BitVec 6)
  /-- SHRI (R127) -/
  | shri (a : Reg) (b : Reg) (s : BitVec 6)
  /-- SRAI (R127) -/
  | srai (a : Reg) (b : Reg) (s : BitVec 6)
  /-- LI (R128) -/
  | li (a : Reg) (i : BitVec 18)
  /-- LIH (R128) -/
  | lih (a : Reg) (i : BitVec 18)
  /-- ADPC (R129) -/
  | adpc (a : Reg) (i : BitVec 18)
  /-- JAL (R130) -/
  | jal (a : Reg) (i : BitVec 18)
  /-- JALR (R131) -/
  | jalr (a : Reg) (b : Reg) (i : BitVec 11)
  /-- BEQ (R132) -/
  | beq (a : Reg) (b : Reg) (i : BitVec 11)
  /-- BNE (R132) -/
  | bne (a : Reg) (b : Reg) (i : BitVec 11)
  /-- BLT (R132) -/
  | blt (a : Reg) (b : Reg) (i : BitVec 11)
  /-- BGE (R132) -/
  | bge (a : Reg) (b : Reg) (i : BitVec 11)
  /-- BLTU (R132) -/
  | bltu (a : Reg) (b : Reg) (i : BitVec 11)
  /-- BGEU (R132) -/
  | bgeu (a : Reg) (b : Reg) (i : BitVec 11)
  /-- LDB (R134) -/
  | ldb (a : Reg) (b : Reg) (i : BitVec 11)
  /-- LDBZ (R134) -/
  | ldbz (a : Reg) (b : Reg) (i : BitVec 11)
  /-- LDH (R134) -/
  | ldh (a : Reg) (b : Reg) (i : BitVec 11)
  /-- LDHZ (R134) -/
  | ldhz (a : Reg) (b : Reg) (i : BitVec 11)
  /-- LDW (R134) -/
  | ldw (a : Reg) (b : Reg) (i : BitVec 11)
  /-- LDWZ (R134) -/
  | ldwz (a : Reg) (b : Reg) (i : BitVec 11)
  /-- LDD (R134) -/
  | ldd (a : Reg) (b : Reg) (i : BitVec 11)
  /-- STB (R134) -/
  | stb (a : Reg) (b : Reg) (i : BitVec 11)
  /-- STH (R134) -/
  | sth (a : Reg) (b : Reg) (i : BitVec 11)
  /-- STW (R134) -/
  | stw (a : Reg) (b : Reg) (i : BitVec 11)
  /-- STD (R134) -/
  | std (a : Reg) (b : Reg) (i : BitVec 11)
  /-- AMOSWP (R138) -/
  | amoswp (a : Reg) (b : Reg) (c : Reg) (o : Bool)
  /-- AMOADD (R138) -/
  | amoadd (a : Reg) (b : Reg) (c : Reg) (o : Bool)
  /-- AMOAND (R138) -/
  | amoand (a : Reg) (b : Reg) (c : Reg) (o : Bool)
  /-- AMOOR (R138) -/
  | amoor (a : Reg) (b : Reg) (c : Reg) (o : Bool)
  /-- AMOXOR (R138) -/
  | amoxor (a : Reg) (b : Reg) (c : Reg) (o : Bool)
  /-- AMOMIN (R138) -/
  | amomin (a : Reg) (b : Reg) (c : Reg) (o : Bool)
  /-- AMOMAX (R138) -/
  | amomax (a : Reg) (b : Reg) (c : Reg) (o : Bool)
  /-- AMOMINU (R138) -/
  | amominu (a : Reg) (b : Reg) (c : Reg) (o : Bool)
  /-- AMOMAXU (R138) -/
  | amomaxu (a : Reg) (b : Reg) (c : Reg) (o : Bool)
  /-- AMOCAS (R138) -/
  | amocas (a : Reg) (b : Reg) (c : Reg) (o : Bool)
  /-- FENCE (R141) -/
  | fence (k : BitVec 2) (s : BitVec 3)
  /-- NOP (R143) -/
  | nop
  /-- TRAP (R144) -/
  | trap (n : BitVec 14)
  /-- ERET (R147) -/
  | eret
  /-- BRK (R144) -/
  | brk (n : BitVec 14)
  /-- SVC (R144) -/
  | svc (n : BitVec 14)
  /-- WAIT (R149) -/
  | wait (b : Reg)
  /-- YIELD (R150) -/
  | yield
  /-- SRD (R152) -/
  | srd (a : Reg) (s : BitVec 14)
  /-- SWR (R152) -/
  | swr (a : Reg) (s : BitVec 14)
  /-- WINB (R153) -/
  | winb (b : Reg)
  /-- REP (R155) -/
  | rep (b : Reg) (c : Reg) (f : BitVec 3)
  /-- EXIT (R151) -/
  | exit
  /-- SETVL (R169) -/
  | setvl (a : Reg) (b : Reg)
  /-- SETVTY (R171) -/
  | setvty (a : Reg) (b : Reg)
  /-- SETTL (R172) -/
  | settl (a : Reg) (b : Reg)
  /-- GETG (R173) -/
  | getg (a : Reg)
  /-- VADD (R174) -/
  | vadd (a : Reg) (b : Reg) (c : Reg) (m : Bool)
  /-- VSUB (R174) -/
  | vsub (a : Reg) (b : Reg) (c : Reg) (m : Bool)
  /-- VRSUB (R174) -/
  | vrsub (a : Reg) (b : Reg) (c : Reg) (m : Bool)
  /-- VMUL (R174) -/
  | vmul (a : Reg) (b : Reg) (c : Reg) (m : Bool)
  /-- VMULH (R174) -/
  | vmulh (a : Reg) (b : Reg) (c : Reg) (m : Bool)
  /-- VMULHU (R174) -/
  | vmulhu (a : Reg) (b : Reg) (c : Reg) (m : Bool)
  /-- VMACC (R174) -/
  | vmacc (a : Reg) (b : Reg) (c : Reg) (m : Bool)
  /-- VNMSAC (R174) -/
  | vnmsac (a : Reg) (b : Reg) (c : Reg) (m : Bool)
  /-- VDIV (R175) -/
  | vdiv (a : Reg) (b : Reg) (c : Reg) (m : Bool)
  /-- VDIVU (R175) -/
  | vdivu (a : Reg) (b : Reg) (c : Reg) (m : Bool)
  /-- VREM (R175) -/
  | vrem (a : Reg) (b : Reg) (c : Reg) (m : Bool)
  /-- VREMU (R175) -/
  | vremu (a : Reg) (b : Reg) (c : Reg) (m : Bool)
  /-- VSADD (R174) -/
  | vsadd (a : Reg) (b : Reg) (c : Reg) (m : Bool)
  /-- VSSUB (R174) -/
  | vssub (a : Reg) (b : Reg) (c : Reg) (m : Bool)
  /-- VABSD (R174) -/
  | vabsd (a : Reg) (b : Reg) (c : Reg) (m : Bool)
  /-- VADD_S (R174) -/
  | vaddS (a : Reg) (b : Reg) (c : Reg) (m : Bool)
  /-- VSUB_S (R174) -/
  | vsubS (a : Reg) (b : Reg) (c : Reg) (m : Bool)
  /-- VRSUB_S (R174) -/
  | vrsubS (a : Reg) (b : Reg) (c : Reg) (m : Bool)
  /-- VMUL_S (R174) -/
  | vmulS (a : Reg) (b : Reg) (c : Reg) (m : Bool)
  /-- VMULH_S (R174) -/
  | vmulhS (a : Reg) (b : Reg) (c : Reg) (m : Bool)
  /-- VMULHU_S (R174) -/
  | vmulhuS (a : Reg) (b : Reg) (c : Reg) (m : Bool)
  /-- VMACC_S (R174) -/
  | vmaccS (a : Reg) (b : Reg) (c : Reg) (m : Bool)
  /-- VNMSAC_S (R174) -/
  | vnmsacS (a : Reg) (b : Reg) (c : Reg) (m : Bool)
  /-- VDIV_S (R175) -/
  | vdivS (a : Reg) (b : Reg) (c : Reg) (m : Bool)
  /-- VDIVU_S (R175) -/
  | vdivuS (a : Reg) (b : Reg) (c : Reg) (m : Bool)
  /-- VREM_S (R175) -/
  | vremS (a : Reg) (b : Reg) (c : Reg) (m : Bool)
  /-- VREMU_S (R175) -/
  | vremuS (a : Reg) (b : Reg) (c : Reg) (m : Bool)
  /-- VSADD_S (R174) -/
  | vsaddS (a : Reg) (b : Reg) (c : Reg) (m : Bool)
  /-- VSSUB_S (R174) -/
  | vssubS (a : Reg) (b : Reg) (c : Reg) (m : Bool)
  /-- VABSD_S (R174) -/
  | vabsdS (a : Reg) (b : Reg) (c : Reg) (m : Bool)
  /-- VAND (R176) -/
  | vand (a : Reg) (b : Reg) (c : Reg) (m : Bool)
  /-- VOR (R176) -/
  | vor (a : Reg) (b : Reg) (c : Reg) (m : Bool)
  /-- VXOR (R176) -/
  | vxor (a : Reg) (b : Reg) (c : Reg) (m : Bool)
  /-- VANDN (R176) -/
  | vandn (a : Reg) (b : Reg) (c : Reg) (m : Bool)
  /-- VSHL (R176) -/
  | vshl (a : Reg) (b : Reg) (c : Reg) (m : Bool)
  /-- VSHR (R176) -/
  | vshr (a : Reg) (b : Reg) (c : Reg) (m : Bool)
  /-- VSRA (R176) -/
  | vsra (a : Reg) (b : Reg) (c : Reg) (m : Bool)
  /-- VMIN (R176) -/
  | vmin (a : Reg) (b : Reg) (c : Reg) (m : Bool)
  /-- VMAX (R176) -/
  | vmax (a : Reg) (b : Reg) (c : Reg) (m : Bool)
  /-- VMINU (R176) -/
  | vminu (a : Reg) (b : Reg) (c : Reg) (m : Bool)
  /-- VMAXU (R176) -/
  | vmaxu (a : Reg) (b : Reg) (c : Reg) (m : Bool)
  /-- VSEL (R177) -/
  | vsel (a : Reg) (b : Reg) (c : Reg)
  /-- VMOV (R177) -/
  | vmov (a : Reg) (c : Reg) (m : Bool)
  /-- VAND_S (R176) -/
  | vandS (a : Reg) (b : Reg) (c : Reg) (m : Bool)
  /-- VOR_S (R176) -/
  | vorS (a : Reg) (b : Reg) (c : Reg) (m : Bool)
  /-- VXOR_S (R176) -/
  | vxorS (a : Reg) (b : Reg) (c : Reg) (m : Bool)
  /-- VANDN_S (R176) -/
  | vandnS (a : Reg) (b : Reg) (c : Reg) (m : Bool)
  /-- VSHL_S (R176) -/
  | vshlS (a : Reg) (b : Reg) (c : Reg) (m : Bool)
  /-- VSHR_S (R176) -/
  | vshrS (a : Reg) (b : Reg) (c : Reg) (m : Bool)
  /-- VSRA_S (R176) -/
  | vsraS (a : Reg) (b : Reg) (c : Reg) (m : Bool)
  /-- VMIN_S (R176) -/
  | vminS (a : Reg) (b : Reg) (c : Reg) (m : Bool)
  /-- VMAX_S (R176) -/
  | vmaxS (a : Reg) (b : Reg) (c : Reg) (m : Bool)
  /-- VMINU_S (R176) -/
  | vminuS (a : Reg) (b : Reg) (c : Reg) (m : Bool)
  /-- VMAXU_S (R176) -/
  | vmaxuS (a : Reg) (b : Reg) (c : Reg) (m : Bool)
  /-- VSEL_S (R177) -/
  | vselS (a : Reg) (b : Reg) (c : Reg)
  /-- VMOV_S (R177) -/
  | vmovS (a : Reg) (c : Reg) (m : Bool)
  /-- VADDI (R178) -/
  | vaddi (a : Reg) (b : Reg) (i : BitVec 8) (m : Bool)
  /-- VMULI (R178) -/
  | vmuli (a : Reg) (b : Reg) (i : BitVec 8) (m : Bool)
  /-- VSHLI (R179) -/
  | vshli (a : Reg) (b : Reg) (i : BitVec 8) (m : Bool)
  /-- VSHRI (R179) -/
  | vshri (a : Reg) (b : Reg) (i : BitVec 8) (m : Bool)
  /-- VSRAI (R179) -/
  | vsrai (a : Reg) (b : Reg) (i : BitVec 8) (m : Bool)
  /-- VANDI (R178) -/
  | vandi (a : Reg) (b : Reg) (i : BitVec 8) (m : Bool)
  /-- VORI (R178) -/
  | vori (a : Reg) (b : Reg) (i : BitVec 8) (m : Bool)
  /-- VLI (R179) -/
  | vli (a : Reg) (i : BitVec 8) (m : Bool)
  /-- VFADD (R180) -/
  | vfadd (a : Reg) (b : Reg) (c : Reg) (m : Bool)
  /-- VFSUB (R180) -/
  | vfsub (a : Reg) (b : Reg) (c : Reg) (m : Bool)
  /-- VFMUL (R180) -/
  | vfmul (a : Reg) (b : Reg) (c : Reg) (m : Bool)
  /-- VFMA (R180) -/
  | vfma (a : Reg) (b : Reg) (c : Reg) (m : Bool)
  /-- VFMS (R180) -/
  | vfms (a : Reg) (b : Reg) (c : Reg) (m : Bool)
  /-- VFNMA (R180) -/
  | vfnma (a : Reg) (b : Reg) (c : Reg) (m : Bool)
  /-- VFDIV (R180) -/
  | vfdiv (a : Reg) (b : Reg) (c : Reg) (m : Bool)
  /-- VFMIN (R181) -/
  | vfmin (a : Reg) (b : Reg) (c : Reg) (m : Bool)
  /-- VFMAX (R181) -/
  | vfmax (a : Reg) (b : Reg) (c : Reg) (m : Bool)
  /-- VFSGN (R181) -/
  | vfsgn (a : Reg) (b : Reg) (c : Reg) (m : Bool)
  /-- VFADD_S (R180) -/
  | vfaddS (a : Reg) (b : Reg) (c : Reg) (m : Bool)
  /-- VFSUB_S (R180) -/
  | vfsubS (a : Reg) (b : Reg) (c : Reg) (m : Bool)
  /-- VFMUL_S (R180) -/
  | vfmulS (a : Reg) (b : Reg) (c : Reg) (m : Bool)
  /-- VFMA_S (R180) -/
  | vfmaS (a : Reg) (b : Reg) (c : Reg) (m : Bool)
  /-- VFMS_S (R180) -/
  | vfmsS (a : Reg) (b : Reg) (c : Reg) (m : Bool)
  /-- VFNMA_S (R180) -/
  | vfnmaS (a : Reg) (b : Reg) (c : Reg) (m : Bool)
  /-- VFDIV_S (R180) -/
  | vfdivS (a : Reg) (b : Reg) (c : Reg) (m : Bool)
  /-- VFMIN_S (R181) -/
  | vfminS (a : Reg) (b : Reg) (c : Reg) (m : Bool)
  /-- VFMAX_S (R181) -/
  | vfmaxS (a : Reg) (b : Reg) (c : Reg) (m : Bool)
  /-- VFSGN_S (R181) -/
  | vfsgnS (a : Reg) (b : Reg) (c : Reg) (m : Bool)
  /-- VFSQRT (R183) -/
  | vfsqrt (a : Reg) (b : Reg) (m : Bool)
  /-- VFRCP (R183) -/
  | vfrcp (a : Reg) (b : Reg) (m : Bool)
  /-- VFRSQ (R183) -/
  | vfrsq (a : Reg) (b : Reg) (m : Bool)
  /-- VFEXP2 (R183) -/
  | vfexp2 (a : Reg) (b : Reg) (m : Bool)
  /-- VFLOG2 (R183) -/
  | vflog2 (a : Reg) (b : Reg) (m : Bool)
  /-- VFSIN (R183) -/
  | vfsin (a : Reg) (b : Reg) (m : Bool)
  /-- VFCOS (R183) -/
  | vfcos (a : Reg) (b : Reg) (m : Bool)
  /-- VFTANH (R183) -/
  | vftanh (a : Reg) (b : Reg) (m : Bool)
  /-- VFSIGM (R183) -/
  | vfsigm (a : Reg) (b : Reg) (m : Bool)
  /-- VFABS (R185) -/
  | vfabs (a : Reg) (b : Reg) (m : Bool)
  /-- VFNEG (R185) -/
  | vfneg (a : Reg) (b : Reg) (m : Bool)
  /-- VFCLASS (R185) -/
  | vfclass (a : Reg) (b : Reg) (m : Bool)
  /-- VFRND (R185) -/
  | vfrnd (a : Reg) (b : Reg) (m : Bool)
  /-- VCMP_EQ (R186) -/
  | vcmpEq (a : Reg) (b : Reg) (c : Reg) (m : Bool)
  /-- VCMP_NE (R186) -/
  | vcmpNe (a : Reg) (b : Reg) (c : Reg) (m : Bool)
  /-- VCMP_LT (R186) -/
  | vcmpLt (a : Reg) (b : Reg) (c : Reg) (m : Bool)
  /-- VCMP_GE (R186) -/
  | vcmpGe (a : Reg) (b : Reg) (c : Reg) (m : Bool)
  /-- VCMP_LTU (R186) -/
  | vcmpLtu (a : Reg) (b : Reg) (c : Reg) (m : Bool)
  /-- VCMP_GEU (R186) -/
  | vcmpGeu (a : Reg) (b : Reg) (c : Reg) (m : Bool)
  /-- VCMP_EQ_S (R186) -/
  | vcmpEqS (a : Reg) (b : Reg) (c : Reg) (m : Bool)
  /-- VCMP_NE_S (R186) -/
  | vcmpNeS (a : Reg) (b : Reg) (c : Reg) (m : Bool)
  /-- VCMP_LT_S (R186) -/
  | vcmpLtS (a : Reg) (b : Reg) (c : Reg) (m : Bool)
  /-- VCMP_GE_S (R186) -/
  | vcmpGeS (a : Reg) (b : Reg) (c : Reg) (m : Bool)
  /-- VCMP_LTU_S (R186) -/
  | vcmpLtuS (a : Reg) (b : Reg) (c : Reg) (m : Bool)
  /-- VCMP_GEU_S (R186) -/
  | vcmpGeuS (a : Reg) (b : Reg) (c : Reg) (m : Bool)
  /-- VFCMP_EQ (R187) -/
  | vfcmpEq (a : Reg) (b : Reg) (c : Reg) (m : Bool)
  /-- VFCMP_NE (R187) -/
  | vfcmpNe (a : Reg) (b : Reg) (c : Reg) (m : Bool)
  /-- VFCMP_LT (R187) -/
  | vfcmpLt (a : Reg) (b : Reg) (c : Reg) (m : Bool)
  /-- VFCMP_LE (R187) -/
  | vfcmpLe (a : Reg) (b : Reg) (c : Reg) (m : Bool)
  /-- VFCMP_UN (R187) -/
  | vfcmpUn (a : Reg) (b : Reg) (c : Reg) (m : Bool)
  /-- VFCMP_OR (R187) -/
  | vfcmpOr (a : Reg) (b : Reg) (c : Reg) (m : Bool)
  /-- VCVT (R189) -/
  | vcvt (a : Reg) (b : Reg) (c : BitVec 5) (m : Bool)
  /-- VCVTK (R190) -/
  | vcvtk (a : Reg) (b : Reg) (c : BitVec 5) (m : Bool)
  /-- VWID (R191) -/
  | vwid (a : Reg) (b : Reg) (m : Bool)
  /-- VNAR (R191) -/
  | vnar (a : Reg) (b : Reg) (m : Bool)
  /-- VXCH_S (R192) -/
  | vxchS (a : Reg) (b : Reg) (c : Reg) (m : Bool)
  /-- VXCH (R192) -/
  | vxch (a : Reg) (b : Reg) (c : Reg) (m : Bool)
  /-- VSLUP (R192) -/
  | vslup (a : Reg) (b : Reg) (c : Reg) (m : Bool)
  /-- VSLDN (R192) -/
  | vsldn (a : Reg) (b : Reg) (c : Reg) (m : Bool)
  /-- VPERM (R192) -/
  | vperm (a : Reg) (b : Reg) (c : Reg) (m : Bool)
  /-- VBCAST (R192) -/
  | vbcast (a : Reg) (b : Reg) (c : Reg) (m : Bool)
  /-- VEXTR (R192) -/
  | vextr (a : Reg) (b : Reg) (c : Reg)
  /-- VINS (R192) -/
  | vins (a : Reg) (b : Reg) (c : Reg) (m : Bool)
  /-- VCOMP (R193) -/
  | vcomp (a : Reg) (b : Reg) (m : Bool)
  /-- VEXPD (R193) -/
  | vexpd (a : Reg) (b : Reg) (m : Bool)
  /-- VIOTA (R193) -/
  | viota (a : Reg) (m : Bool)
  /-- VREV (R192) -/
  | vrev (a : Reg) (b : Reg) (m : Bool)
  /-- VRSUM (R196) -/
  | vrsum (a : Reg) (b : Reg) (c : Reg) (m : Bool)
  /-- VRMIN (R196) -/
  | vrmin (a : Reg) (b : Reg) (c : Reg) (m : Bool)
  /-- VRMAX (R196) -/
  | vrmax (a : Reg) (b : Reg) (c : Reg) (m : Bool)
  /-- VRMINU (R196) -/
  | vrminu (a : Reg) (b : Reg) (c : Reg) (m : Bool)
  /-- VRMAXU (R196) -/
  | vrmaxu (a : Reg) (b : Reg) (c : Reg) (m : Bool)
  /-- VRAND (R196) -/
  | vrand (a : Reg) (b : Reg) (c : Reg) (m : Bool)
  /-- VROR (R196) -/
  | vror (a : Reg) (b : Reg) (c : Reg) (m : Bool)
  /-- VRXOR (R196) -/
  | vrxor (a : Reg) (b : Reg) (c : Reg) (m : Bool)
  /-- VRFSUM (R196) -/
  | vrfsum (a : Reg) (b : Reg) (c : Reg) (m : Bool)
  /-- VRFMIN (R196) -/
  | vrfmin (a : Reg) (b : Reg) (c : Reg) (m : Bool)
  /-- VRFMAX (R196) -/
  | vrfmax (a : Reg) (b : Reg) (c : Reg) (m : Bool)
  /-- VSCAN_ADD (R197) -/
  | vscanAdd (a : Reg) (b : Reg) (c : Reg) (m : Bool)
  /-- VFSCAN_ADD (R197) -/
  | vfscanAdd (a : Reg) (b : Reg) (c : Reg) (m : Bool)
  /-- VSCANLIN (R90) -/
  | vscanlin (a : Reg) (b : Reg) (c : Reg) (m : Bool)
  /-- PAND (R199) -/
  | pand (a : Reg) (b : Reg) (c : Reg)
  /-- POR (R199) -/
  | por (a : Reg) (b : Reg) (c : Reg)
  /-- PXOR (R199) -/
  | pxor (a : Reg) (b : Reg) (c : Reg)
  /-- PANDN (R199) -/
  | pandn (a : Reg) (b : Reg) (c : Reg)
  /-- PNOT (R199) -/
  | pnot (a : Reg) (b : Reg)
  /-- PSET (R199) -/
  | pset (a : Reg)
  /-- PCLR (R199) -/
  | pclr (a : Reg)
  /-- PCNT (R199) -/
  | pcnt (a : Reg) (b : Reg)
  /-- PFIRST (R199) -/
  | pfirst (a : Reg) (b : Reg)
  /-- PMOV (R199) -/
  | pmov (a : Reg) (b : Reg)
  /-- PFROMV (R199) -/
  | pfromv (a : Reg) (b : Reg)
  /-- PTOV (R199) -/
  | ptov (a : Reg) (b : Reg)
  /-- VLD (R205) -/
  | vld (a : Reg) (b : Reg) (m : Bool)
  /-- VLD_FF (R203) -/
  | vldFf (a : Reg) (b : Reg) (m : Bool)
  /-- VLDS (R205) -/
  | vlds (a : Reg) (b : Reg) (c : Reg) (m : Bool)
  /-- VLDS_FF (R203) -/
  | vldsFf (a : Reg) (b : Reg) (c : Reg) (m : Bool)
  /-- VLDG (R205) -/
  | vldg (a : Reg) (b : Reg) (c : Reg) (m : Bool)
  /-- VLDX (R208) -/
  | vldx (a : Reg) (b : Reg) (c : Reg) (m : Bool)
  /-- VLDX_FF (R203) -/
  | vldxFf (a : Reg) (b : Reg) (c : Reg) (m : Bool)
  /-- VLDB (R209) -/
  | vldb (a : Reg) (b : Reg) (c : Reg) (m : Bool)
  /-- VLDB_FF (R209) -/
  | vldbFf (a : Reg) (b : Reg) (c : Reg) (m : Bool)
  /-- VPFD (R206) -/
  | vpfd (b : Reg) (c : Reg)
  /-- VST (R205) -/
  | vst (a : Reg) (b : Reg) (m : Bool)
  /-- VSTS (R205) -/
  | vsts (a : Reg) (b : Reg) (c : Reg) (m : Bool)
  /-- VSTG (R205) -/
  | vstg (a : Reg) (b : Reg) (c : Reg) (m : Bool)
  /-- VSTX (R207) -/
  | vstx (a : Reg) (b : Reg) (c : Reg) (m : Bool)
  /-- VSTB (R210) -/
  | vstb (a : Reg) (b : Reg) (c : BitVec 5) (m : Bool)
  /-- VAMOADD (R211) -/
  | vamoadd (a : Reg) (b : Reg) (c : Reg) (m : Bool)
  /-- VAMOMIN (R211) -/
  | vamomin (a : Reg) (b : Reg) (c : Reg) (m : Bool)
  /-- VAMOMAX (R211) -/
  | vamomax (a : Reg) (b : Reg) (c : Reg) (m : Bool)
  /-- VAMOSWP (R211) -/
  | vamoswp (a : Reg) (b : Reg) (c : Reg) (m : Bool)
  /-- VAMOFADD (R211) -/
  | vamofadd (a : Reg) (b : Reg) (c : Reg) (m : Bool)
  /-- TALLOC (R218) -/
  | talloc (a : Reg) (b : Reg) (c : Reg)
  /-- TALLOC_Z (R218) -/
  | tallocZ (a : Reg) (b : Reg) (c : Reg)
  /-- TFREE (R219) -/
  | tfree (b : Reg)
  /-- TSTAT (R220) -/
  | tstat (a : Reg) (b : Reg) (c : Reg)
  /-- TSTAT_MASK (R225) -/
  | tstatMask (a : Reg) (b : Reg) (c : Reg)
  /-- TLD_R (R221) -/
  | tldR (a : Reg) (b : Reg) (c : Reg) (m : Bool)
  /-- TLD_C (R221) -/
  | tldC (a : Reg) (b : Reg) (c : Reg) (m : Bool)
  /-- TST_R (R221) -/
  | tstR (a : Reg) (b : Reg) (c : Reg) (m : Bool)
  /-- TST_C (R221) -/
  | tstC (a : Reg) (b : Reg) (c : Reg) (m : Bool)
  /-- CPYIN (R223) -/
  | cpyin (a : Reg) (b : Reg) (c : Reg)
  /-- CPYG (R228) -/
  | cpyg (a : Reg) (b : Reg) (c : Reg)
  /-- CPYMC (R229) -/
  | cpymc (a : Reg) (b : Reg) (c : Reg)
  /-- CPYOUT (R223) -/
  | cpyout (a : Reg) (b : Reg) (c : Reg)
  /-- CWAIT (R227) -/
  | cwait (b : Reg)
  /-- SBIND (R230) -/
  | sbind (a : Reg) (b : Reg) (c : Reg)
  /-- SUNBIND (R232) -/
  | sunbind (a : Reg)
  /-- SSTAT (R230) -/
  | sstat (a : Reg) (b : Reg)
  /-- SSTAT_MASK (R231) -/
  | sstatMask (a : Reg) (b : Reg)
  /-- KLD (R212) -/
  | kld (a : Reg) (b : Reg) (c : Reg)
  /-- KST (R212) -/
  | kst (a : Reg) (b : Reg) (c : Reg)
  /-- KMOV (R212) -/
  | kmov (a : Reg) (b : Reg)
  /-- KSET (R212) -/
  | kset (a : Reg) (b : Reg)
  /-- TSHAPE (R268) -/
  | tshape (a : Reg) (b : Reg) (c : Reg)
  /-- MZERO (R270) -/
  | mzero (a : Reg)
  /-- MLDOP (R276) -/
  | mldop (a : Reg) (b : Reg) (c : Reg)
  /-- MLDOP_FF (R276) -/
  | mldopFf (a : Reg) (b : Reg) (c : Reg)
  /-- MXOA (R271) -/
  | mxoa (b : Reg) (c : Reg) (n : BitVec 2) (f : BitVec 5)
  /-- MXOS (R271) -/
  | mxos (b : Reg) (c : Reg) (n : BitVec 2) (f : BitVec 5)
  /-- MLDA (R277) -/
  | mlda (a : Reg) (b : Reg) (c : Reg)
  /-- MSTA (R277) -/
  | msta (a : Reg) (b : Reg) (c : Reg)
  /-- MRD (R279) -/
  | mrd (a : Reg) (b : Reg)
  /-- MWR (R279) -/
  | mwr (a : Reg) (b : Reg)
  /-- SMMUL (R284) -/
  | smmul (a : Reg) (b : Reg) (c : Reg) (m : Bool)
  /-- SMMULT (R284) -/
  | smmult (a : Reg) (b : Reg) (c : Reg) (m : Bool)
  /-- SMCHOL (R285) -/
  | smchol (a : Reg) (b : Reg) (m : Bool)
  /-- SMLUP (R286) -/
  | smlup (a : Reg) (b : Reg) (c : Reg) (m : Bool)
  /-- SMSOLC (R287) -/
  | smsolc (a : Reg) (b : Reg) (m : Bool)
  /-- SMSOLP (R287) -/
  | smsolp (a : Reg) (b : Reg) (c : Reg) (m : Bool)
  /-- SMTRAN (R288) -/
  | smtran (a : Reg) (b : Reg) (m : Bool)
  /-- CHCFG (R291) -/
  | chcfg (b : Reg)
  /-- CHEND (R295) -/
  | chend
  /-- CHRUN (R298) -/
  | chrun (b : Reg) (c : Reg)
  /-- CHWAIT (R308) -/
  | chwait
  /-- CHSTAT (R323) -/
  | chstat (a : Reg) (b : Reg)
  /-- CHSAVE (R319) -/
  | chsave (b : Reg)
  /-- CHLOAD (R320) -/
  | chload (b : Reg)
  /-- CHDROP (R317) -/
  | chdrop
  /-- TURN (R324) -/
  | turn (a : Reg) (b : Reg) (c : Reg) (m : Bool)
  /-- LINK (R297) -/
  | link (b : Reg)
  /-- QPUSH (R309) -/
  | qpush (a : Reg) (b : Reg)
  /-- QPOP (R309) -/
  | qpop (a : Reg) (b : Reg)
  /-- QSPACE (R309) -/
  | qspace (a : Reg) (b : Reg)
  /-- QCNT (R309) -/
  | qcnt (a : Reg) (b : Reg)
  /-- QCLR (R309) -/
  | qclr (a : Reg)
  /-- BOOK (R333) -/
  | book (a : Reg) (b : Reg)
  /-- BKQRY (R334) -/
  | bkqry (a : Reg) (b : Reg)
  /-- BKREL (R336) -/
  | bkrel
  /-- BKWAIT (R335) -/
  | bkwait
  /-- SRSCFG (R351) -/
  | srscfg (b : Reg)
  /-- SRSSTEP (R352) -/
  | srsstep
  /-- SRSMAP (R352) -/
  | srsmap (a : Reg) (b : Reg)
  /-- SRSCLR (R352) -/
  | srsclr
  /-- SRSSIG (R355) -/
  | srssig (b : Reg)
  /-- BARW (R234) -/
  | barw (b : Reg)
  /-- SIGNAL (R235) -/
  | signal (b : Reg) (c : Reg)
  /-- WAITV (R235) -/
  | waitv (b : Reg) (c : Reg)
  /-- QCMD (R370) -/
  | qcmd (a : Reg) (b : Reg) (c : Reg)
  /-- TDONE (R371) -/
  | tdone
  /-- DSIG (R372) -/
  | dsig (b : Reg)
  /-- CAPTURE_WORD (R292) -/
  | captureWord (w : BitVec 32)
  /-- TAIL_WRITE (R365) -/
  | tailWrite (fn : Nat) (off : Nat) (n : Nat) (v : Word)
  /-- QUEUE_SWAP_IN (R363) -/
  | queueSwapIn (h : Nat)
  /-- HOST_WINDOW_READ (R434) -/
  | hostWindowRead (fn : Nat) (off : Nat) (n : Nat)
  /-- HOST_WINDOW_WRITE (R434) -/
  | hostWindowWrite (fn : Nat) (off : Nat) (bytes : List Byte)
  /-- HOST_COMPLETION (R435) -/
  | hostCompletion (pa : Nat) (n : Nat) (data : Option Nat)
  /-- REGISTER_WRITE (R437) -/
  | registerWrite (page : Option Nat) (fn : Nat) (off : Nat) (n : Nat) (v : Word)
  /-- CTXNEW (R438) -/
  | ctxnew (fn : Nat) (root : Word) (qtab : Word) (pool : Word) (len : Word) (conf : Word) (owner : Option (List Byte))
  /-- CTXDEL (R458) -/
  | ctxdel (fn : Nat) (ctx : Word)
  /-- PREEMPT (R404) -/
  | preempt (fn : Nat) (ctx : Word)
  /-- RESUME (R409) -/
  | resume (fn : Nat) (ctx : Word) (bad : List Nat)
  /-- ABORT (R383) -/
  | abort (fn : Nat) (flock : Word)
  /-- QCLR_COMMAND (R364) -/
  | qclrCommand (fn : Nat) (h : Word)
  /-- QRANGE (R438) -/
  | qrange (fn : Nat) (who : Word) (first : Word) (count : Word)
  /-- QBIND (R438) -/
  | qbind (fn : Nat) (ctx : Word) (first : Word) (count : Word)
  /-- FRQ (R397) -/
  | frq (fn : Nat) (die : Word) (base : Word)
  /-- TRACE (R427) -/
  | trace (fn : Nat) (base : Word) (mode : Word)
  /-- GRANT (R447) -/
  | grant (fn : Nat) (ctx : Word) (token : Option (List Byte))
  /-- UNLOCK (R449) -/
  | unlock (fn : Nat) (token : Option (List Byte))
  /-- ATTEST (R450) -/
  | attest (fn : Nat) (nonce : List Byte) (va : Word)
  /-- PCAP (R444) -/
  | pcap (fn : Nat) (die : Word) (watts : Word)
  /-- WINDOW (R434) -/
  | window (fn : Nat) (ctx : Word) (base : Word)
  /-- IRQMAP (R436) -/
  | irqmap (fn : Nat) (source : Word) (vector : Word) (who : Word)
  /-- SMRD (R430) -/
  | smrd (fn : Nat) (addr : Word)
  /-- SMWR (R430) -/
  | smwr (fn : Nat) (addr : Word) (v : Word)
  /-- COMMAND_COMPLETION (R438) -/
  | commandCompletion (fn : Nat)
  /-- VERD (R402) -/
  | verd (die : Nat) (v : Word)
  /-- INVB (R403) -/
  | invb (die : Nat) (v : Word)
  /-- INVALIDATION_COMPLETE (R403) -/
  | invalidationComplete (die : Nat)
  /-- HEAD_WRITE (R401) -/
  | headWrite (die : Nat) (v : Word)
  /-- POWER_ON (R443) -/
  | powerOn
  /-- BRING_UP_COMPLETE (R443) -/
  | bringUpComplete (ok : Bool)
  /-- COLD_RESET (R448) -/
  | coldReset
  /-- SCRUB (R442) -/
  | scrub
  /-- QUANTUM_BOUNDARY (R325) -/
  | quantumBoundary
  /-- BOOKED_START (R337) -/
  | bookedStart (key : Nat)
  /-- BOOKING_END (R337) -/
  | bookingEnd (key : Nat)
  /-- BOOK_SEARCH_END (R333) -/
  | bookSearchEnd (key : Nat)
  /-- OVERRUN (R342) -/
  | overrun (key : Nat)
  /-- SNAPSHOT_TRIGGER (R428) -/
  | snapshotTrigger
  /-- LOCKSTEP_MISMATCH (R429) -/
  | lockstepMismatch (issuer : Nat) (k : Nat) (va : Word) (x : Word) (y : Word)
  /-- TRACE_SAMPLE (R425) -/
  | traceSample (key : Nat)
  /-- LANE_COUNT_EXPIRY (R426) -/
  | laneCountExpiry (key : Nat) (g : Nat)
  /-- TRACE_GRANT_EXPIRY (R447) -/
  | traceGrantExpiry (ctx : Nat)
  /-- DEBUG_RELEASE (R416) -/
  | debugRelease (key : Nat)
  /-- LANE_GRANT (R26) -/
  | laneGrant (key : Nat)
  /-- LANE_RECLAMATION (R27) -/
  | laneReclamation (key : Nat)
  /-- CHAIN_PLACEMENT_TIMEOUT (R299) -/
  | chainPlacementTimeout (key : Nat)
  /-- CHAIN_NODE_FIRE (R305) -/
  | chainNodeFire (key : Nat) (node : Nat)
  /-- CHAIN_RUN_COMPLETE (R316) -/
  | chainRunComplete (key : Nat)
  /-- YIELD_TIMEOUT (R150) -/
  | yieldTimeout (key : Nat)
  /-- WAITV_REREAD (R235) -/
  | waitvReread (key : Nat)
  /-- COPY_TRANSFER_COMPLETE (R224) -/
  | copyTransferComplete (key : Nat) (ch : Nat) (id : Nat)
  /-- ENGINE_ACCESS_FAULT (R224) -/
  | engineAccessFault (e : EngineAccess)
  /-- NOP_RECORD (R366) -/
  | nopRecord (h : Nat)
  /-- LAUNCH_RECORD (R367) -/
  | launchRecord (h : Nat)
  /-- BARRIER_RECORD (R366) -/
  | barrierRecord (h : Nat)
  /-- SIGNAL_RECORD (R366) -/
  | signalRecord (h : Nat)
  /-- WAITVAL_RECORD (R366) -/
  | waitvalRecord (h : Nat)
  /-- COPY_RECORD (R366) -/
  | copyRecord (h : Nat)
  /-- COPY_RECORD_COMPLETE (R366) -/
  | copyRecordComplete (h : Nat) (n : Nat)
  /-- BOOK_RECORD (R366) -/
  | bookRecord (h : Nat)
  /-- FENCE_RECORD (R366) -/
  | fenceRecord (h : Nat)
  /-- FLOCK_DISPATCH (R378) -/
  | flockDispatch
  /-- READY_AGE_EXPIRY (R378) -/
  | readyAgeExpiry
  /-- BOOKED_FLOCK_START (R380) -/
  | bookedFlockStart (task : Nat)
  /-- FLOCK_COMPLETION (R381) -/
  | flockCompletion (task : Nat)
  /-- RDMA_WRITE_IN (R439) -/
  | rdmaWriteIn (qp : Nat) (pa : Nat) (bytes : List Byte)
  /-- RDMA_READ_IN (R439) -/
  | rdmaReadIn (qp : Nat) (pa : Nat) (n : Nat)
  /-- RDMA_SEND_IN (R439) -/
  | rdmaSendIn (qp : Nat) (bytes : List Byte)
  /-- RDMA_ACK (R440) -/
  | rdmaAck (qp : Nat) (n : Nat)
  /-- CONGESTION_NOTIFICATION (R439) -/
  | congestionNotification (qp : Nat)
  /-- NON_INSTRUCTION_WORD (R102) -/
  | nonInstructionWord (w : BitVec 32)
  /-- INSTRUCTION_FETCH_FAULT (R133) -/
  | instructionFetchFault
  /-- RDMA_READ_RESPONSE (R440) -/
  | rdmaReadResponse (pa : Nat) (n : Nat) (data : Option Nat)
  /-- QUEUE_PAIR_ERROR (R440) -/
  | queuePairError (qp : Nat)
  deriving DecidableEq, Repr

end Sys2Proof
end

