-- ==== Sys2Proof/WellFormed.lean ====
section
/-! DEFINITION. The checks of R102 on a word that depend on its own fields alone: the high bits of a predicate, scale,
accumulator or queue name (R39), a destination p0, and sub-fields that the owning chapter leaves unassigned. A word that
fails one of them traps ILLOP. Events have no word and are well formed. -/
namespace Sys2Proof

/-- A predicate name p0 to p15 (R39). -/
def isPred (r : Reg) : Bool := decide (r.toNat < 16)
/-- A predicate that may be written: not p0 (R39). -/
def writesPred (r : Reg) : Bool := decide (r.toNat < 16) && decide (r.toNat ≠ 0)
/-- A scale register name k0 to k63 (R39). -/
def isScale (r : Reg) : Bool := decide (r.toNat < 64)
/-- An accumulator name acc0 to acc3 (R39). -/
def isAcc (r : Reg) : Bool := decide (r.toNat < 4)
/-- A queue name q0 to q31 (R39). -/
def isQueue (r : Reg) : Bool := decide (r.toNat < 32)

/-- The ranges of state-register numbers that R49 and R418 assign, each with its first and last number. -/
def srRanges : List (Nat × Nat) :=
  [(0x000, 0x008), (0x010, 0x016), (0x020, 0x020), (0x030, 0x030), (0x040, 0x043), (0x048, 0x04B), (0x060, 0x061),
   (0x070, 0x071), (0x080, 0x080), (0x100, 0x17F), (0x200, 0x2FF), (0x300, 0x303), (0x310, 0x310), (0x320, 0x322),
   (0x330, 0x330), (0x400, 0x422), (0x430, 0x431)]

/-- Whether R49 or R418 assigns a state-register number. -/
def assignedSr (n : Nat) : Bool := srRanges.any (fun r => decide (r.1 ≤ n) && decide (n ≤ r.2))

/-- The checks of R102 on an instruction's own fields. -/
def Instr.wf (i : Instr) : Bool :=
  match i with
  | .add _ _ _ => true
  | .sub _ _ _ => true
  | .mul _ _ _ => true
  | .mulh _ _ _ => true
  | .mulhu _ _ _ => true
  | .mulhsu _ _ _ => true
  | .div _ _ _ => true
  | .divu _ _ _ => true
  | .rem _ _ _ => true
  | .remu _ _ _ => true
  | .and _ _ _ => true
  | .or _ _ _ => true
  | .xor _ _ _ => true
  | .andn _ _ _ => true
  | .orn _ _ _ => true
  | .shl _ _ _ => true
  | .shr _ _ _ => true
  | .sra _ _ _ => true
  | .ror _ _ _ => true
  | .slt _ _ _ => true
  | .sltu _ _ _ => true
  | .min _ _ _ => true
  | .max _ _ _ => true
  | .minu _ _ _ => true
  | .maxu _ _ _ => true
  | .clz _ _ => true
  | .ctz _ _ => true
  | .popc _ _ => true
  | .exts _ _ _ => true
  | .extz _ _ _ => true
  | .bswp _ _ => true
  | .selnz _ _ _ => true
  | .addi _ _ _ => true
  | .andi _ _ _ => true
  | .ori _ _ _ => true
  | .xori _ _ _ => true
  | .slti _ _ _ => true
  | .sltiu _ _ _ => true
  | .shli _ _ _ => true
  | .shri _ _ _ => true
  | .srai _ _ _ => true
  | .li _ _ => true
  | .lih _ _ => true
  | .adpc _ _ => true
  | .jal _ _ => true
  | .jalr _ _ _ => true
  | .beq _ _ _ => true
  | .bne _ _ _ => true
  | .blt _ _ _ => true
  | .bge _ _ _ => true
  | .bltu _ _ _ => true
  | .bgeu _ _ _ => true
  | .ldb _ _ _ => true
  | .ldbz _ _ _ => true
  | .ldh _ _ _ => true
  | .ldhz _ _ _ => true
  | .ldw _ _ _ => true
  | .ldwz _ _ _ => true
  | .ldd _ _ _ => true
  | .stb _ _ _ => true
  | .sth _ _ _ => true
  | .stw _ _ _ => true
  | .std _ _ _ => true
  | .amoswp _ _ _ _ => true
  | .amoadd _ _ _ _ => true
  | .amoand _ _ _ _ => true
  | .amoor _ _ _ _ => true
  | .amoxor _ _ _ _ => true
  | .amomin _ _ _ _ => true
  | .amomax _ _ _ _ => true
  | .amominu _ _ _ _ => true
  | .amomaxu _ _ _ _ => true
  | .amocas _ _ _ _ => true
  | .fence _ s => decide (s.toNat < 6)
  | .nop => true
  | .trap _ => true
  | .eret => true
  | .brk _ => true
  | .svc _ => true
  | .wait _ => true
  | .yield => true
  | .srd _ s => assignedSr s.toNat
  | .swr _ s => assignedSr s.toNat
  | .winb _ => true
  | .rep _ _ _ => true
  | .exit => true
  | .setvl _ _ => true
  | .setvty _ _ => true
  | .settl _ _ => true
  | .getg _ => true
  | .vadd _ _ _ _ => true
  | .vsub _ _ _ _ => true
  | .vrsub _ _ _ _ => true
  | .vmul _ _ _ _ => true
  | .vmulh _ _ _ _ => true
  | .vmulhu _ _ _ _ => true
  | .vmacc _ _ _ _ => true
  | .vnmsac _ _ _ _ => true
  | .vdiv _ _ _ _ => true
  | .vdivu _ _ _ _ => true
  | .vrem _ _ _ _ => true
  | .vremu _ _ _ _ => true
  | .vsadd _ _ _ _ => true
  | .vssub _ _ _ _ => true
  | .vabsd _ _ _ _ => true
  | .vaddS _ _ _ _ => true
  | .vsubS _ _ _ _ => true
  | .vrsubS _ _ _ _ => true
  | .vmulS _ _ _ _ => true
  | .vmulhS _ _ _ _ => true
  | .vmulhuS _ _ _ _ => true
  | .vmaccS _ _ _ _ => true
  | .vnmsacS _ _ _ _ => true
  | .vdivS _ _ _ _ => true
  | .vdivuS _ _ _ _ => true
  | .vremS _ _ _ _ => true
  | .vremuS _ _ _ _ => true
  | .vsaddS _ _ _ _ => true
  | .vssubS _ _ _ _ => true
  | .vabsdS _ _ _ _ => true
  | .vand _ _ _ _ => true
  | .vor _ _ _ _ => true
  | .vxor _ _ _ _ => true
  | .vandn _ _ _ _ => true
  | .vshl _ _ _ _ => true
  | .vshr _ _ _ _ => true
  | .vsra _ _ _ _ => true
  | .vmin _ _ _ _ => true
  | .vmax _ _ _ _ => true
  | .vminu _ _ _ _ => true
  | .vmaxu _ _ _ _ => true
  | .vsel _ _ _ => true
  | .vmov _ _ _ => true
  | .vandS _ _ _ _ => true
  | .vorS _ _ _ _ => true
  | .vxorS _ _ _ _ => true
  | .vandnS _ _ _ _ => true
  | .vshlS _ _ _ _ => true
  | .vshrS _ _ _ _ => true
  | .vsraS _ _ _ _ => true
  | .vminS _ _ _ _ => true
  | .vmaxS _ _ _ _ => true
  | .vminuS _ _ _ _ => true
  | .vmaxuS _ _ _ _ => true
  | .vselS _ _ _ => true
  | .vmovS _ _ _ => true
  | .vaddi _ _ _ _ => true
  | .vmuli _ _ _ _ => true
  | .vshli _ _ _ _ => true
  | .vshri _ _ _ _ => true
  | .vsrai _ _ _ _ => true
  | .vandi _ _ _ _ => true
  | .vori _ _ _ _ => true
  | .vli _ _ _ => true
  | .vfadd _ _ _ _ => true
  | .vfsub _ _ _ _ => true
  | .vfmul _ _ _ _ => true
  | .vfma _ _ _ _ => true
  | .vfms _ _ _ _ => true
  | .vfnma _ _ _ _ => true
  | .vfdiv _ _ _ _ => true
  | .vfmin _ _ _ _ => true
  | .vfmax _ _ _ _ => true
  | .vfsgn _ _ _ _ => true
  | .vfaddS _ _ _ _ => true
  | .vfsubS _ _ _ _ => true
  | .vfmulS _ _ _ _ => true
  | .vfmaS _ _ _ _ => true
  | .vfmsS _ _ _ _ => true
  | .vfnmaS _ _ _ _ => true
  | .vfdivS _ _ _ _ => true
  | .vfminS _ _ _ _ => true
  | .vfmaxS _ _ _ _ => true
  | .vfsgnS _ _ _ _ => true
  | .vfsqrt _ _ _ => true
  | .vfrcp _ _ _ => true
  | .vfrsq _ _ _ => true
  | .vfexp2 _ _ _ => true
  | .vflog2 _ _ _ => true
  | .vfsin _ _ _ => true
  | .vfcos _ _ _ => true
  | .vftanh _ _ _ => true
  | .vfsigm _ _ _ => true
  | .vfabs _ _ _ => true
  | .vfneg _ _ _ => true
  | .vfclass _ _ _ => true
  | .vfrnd _ _ _ => true
  | .vcmpEq a _ _ _ => writesPred a
  | .vcmpNe a _ _ _ => writesPred a
  | .vcmpLt a _ _ _ => writesPred a
  | .vcmpGe a _ _ _ => writesPred a
  | .vcmpLtu a _ _ _ => writesPred a
  | .vcmpGeu a _ _ _ => writesPred a
  | .vcmpEqS a _ _ _ => writesPred a
  | .vcmpNeS a _ _ _ => writesPred a
  | .vcmpLtS a _ _ _ => writesPred a
  | .vcmpGeS a _ _ _ => writesPred a
  | .vcmpLtuS a _ _ _ => writesPred a
  | .vcmpGeuS a _ _ _ => writesPred a
  | .vfcmpEq a _ _ _ => writesPred a
  | .vfcmpNe a _ _ _ => writesPred a
  | .vfcmpLt a _ _ _ => writesPred a
  | .vfcmpLe a _ _ _ => writesPred a
  | .vfcmpUn a _ _ _ => writesPred a
  | .vfcmpOr a _ _ _ => writesPred a
  | .vcvt _ _ _ _ => true
  | .vcvtk _ _ _ _ => true
  | .vwid _ _ _ => true
  | .vnar _ _ _ => true
  | .vxchS _ _ _ _ => true
  | .vxch _ _ c _ => decide (c.toNat < 15)
  | .vslup _ _ _ _ => true
  | .vsldn _ _ _ _ => true
  | .vperm _ _ _ _ => true
  | .vbcast _ _ _ _ => true
  | .vextr _ _ _ => true
  | .vins _ _ _ _ => true
  | .vcomp _ _ _ => true
  | .vexpd _ _ _ => true
  | .viota _ _ => true
  | .vrev _ _ _ => true
  | .vrsum _ _ _ _ => true
  | .vrmin _ _ _ _ => true
  | .vrmax _ _ _ _ => true
  | .vrminu _ _ _ _ => true
  | .vrmaxu _ _ _ _ => true
  | .vrand _ _ _ _ => true
  | .vror _ _ _ _ => true
  | .vrxor _ _ _ _ => true
  | .vrfsum _ _ _ _ => true
  | .vrfmin _ _ _ _ => true
  | .vrfmax _ _ _ _ => true
  | .vscanAdd _ _ _ _ => true
  | .vfscanAdd _ _ _ _ => true
  | .vscanlin _ _ _ _ => true
  | .pand a b c => writesPred a && isPred b && isPred c
  | .por a b c => writesPred a && isPred b && isPred c
  | .pxor a b c => writesPred a && isPred b && isPred c
  | .pandn a b c => writesPred a && isPred b && isPred c
  | .pnot a b => writesPred a && isPred b
  | .pset a => writesPred a
  | .pclr a => writesPred a
  | .pcnt _ b => isPred b
  | .pfirst _ b => isPred b
  | .pmov a b => writesPred a && isPred b
  | .pfromv a _ => writesPred a
  | .ptov _ b => isPred b
  | .vld _ _ _ => true
  | .vldFf _ _ _ => true
  | .vlds _ _ _ _ => true
  | .vldsFf _ _ _ _ => true
  | .vldg _ _ c _ => decide (2 ≤ c.toNat) && decide (c.toNat ≤ 8)
  | .vldx _ _ _ _ => true
  | .vldxFf _ _ _ _ => true
  | .vldb _ _ c _ => writesPred c
  | .vldbFf _ _ c _ => writesPred c
  | .vpfd _ _ => true
  | .vst _ _ _ => true
  | .vsts _ _ _ _ => true
  | .vstg _ _ c _ => decide (2 ≤ c.toNat) && decide (c.toNat ≤ 8)
  | .vstx _ _ _ _ => true
  | .vstb _ _ _ _ => true
  | .vamoadd _ _ _ _ => true
  | .vamomin _ _ _ _ => true
  | .vamomax _ _ _ _ => true
  | .vamoswp _ _ _ _ => true
  | .vamofadd _ _ _ _ => true
  | .talloc _ _ _ => true
  | .tallocZ _ _ _ => true
  | .tfree _ => true
  | .tstat _ _ _ => true
  | .tstatMask a _ _ => writesPred a
  | .tldR _ _ _ _ => true
  | .tldC _ _ _ _ => true
  | .tstR _ _ _ _ => true
  | .tstC _ _ _ _ => true
  | .cpyin _ _ _ => true
  | .cpyg _ _ _ => true
  | .cpymc _ _ _ => true
  | .cpyout _ _ _ => true
  | .cwait _ => true
  | .sbind _ _ _ => true
  | .sunbind _ => true
  | .sstat _ _ => true
  | .sstatMask a _ => writesPred a
  | .kld a _ _ => isScale a
  | .kst a _ _ => isScale a
  | .kmov a b => isScale a && isScale b
  | .kset a _ => isScale a
  | .tshape _ _ _ => true
  | .mzero a => isAcc a
  | .mldop _ _ _ => true
  | .mldopFf _ _ _ => true
  | .mxoa _ _ _ _ => true
  | .mxos _ _ _ _ => true
  | .mlda a _ _ => isAcc a
  | .msta a _ _ => isAcc a
  | .mrd _ b => isAcc b
  | .mwr a _ => isAcc a
  | .smmul _ _ _ _ => true
  | .smmult _ _ _ _ => true
  | .smchol _ _ _ => true
  | .smlup _ _ _ _ => true
  | .smsolc _ _ _ => true
  | .smsolp _ _ _ _ => true
  | .smtran _ _ _ => true
  | .chcfg _ => true
  | .chend => true
  | .chrun _ _ => true
  | .chwait => true
  | .chstat _ _ => true
  | .chsave _ => true
  | .chload _ => true
  | .chdrop => true
  | .turn _ _ _ _ => true
  | .link _ => true
  | .qpush a _ => isQueue a
  | .qpop _ b => isQueue b
  | .qspace _ b => isQueue b
  | .qcnt _ b => isQueue b
  | .qclr a => isQueue a
  | .book _ _ => true
  | .bkqry _ _ => true
  | .bkrel => true
  | .bkwait => true
  | .srscfg _ => true
  | .srsstep => true
  | .srsmap _ _ => true
  | .srsclr => true
  | .srssig _ => true
  | .barw _ => true
  | .signal _ _ => true
  | .waitv _ _ => true
  | .qcmd _ _ _ => true
  | .tdone => true
  | .dsig _ => true
  | .captureWord _ => true
  | .tailWrite _ _ _ _ => true
  | .queueSwapIn _ => true
  | .hostWindowRead _ _ _ => true
  | .hostWindowWrite _ _ _ => true
  | .hostCompletion _ _ _ => true
  | .registerWrite _ _ _ _ _ => true
  | .ctxnew _ _ _ _ _ _ _ => true
  | .ctxdel _ _ => true
  | .preempt _ _ => true
  | .resume _ _ _ => true
  | .abort _ _ => true
  | .qclrCommand _ _ => true
  | .qrange _ _ _ _ => true
  | .qbind _ _ _ _ => true
  | .frq _ _ _ => true
  | .trace _ _ _ => true
  | .grant _ _ _ => true
  | .unlock _ _ => true
  | .attest _ _ _ => true
  | .pcap _ _ _ => true
  | .window _ _ _ => true
  | .irqmap _ _ _ _ => true
  | .smrd _ _ => true
  | .smwr _ _ _ => true
  | .commandCompletion _ => true
  | .verd _ _ => true
  | .invb _ _ => true
  | .invalidationComplete _ => true
  | .headWrite _ _ => true
  | .powerOn => true
  | .bringUpComplete _ => true
  | .coldReset => true
  | .scrub => true
  | .quantumBoundary => true
  | .bookedStart _ => true
  | .bookingEnd _ => true
  | .bookSearchEnd _ => true
  | .overrun _ => true
  | .snapshotTrigger => true
  | .lockstepMismatch _ _ _ _ _ => true
  | .traceSample _ => true
  | .laneCountExpiry _ _ => true
  | .traceGrantExpiry _ => true
  | .debugRelease _ => true
  | .laneGrant _ => true
  | .laneReclamation _ => true
  | .chainPlacementTimeout _ => true
  | .chainNodeFire _ _ => true
  | .chainRunComplete _ => true
  | .yieldTimeout _ => true
  | .waitvReread _ => true
  | .copyTransferComplete _ _ _ => true
  | .engineAccessFault _ => true
  | .nopRecord _ => true
  | .launchRecord _ => true
  | .barrierRecord _ => true
  | .signalRecord _ => true
  | .waitvalRecord _ => true
  | .copyRecord _ => true
  | .copyRecordComplete _ _ => true
  | .bookRecord _ => true
  | .fenceRecord _ => true
  | .flockDispatch => true
  | .readyAgeExpiry => true
  | .bookedFlockStart _ => true
  | .flockCompletion _ => true
  | .rdmaWriteIn _ _ _ => true
  | .rdmaReadIn _ _ _ => true
  | .rdmaSendIn _ _ => true
  | .rdmaAck _ _ => true
  | .congestionNotification _ => true
  | .nonInstructionWord _ => true
  | .instructionFetchFault => true
  | .rdmaReadResponse _ _ _ => true
  | .queuePairError _ => true

end Sys2Proof
end

