-- ==== Sys2Proof/Decode.lean ====
section
/-! DEFINITION. The words of the instruction set: the fields of R95, the decoder of the opcode map (R97 to R106), total on
every word, and the encoder written from the same tables. A word that is not an instruction is rejected with the reason
that R102 gives. -/
namespace Sys2Proof

/-- Why a word is no instruction (R102). -/
inductive Reject where
  | reservedMajor | unassignedFunction | res0
  deriving DecidableEq, Repr

/-- The rows of the opcode table that have a word, by name. -/
inductive Row where
  | add | sub | mul | mulh | mulhu | mulhsu | div | divu
  | rem | remu | and | or | xor | andn | orn | shl
  | shr | sra | ror | slt | sltu | min | max | minu
  | maxu | clz | ctz | popc | exts | extz | bswp | selnz
  | addi | andi | ori | xori | slti | sltiu | shli | shri
  | srai | li | lih | adpc | jal | jalr | beq | bne
  | blt | bge | bltu | bgeu | ldb | ldbz | ldh | ldhz
  | ldw | ldwz | ldd | stb | sth | stw | std | amoswp
  | amoadd | amoand | amoor | amoxor | amomin | amomax | amominu | amomaxu
  | amocas | fence | nop | trap | eret | brk | svc | wait
  | yield | srd | swr | winb | rep | exit | setvl | setvty
  | settl | getg | vadd | vsub | vrsub | vmul | vmulh | vmulhu
  | vmacc | vnmsac | vdiv | vdivu | vrem | vremu | vsadd | vssub
  | vabsd | vaddS | vsubS | vrsubS | vmulS | vmulhS | vmulhuS | vmaccS
  | vnmsacS | vdivS | vdivuS | vremS | vremuS | vsaddS | vssubS | vabsdS
  | vand | vor | vxor | vandn | vshl | vshr | vsra | vmin
  | vmax | vminu | vmaxu | vsel | vmov | vandS | vorS | vxorS
  | vandnS | vshlS | vshrS | vsraS | vminS | vmaxS | vminuS | vmaxuS
  | vselS | vmovS | vaddi | vmuli | vshli | vshri | vsrai | vandi
  | vori | vli | vfadd | vfsub | vfmul | vfma | vfms | vfnma
  | vfdiv | vfmin | vfmax | vfsgn | vfaddS | vfsubS | vfmulS | vfmaS
  | vfmsS | vfnmaS | vfdivS | vfminS | vfmaxS | vfsgnS | vfsqrt | vfrcp
  | vfrsq | vfexp2 | vflog2 | vfsin | vfcos | vftanh | vfsigm | vfabs
  | vfneg | vfclass | vfrnd | vcmpEq | vcmpNe | vcmpLt | vcmpGe | vcmpLtu
  | vcmpGeu | vcmpEqS | vcmpNeS | vcmpLtS | vcmpGeS | vcmpLtuS | vcmpGeuS | vfcmpEq
  | vfcmpNe | vfcmpLt | vfcmpLe | vfcmpUn | vfcmpOr | vcvt | vcvtk | vwid
  | vnar | vxchS | vxch | vslup | vsldn | vperm | vbcast | vextr
  | vins | vcomp | vexpd | viota | vrev | vrsum | vrmin | vrmax
  | vrminu | vrmaxu | vrand | vror | vrxor | vrfsum | vrfmin | vrfmax
  | vscanAdd | vfscanAdd | vscanlin | pand | por | pxor | pandn | pnot
  | pset | pclr | pcnt | pfirst | pmov | pfromv | ptov | vld
  | vldFf | vlds | vldsFf | vldg | vldx | vldxFf | vldb | vldbFf
  | vpfd | vst | vsts | vstg | vstx | vstb | vamoadd | vamomin
  | vamomax | vamoswp | vamofadd | talloc | tallocZ | tfree | tstat | tstatMask
  | tldR | tldC | tstR | tstC | cpyin | cpyg | cpymc | cpyout
  | cwait | sbind | sunbind | sstat | sstatMask | kld | kst | kmov
  | kset | tshape | mzero | mldop | mldopFf | mxoa | mxos | mlda
  | msta | mrd | mwr | smmul | smmult | smchol | smlup | smsolc
  | smsolp | smtran | chcfg | chend | chrun | chwait | chstat | chsave
  | chload | chdrop | turn | link | qpush | qpop | qspace | qcnt
  | qclr | book | bkqry | bkrel | bkwait | srscfg | srsstep | srsmap
  | srsclr | srssig | barw | signal | waitv | qcmd | tdone | dsig
  deriving DecidableEq, Repr

/-! ### Fields of a word (R95): op [5:0], x [6], a [13:7], b [20:14], hi [31:21]; c [27:21], fn [31:28]. -/

def fOp (w : BitVec 32) : BitVec 6 := w.extractLsb' 0 6
def fX (w : BitVec 32) : Bool := w.extractLsb' 6 1 == 1#1
def fA (w : BitVec 32) : Reg := w.extractLsb' 7 7
def fB (w : BitVec 32) : Reg := w.extractLsb' 14 7
def fHi (w : BitVec 32) : BitVec 11 := w.extractLsb' 21 11
def hiC (h : BitVec 11) : Reg := h.extractLsb' 0 7
def hiFn (h : BitVec 11) : BitVec 4 := h.extractLsb' 7 4
def hiLow8 (h : BitVec 11) : BitVec 8 := h.extractLsb' 0 8
def hiFn3 (h : BitVec 11) : BitVec 3 := h.extractLsb' 8 3
def hiLow6 (h : BitVec 11) : BitVec 6 := h.extractLsb' 0 6
def hiKind (h : BitVec 11) : BitVec 5 := h.extractLsb' 6 5
def hiScope (h : BitVec 11) : BitVec 3 := h.extractLsb' 0 3
def hiOrder (h : BitVec 11) : BitVec 2 := h.extractLsb' 3 2
def hiRest (h : BitVec 11) : BitVec 6 := h.extractLsb' 5 6
def low5 (r : Reg) : BitVec 5 := r.extractLsb' 0 5
def high2 (r : Reg) : BitVec 2 := r.extractLsb' 5 2
def low3 (r : Reg) : BitVec 3 := r.extractLsb' 0 3
def high4 (r : Reg) : BitVec 4 := r.extractLsb' 3 4
def fnLow (f : BitVec 4) : BitVec 2 := f.extractLsb' 0 2
def fnHigh (f : BitVec 4) : BitVec 2 := f.extractLsb' 2 2
/-- The 14 bits of fields c and b read together (R142), and the 18 bits of the L format. -/
def cb (h : BitVec 11) (b : Reg) : BitVec 14 := hiC h ++ b
def imm18 (h : BitVec 11) (b : Reg) : BitVec 18 := h ++ b

/-- A word from its fields. -/
def pack (op : BitVec 6) (x : Bool) (a b : Reg) (hi : BitVec 11) : BitVec 32 :=
  hi ++ b ++ a ++ BitVec.ofBool x ++ op

/-- The instruction, provided the fields that are res0 are zero. -/
def need (zero : Bool) (r : Row) : Except Reject Row := if zero then .ok r else .error .res0

/-- Major 0x00, SYS. -/
def decodeSys (w : BitVec 32) : Except Reject Row :=
  let a := fA w
  let b := fB w
  let h := fHi w
  let c := hiC h
  let x := fX w
  match (hiFn h).toNat with
  | 1 => need (!x && a == 0 && b == 0 && c == 0) .nop
  | 2 => need (!x && a == 0) .trap
  | 3 => need (!x && a == 0 && b == 0 && c == 0) .eret
  | 4 => need (!x && a == 0) .brk
  | 5 => need (!x && a == 0) .svc
  | 6 => need (!x && a == 0 && c == 0) .wait
  | 7 => need (!x && a == 0 && b == 0 && c == 0) .yield
  | 8 => need (!x) .srd
  | 9 => need (!x) .swr
  | 10 => need (!x && a == 0 && c == 0) .winb
  | 11 => need (!x && high4 a == 0) .rep
  | 12 => need (!x && a == 0 && b == 0 && c == 0) .exit
  | _ => .error .unassignedFunction

/-- Major 0x01, INT. -/
def decodeInt (w : BitVec 32) : Except Reject Row :=
  let h := fHi w
  let c := hiC h
  let x := fX w
  if x then
    match (hiFn h).toNat with
    | 0 => .ok .shr
    | 1 => .ok .sra
    | 2 => .ok .ror
    | 3 => .ok .slt
    | 4 => .ok .sltu
    | 5 => .ok .min
    | 6 => .ok .max
    | 7 => .ok .minu
    | 8 => .ok .maxu
    | 9 => need (c == 0) .clz
    | 10 => need (c == 0) .ctz
    | 11 => need (c == 0) .popc
    | 12 => .ok .exts
    | 13 => .ok .extz
    | 14 => need (c == 0) .bswp
    | 15 => .ok .selnz
    | _ => .error .unassignedFunction
  else
    match (hiFn h).toNat with
    | 0 => .ok .add
    | 1 => .ok .sub
    | 2 => .ok .mul
    | 3 => .ok .mulh
    | 4 => .ok .mulhu
    | 5 => .ok .mulhsu
    | 6 => .ok .div
    | 7 => .ok .divu
    | 8 => .ok .rem
    | 9 => .ok .remu
    | 10 => .ok .and
    | 11 => .ok .or
    | 12 => .ok .xor
    | 13 => .ok .andn
    | 14 => .ok .orn
    | 15 => .ok .shl
    | _ => .error .unassignedFunction

/-- Major 0x02, ADDI. -/
def decodeAddi (w : BitVec 32) : Except Reject Row :=
  let x := fX w
  need (!x) .addi

/-- Major 0x03, ANDI. -/
def decodeAndi (w : BitVec 32) : Except Reject Row :=
  let x := fX w
  need (!x) .andi

/-- Major 0x04, ORI. -/
def decodeOri (w : BitVec 32) : Except Reject Row :=
  let x := fX w
  need (!x) .ori

/-- Major 0x05, XORI. -/
def decodeXori (w : BitVec 32) : Except Reject Row :=
  let x := fX w
  need (!x) .xori

/-- Major 0x06, SLTI. -/
def decodeSlti (w : BitVec 32) : Except Reject Row :=
  let x := fX w
  need (!x) .slti

/-- Major 0x07, SLTIU. -/
def decodeSltiu (w : BitVec 32) : Except Reject Row :=
  let x := fX w
  need (!x) .sltiu

/-- Major 0x08, SHI. -/
def decodeShi (w : BitVec 32) : Except Reject Row :=
  let h := fHi w
  let x := fX w
  match (hiKind h).toNat with
  | 0 => need (!x) .shli
  | 1 => need (!x) .shri
  | 2 => need (!x) .srai
  | _ => .error .unassignedFunction

/-- Major 0x09, LI. -/
def decodeLi (w : BitVec 32) : Except Reject Row :=
  let x := fX w
  need (!x) .li

/-- Major 0x0A, LIH. -/
def decodeLih (w : BitVec 32) : Except Reject Row :=
  let x := fX w
  need (!x) .lih

/-- Major 0x0B, ADPC. -/
def decodeAdpc (w : BitVec 32) : Except Reject Row :=
  let x := fX w
  need (!x) .adpc

/-- Major 0x0C, JAL. -/
def decodeJal (w : BitVec 32) : Except Reject Row :=
  let x := fX w
  need (!x) .jal

/-- Major 0x0D, JALR. -/
def decodeJalr (w : BitVec 32) : Except Reject Row :=
  let x := fX w
  need (!x) .jalr

/-- Major 0x0E, BEQ. -/
def decodeBeq (w : BitVec 32) : Except Reject Row :=
  let x := fX w
  need (!x) .beq

/-- Major 0x0F, BNE. -/
def decodeBne (w : BitVec 32) : Except Reject Row :=
  let x := fX w
  need (!x) .bne

/-- Major 0x10, BLT. -/
def decodeBlt (w : BitVec 32) : Except Reject Row :=
  let x := fX w
  need (!x) .blt

/-- Major 0x11, BGE. -/
def decodeBge (w : BitVec 32) : Except Reject Row :=
  let x := fX w
  need (!x) .bge

/-- Major 0x12, BLTU. -/
def decodeBltu (w : BitVec 32) : Except Reject Row :=
  let x := fX w
  need (!x) .bltu

/-- Major 0x13, BGEU. -/
def decodeBgeu (w : BitVec 32) : Except Reject Row :=
  let x := fX w
  need (!x) .bgeu

/-- Major 0x14, LDB. -/
def decodeLdb (w : BitVec 32) : Except Reject Row :=
  let x := fX w
  if x then .ok .ldbz else .ok .ldb

/-- Major 0x15, LDH. -/
def decodeLdh (w : BitVec 32) : Except Reject Row :=
  let x := fX w
  if x then .ok .ldhz else .ok .ldh

/-- Major 0x16, LDW. -/
def decodeLdw (w : BitVec 32) : Except Reject Row :=
  let x := fX w
  if x then .ok .ldwz else .ok .ldw

/-- Major 0x17, LDD. -/
def decodeLdd (w : BitVec 32) : Except Reject Row :=
  let x := fX w
  need (!x) .ldd

/-- Major 0x18, STB. -/
def decodeStb (w : BitVec 32) : Except Reject Row :=
  let x := fX w
  need (!x) .stb

/-- Major 0x19, STH. -/
def decodeSth (w : BitVec 32) : Except Reject Row :=
  let x := fX w
  need (!x) .sth

/-- Major 0x1A, STW. -/
def decodeStw (w : BitVec 32) : Except Reject Row :=
  let x := fX w
  need (!x) .stw

/-- Major 0x1B, STD. -/
def decodeStd (w : BitVec 32) : Except Reject Row :=
  let x := fX w
  need (!x) .std

/-- Major 0x1C, AMO. -/
def decodeAmo (w : BitVec 32) : Except Reject Row :=
  let h := fHi w
  match (hiFn h).toNat with
  | 0 => .ok .amoswp
  | 1 => .ok .amoadd
  | 2 => .ok .amoand
  | 3 => .ok .amoor
  | 4 => .ok .amoxor
  | 5 => .ok .amomin
  | 6 => .ok .amomax
  | 7 => .ok .amominu
  | 8 => .ok .amomaxu
  | 9 => .ok .amocas
  | _ => .error .unassignedFunction

/-- Major 0x1D, FENCE. -/
def decodeFence (w : BitVec 32) : Except Reject Row :=
  let a := fA w
  let b := fB w
  let h := fHi w
  let x := fX w
  need (!x && a == 0 && b == 0 && hiRest h == 0) .fence

/-- Major 0x20, VCFG. -/
def decodeVcfg (w : BitVec 32) : Except Reject Row :=
  let b := fB w
  let h := fHi w
  let c := hiC h
  let x := fX w
  match (hiFn h).toNat with
  | 0 => need (!x && c == 0) .setvl
  | 1 => need (!x && c == 0) .setvty
  | 2 => need (!x && c == 0) .settl
  | 3 => need (!x && b == 0 && c == 0) .getg
  | _ => .error .unassignedFunction

/-- Major 0x21, VIA. -/
def decodeVia (w : BitVec 32) : Except Reject Row :=
  let h := fHi w
  match (hiFn h).toNat with
  | 0 => .ok .vadd
  | 1 => .ok .vsub
  | 2 => .ok .vrsub
  | 3 => .ok .vmul
  | 4 => .ok .vmulh
  | 5 => .ok .vmulhu
  | 6 => .ok .vmacc
  | 7 => .ok .vnmsac
  | 8 => .ok .vdiv
  | 9 => .ok .vdivu
  | 10 => .ok .vrem
  | 11 => .ok .vremu
  | 12 => .ok .vsadd
  | 13 => .ok .vssub
  | 14 => .ok .vabsd
  | _ => .error .unassignedFunction

/-- Major 0x22, VIAS. -/
def decodeVias (w : BitVec 32) : Except Reject Row :=
  let h := fHi w
  match (hiFn h).toNat with
  | 0 => .ok .vaddS
  | 1 => .ok .vsubS
  | 2 => .ok .vrsubS
  | 3 => .ok .vmulS
  | 4 => .ok .vmulhS
  | 5 => .ok .vmulhuS
  | 6 => .ok .vmaccS
  | 7 => .ok .vnmsacS
  | 8 => .ok .vdivS
  | 9 => .ok .vdivuS
  | 10 => .ok .vremS
  | 11 => .ok .vremuS
  | 12 => .ok .vsaddS
  | 13 => .ok .vssubS
  | 14 => .ok .vabsdS
  | _ => .error .unassignedFunction

/-- Major 0x23, VIB. -/
def decodeVib (w : BitVec 32) : Except Reject Row :=
  let b := fB w
  let h := fHi w
  let x := fX w
  match (hiFn h).toNat with
  | 0 => .ok .vand
  | 1 => .ok .vor
  | 2 => .ok .vxor
  | 3 => .ok .vandn
  | 4 => .ok .vshl
  | 5 => .ok .vshr
  | 6 => .ok .vsra
  | 7 => .ok .vmin
  | 8 => .ok .vmax
  | 9 => .ok .vminu
  | 10 => .ok .vmaxu
  | 11 => need (!x) .vsel
  | 12 => need (b == 0) .vmov
  | _ => .error .unassignedFunction

/-- Major 0x24, VIBS. -/
def decodeVibs (w : BitVec 32) : Except Reject Row :=
  let b := fB w
  let h := fHi w
  let x := fX w
  match (hiFn h).toNat with
  | 0 => .ok .vandS
  | 1 => .ok .vorS
  | 2 => .ok .vxorS
  | 3 => .ok .vandnS
  | 4 => .ok .vshlS
  | 5 => .ok .vshrS
  | 6 => .ok .vsraS
  | 7 => .ok .vminS
  | 8 => .ok .vmaxS
  | 9 => .ok .vminuS
  | 10 => .ok .vmaxuS
  | 11 => need (!x) .vselS
  | 12 => need (b == 0) .vmovS
  | _ => .error .unassignedFunction

/-- Major 0x25, VFA. -/
def decodeVfa (w : BitVec 32) : Except Reject Row :=
  let h := fHi w
  match (hiFn h).toNat with
  | 0 => .ok .vfadd
  | 1 => .ok .vfsub
  | 2 => .ok .vfmul
  | 3 => .ok .vfma
  | 4 => .ok .vfms
  | 5 => .ok .vfnma
  | 6 => .ok .vfdiv
  | 7 => .ok .vfmin
  | 8 => .ok .vfmax
  | 9 => .ok .vfsgn
  | _ => .error .unassignedFunction

/-- Major 0x26, VFAS. -/
def decodeVfas (w : BitVec 32) : Except Reject Row :=
  let h := fHi w
  match (hiFn h).toNat with
  | 0 => .ok .vfaddS
  | 1 => .ok .vfsubS
  | 2 => .ok .vfmulS
  | 3 => .ok .vfmaS
  | 4 => .ok .vfmsS
  | 5 => .ok .vfnmaS
  | 6 => .ok .vfdivS
  | 7 => .ok .vfminS
  | 8 => .ok .vfmaxS
  | 9 => .ok .vfsgnS
  | _ => .error .unassignedFunction

/-- Major 0x27, VFU. -/
def decodeVfu (w : BitVec 32) : Except Reject Row :=
  let h := fHi w
  let c := hiC h
  match (hiFn h).toNat with
  | 0 => need (c == 0) .vfsqrt
  | 1 => need (c == 0) .vfrcp
  | 2 => need (c == 0) .vfrsq
  | 3 => need (c == 0) .vfexp2
  | 4 => need (c == 0) .vflog2
  | 5 => need (c == 0) .vfsin
  | 6 => need (c == 0) .vfcos
  | 7 => need (c == 0) .vftanh
  | 8 => need (c == 0) .vfsigm
  | 9 => need (c == 0) .vfabs
  | 10 => need (c == 0) .vfneg
  | 11 => need (c == 0) .vfclass
  | 12 => need (c == 0) .vfrnd
  | _ => .error .unassignedFunction

/-- Major 0x28, VCMP. -/
def decodeVcmp (w : BitVec 32) : Except Reject Row :=
  let h := fHi w
  match (hiFn h).toNat with
  | 0 => .ok .vcmpEq
  | 1 => .ok .vcmpNe
  | 2 => .ok .vcmpLt
  | 3 => .ok .vcmpGe
  | 4 => .ok .vcmpLtu
  | 5 => .ok .vcmpGeu
  | _ => .error .unassignedFunction

/-- Major 0x29, VCMPS. -/
def decodeVcmps (w : BitVec 32) : Except Reject Row :=
  let h := fHi w
  match (hiFn h).toNat with
  | 0 => .ok .vcmpEqS
  | 1 => .ok .vcmpNeS
  | 2 => .ok .vcmpLtS
  | 3 => .ok .vcmpGeS
  | 4 => .ok .vcmpLtuS
  | 5 => .ok .vcmpGeuS
  | _ => .error .unassignedFunction

/-- Major 0x2A, VFCMP. -/
def decodeVfcmp (w : BitVec 32) : Except Reject Row :=
  let h := fHi w
  match (hiFn h).toNat with
  | 0 => .ok .vfcmpEq
  | 1 => .ok .vfcmpNe
  | 2 => .ok .vfcmpLt
  | 3 => .ok .vfcmpLe
  | 4 => .ok .vfcmpUn
  | 5 => .ok .vfcmpOr
  | _ => .error .unassignedFunction

/-- Major 0x2B, VCVT. -/
def decodeVcvt (w : BitVec 32) : Except Reject Row :=
  let h := fHi w
  let c := hiC h
  match (hiFn h).toNat with
  | 0 => need (high2 c == 0) .vcvt
  | 1 => need (high2 c == 0) .vcvtk
  | 2 => need (c == 0) .vwid
  | 3 => need (c == 0) .vnar
  | _ => .error .unassignedFunction

/-- Major 0x2C, VPRM. -/
def decodeVprm (w : BitVec 32) : Except Reject Row :=
  let b := fB w
  let h := fHi w
  let c := hiC h
  let x := fX w
  match (hiFn h).toNat with
  | 0 => .ok .vxchS
  | 1 => .ok .vxch
  | 2 => .ok .vslup
  | 3 => .ok .vsldn
  | 4 => .ok .vperm
  | 5 => .ok .vbcast
  | 6 => need (!x) .vextr
  | 7 => .ok .vins
  | 8 => need (c == 0) .vcomp
  | 9 => need (c == 0) .vexpd
  | 10 => need (b == 0 && c == 0) .viota
  | 11 => need (c == 0) .vrev
  | _ => .error .unassignedFunction

/-- Major 0x2D, VRED. -/
def decodeVred (w : BitVec 32) : Except Reject Row :=
  let h := fHi w
  match (hiFn h).toNat with
  | 0 => .ok .vrsum
  | 1 => .ok .vrmin
  | 2 => .ok .vrmax
  | 3 => .ok .vrminu
  | 4 => .ok .vrmaxu
  | 5 => .ok .vrand
  | 6 => .ok .vror
  | 7 => .ok .vrxor
  | 8 => .ok .vrfsum
  | 9 => .ok .vrfmin
  | 10 => .ok .vrfmax
  | 11 => .ok .vscanAdd
  | 12 => .ok .vfscanAdd
  | 13 => .ok .vscanlin
  | _ => .error .unassignedFunction

/-- Major 0x2E, PRED. -/
def decodePred (w : BitVec 32) : Except Reject Row :=
  let b := fB w
  let h := fHi w
  let c := hiC h
  let x := fX w
  match (hiFn h).toNat with
  | 0 => need (!x) .pand
  | 1 => need (!x) .por
  | 2 => need (!x) .pxor
  | 3 => need (!x) .pandn
  | 4 => need (!x && c == 0) .pnot
  | 5 => need (!x && b == 0 && c == 0) .pset
  | 6 => need (!x && b == 0 && c == 0) .pclr
  | 7 => need (!x && c == 0) .pcnt
  | 8 => need (!x && c == 0) .pfirst
  | 9 => need (!x && c == 0) .pmov
  | 10 => need (!x && c == 0) .pfromv
  | 11 => need (!x && c == 0) .ptov
  | _ => .error .unassignedFunction

/-- Major 0x2F, VIMM. -/
def decodeVimm (w : BitVec 32) : Except Reject Row :=
  let b := fB w
  let h := fHi w
  match (hiFn3 h).toNat with
  | 0 => .ok .vaddi
  | 1 => .ok .vmuli
  | 2 => .ok .vshli
  | 3 => .ok .vshri
  | 4 => .ok .vsrai
  | 5 => .ok .vandi
  | 6 => .ok .vori
  | 7 => need (b == 0) .vli
  | _ => .error .unassignedFunction

/-- Major 0x30, VLD. -/
def decodeVld (w : BitVec 32) : Except Reject Row :=
  let a := fA w
  let h := fHi w
  let c := hiC h
  let x := fX w
  match (hiFn h).toNat with
  | 0 => need (c == 0) .vld
  | 1 => need (c == 0) .vldFf
  | 2 => .ok .vlds
  | 3 => .ok .vldsFf
  | 4 => .ok .vldg
  | 5 => .ok .vldx
  | 6 => .ok .vldxFf
  | 7 => .ok .vldb
  | 8 => .ok .vldbFf
  | 9 => need (!x && a == 0) .vpfd
  | _ => .error .unassignedFunction

/-- Major 0x31, VST. -/
def decodeVst (w : BitVec 32) : Except Reject Row :=
  let h := fHi w
  let c := hiC h
  match (hiFn h).toNat with
  | 0 => need (c == 0) .vst
  | 1 => .ok .vsts
  | 2 => .ok .vstg
  | 3 => .ok .vstx
  | 4 => need (high2 c == 0) .vstb
  | _ => .error .unassignedFunction

/-- Major 0x32, VAMO. -/
def decodeVamo (w : BitVec 32) : Except Reject Row :=
  let h := fHi w
  match (hiFn h).toNat with
  | 0 => .ok .vamoadd
  | 1 => .ok .vamomin
  | 2 => .ok .vamomax
  | 3 => .ok .vamoswp
  | 4 => .ok .vamofadd
  | _ => .error .unassignedFunction

/-- Major 0x33, TILE. -/
def decodeTile (w : BitVec 32) : Except Reject Row :=
  let a := fA w
  let h := fHi w
  let c := hiC h
  let x := fX w
  match (hiFn h).toNat with
  | 0 => need (!x) .talloc
  | 1 => need (!x) .tallocZ
  | 2 => need (!x && a == 0 && c == 0) .tfree
  | 3 => need (!x) .tstat
  | 4 => need (!x) .tstatMask
  | 5 => .ok .tldR
  | 6 => .ok .tldC
  | 7 => .ok .tstR
  | 8 => .ok .tstC
  | _ => .error .unassignedFunction

/-- Major 0x34, COPY. -/
def decodeCopy (w : BitVec 32) : Except Reject Row :=
  let a := fA w
  let h := fHi w
  let c := hiC h
  let x := fX w
  match (hiFn h).toNat with
  | 0 => need (!x) .cpyin
  | 1 => need (!x) .cpyg
  | 2 => need (!x) .cpymc
  | 3 => need (!x) .cpyout
  | 4 => need (!x && a == 0 && c == 0) .cwait
  | _ => .error .unassignedFunction

/-- Major 0x35, STRM. -/
def decodeStrm (w : BitVec 32) : Except Reject Row :=
  let b := fB w
  let h := fHi w
  let c := hiC h
  let x := fX w
  match (hiFn h).toNat with
  | 0 => need (!x) .sbind
  | 1 => need (!x && b == 0 && c == 0) .sunbind
  | 2 => need (!x && c == 0) .sstat
  | 3 => need (!x && c == 0) .sstatMask
  | _ => .error .unassignedFunction

/-- Major 0x36, SCL. -/
def decodeScl (w : BitVec 32) : Except Reject Row :=
  let h := fHi w
  let c := hiC h
  let x := fX w
  match (hiFn h).toNat with
  | 0 => need (!x) .kld
  | 1 => need (!x) .kst
  | 2 => need (!x && c == 0) .kmov
  | 3 => need (!x && c == 0) .kset
  | _ => .error .unassignedFunction

/-- Major 0x37, MTX. -/
def decodeMtx (w : BitVec 32) : Except Reject Row :=
  let a := fA w
  let b := fB w
  let h := fHi w
  let c := hiC h
  let x := fX w
  match (hiFn h).toNat with
  | 0 => need (!x) .tshape
  | 1 => need (!x && b == 0 && c == 0) .mzero
  | 2 => need (!x) .mldop
  | 3 => need (!x) .mldopFf
  | 12 => need (!x) .mlda
  | 13 => need (!x) .msta
  | 14 => need (!x && c == 0) .mrd
  | 15 => need (!x && c == 0) .mwr
  | 4 => need (!x && high2 a == 0) .mxoa
  | 5 => need (!x && high2 a == 0) .mxoa
  | 6 => need (!x && high2 a == 0) .mxoa
  | 7 => need (!x && high2 a == 0) .mxoa
  | 8 => need (!x && high2 a == 0) .mxos
  | 9 => need (!x && high2 a == 0) .mxos
  | 10 => need (!x && high2 a == 0) .mxos
  | 11 => need (!x && high2 a == 0) .mxos
  | _ => .error .unassignedFunction

/-- Major 0x38, SMX. -/
def decodeSmx (w : BitVec 32) : Except Reject Row :=
  let h := fHi w
  let c := hiC h
  match (hiFn h).toNat with
  | 0 => .ok .smmul
  | 1 => .ok .smmult
  | 2 => need (c == 0) .smchol
  | 3 => .ok .smlup
  | 4 => need (c == 0) .smsolc
  | 5 => .ok .smsolp
  | 6 => need (c == 0) .smtran
  | _ => .error .unassignedFunction

/-- Major 0x39, CHN. -/
def decodeChn (w : BitVec 32) : Except Reject Row :=
  let a := fA w
  let b := fB w
  let h := fHi w
  let c := hiC h
  let x := fX w
  match (hiFn h).toNat with
  | 0 => need (!x && a == 0 && c == 0) .chcfg
  | 1 => need (!x && a == 0 && b == 0 && c == 0) .chend
  | 2 => need (!x && a == 0) .chrun
  | 3 => need (!x && a == 0 && b == 0 && c == 0) .chwait
  | 4 => need (!x && c == 0) .chstat
  | 5 => need (!x && a == 0 && c == 0) .chsave
  | 6 => need (!x && a == 0 && c == 0) .chload
  | 7 => need (!x && a == 0 && b == 0 && c == 0) .chdrop
  | 8 => .ok .turn
  | 9 => need (!x && a == 0 && c == 0) .link
  | _ => .error .unassignedFunction

/-- Major 0x3A, QUE. -/
def decodeQue (w : BitVec 32) : Except Reject Row :=
  let b := fB w
  let h := fHi w
  let c := hiC h
  let x := fX w
  match (hiFn h).toNat with
  | 0 => need (!x && c == 0) .qpush
  | 1 => need (!x && c == 0) .qpop
  | 2 => need (!x && c == 0) .qspace
  | 3 => need (!x && c == 0) .qcnt
  | 4 => need (!x && b == 0 && c == 0) .qclr
  | _ => .error .unassignedFunction

/-- Major 0x3B, BKG. -/
def decodeBkg (w : BitVec 32) : Except Reject Row :=
  let a := fA w
  let b := fB w
  let h := fHi w
  let c := hiC h
  let x := fX w
  match (hiFn h).toNat with
  | 0 => need (!x && c == 0) .book
  | 1 => need (!x && c == 0) .bkqry
  | 2 => need (!x && a == 0 && b == 0 && c == 0) .bkrel
  | 3 => need (!x && a == 0 && b == 0 && c == 0) .bkwait
  | _ => .error .unassignedFunction

/-- Major 0x3C, SRS. -/
def decodeSrs (w : BitVec 32) : Except Reject Row :=
  let a := fA w
  let b := fB w
  let h := fHi w
  let c := hiC h
  let x := fX w
  match (hiFn h).toNat with
  | 0 => need (!x && a == 0 && c == 0) .srscfg
  | 1 => need (!x && a == 0 && b == 0 && c == 0) .srsstep
  | 2 => need (!x && c == 0) .srsmap
  | 3 => need (!x && a == 0 && b == 0 && c == 0) .srsclr
  | 4 => need (!x && a == 0 && c == 0) .srssig
  | _ => .error .unassignedFunction

/-- Major 0x3D, TSK. -/
def decodeTsk (w : BitVec 32) : Except Reject Row :=
  let a := fA w
  let b := fB w
  let h := fHi w
  let c := hiC h
  let x := fX w
  match (hiFn h).toNat with
  | 0 => need (!x && a == 0 && c == 0) .barw
  | 1 => need (!x && a == 0) .signal
  | 2 => need (!x && a == 0) .waitv
  | 8 => need (!x) .qcmd
  | 9 => need (!x && a == 0 && b == 0 && c == 0) .tdone
  | 10 => need (!x && a == 0 && c == 0) .dsig
  | _ => .error .unassignedFunction

/-- The row of a word, or why it is none (R100 to R102). -/
def decodeRow (w : BitVec 32) : Except Reject Row :=
  match (fOp w).toNat with
  | 0 => decodeSys w
  | 1 => decodeInt w
  | 2 => decodeAddi w
  | 3 => decodeAndi w
  | 4 => decodeOri w
  | 5 => decodeXori w
  | 6 => decodeSlti w
  | 7 => decodeSltiu w
  | 8 => decodeShi w
  | 9 => decodeLi w
  | 10 => decodeLih w
  | 11 => decodeAdpc w
  | 12 => decodeJal w
  | 13 => decodeJalr w
  | 14 => decodeBeq w
  | 15 => decodeBne w
  | 16 => decodeBlt w
  | 17 => decodeBge w
  | 18 => decodeBltu w
  | 19 => decodeBgeu w
  | 20 => decodeLdb w
  | 21 => decodeLdh w
  | 22 => decodeLdw w
  | 23 => decodeLdd w
  | 24 => decodeStb w
  | 25 => decodeSth w
  | 26 => decodeStw w
  | 27 => decodeStd w
  | 28 => decodeAmo w
  | 29 => decodeFence w
  | 32 => decodeVcfg w
  | 33 => decodeVia w
  | 34 => decodeVias w
  | 35 => decodeVib w
  | 36 => decodeVibs w
  | 37 => decodeVfa w
  | 38 => decodeVfas w
  | 39 => decodeVfu w
  | 40 => decodeVcmp w
  | 41 => decodeVcmps w
  | 42 => decodeVfcmp w
  | 43 => decodeVcvt w
  | 44 => decodeVprm w
  | 45 => decodeVred w
  | 46 => decodePred w
  | 47 => decodeVimm w
  | 48 => decodeVld w
  | 49 => decodeVst w
  | 50 => decodeVamo w
  | 51 => decodeTile w
  | 52 => decodeCopy w
  | 53 => decodeStrm w
  | 54 => decodeScl w
  | 55 => decodeMtx w
  | 56 => decodeSmx w
  | 57 => decodeChn w
  | 58 => decodeQue w
  | 59 => decodeBkg w
  | 60 => decodeSrs w
  | 61 => decodeTsk w
  | _ => .error .reservedMajor

/-- The word of four bytes, the first at the lowest address (R94). -/
def wordOfBytes (b0 b1 b2 b3 : Byte) : BitVec 32 := b3 ++ b2 ++ b1 ++ b0

/-- The word of an instruction; none for an event, which has no word. -/
def encode (i : Instr) : Option (BitVec 32) :=
  match i with
  | .add a b c => some (pack 1#6 false a b (0#4 ++ c))
  | .sub a b c => some (pack 1#6 false a b (1#4 ++ c))
  | .mul a b c => some (pack 1#6 false a b (2#4 ++ c))
  | .mulh a b c => some (pack 1#6 false a b (3#4 ++ c))
  | .mulhu a b c => some (pack 1#6 false a b (4#4 ++ c))
  | .mulhsu a b c => some (pack 1#6 false a b (5#4 ++ c))
  | .div a b c => some (pack 1#6 false a b (6#4 ++ c))
  | .divu a b c => some (pack 1#6 false a b (7#4 ++ c))
  | .rem a b c => some (pack 1#6 false a b (8#4 ++ c))
  | .remu a b c => some (pack 1#6 false a b (9#4 ++ c))
  | .and a b c => some (pack 1#6 false a b (10#4 ++ c))
  | .or a b c => some (pack 1#6 false a b (11#4 ++ c))
  | .xor a b c => some (pack 1#6 false a b (12#4 ++ c))
  | .andn a b c => some (pack 1#6 false a b (13#4 ++ c))
  | .orn a b c => some (pack 1#6 false a b (14#4 ++ c))
  | .shl a b c => some (pack 1#6 false a b (15#4 ++ c))
  | .shr a b c => some (pack 1#6 true a b (0#4 ++ c))
  | .sra a b c => some (pack 1#6 true a b (1#4 ++ c))
  | .ror a b c => some (pack 1#6 true a b (2#4 ++ c))
  | .slt a b c => some (pack 1#6 true a b (3#4 ++ c))
  | .sltu a b c => some (pack 1#6 true a b (4#4 ++ c))
  | .min a b c => some (pack 1#6 true a b (5#4 ++ c))
  | .max a b c => some (pack 1#6 true a b (6#4 ++ c))
  | .minu a b c => some (pack 1#6 true a b (7#4 ++ c))
  | .maxu a b c => some (pack 1#6 true a b (8#4 ++ c))
  | .clz a b => some (pack 1#6 true a b (9#4 ++ 0#7))
  | .ctz a b => some (pack 1#6 true a b (10#4 ++ 0#7))
  | .popc a b => some (pack 1#6 true a b (11#4 ++ 0#7))
  | .exts a b c => some (pack 1#6 true a b (12#4 ++ c))
  | .extz a b c => some (pack 1#6 true a b (13#4 ++ c))
  | .bswp a b => some (pack 1#6 true a b (14#4 ++ 0#7))
  | .selnz a b c => some (pack 1#6 true a b (15#4 ++ c))
  | .addi a b i => some (pack 2#6 false a b i)
  | .andi a b i => some (pack 3#6 false a b i)
  | .ori a b i => some (pack 4#6 false a b i)
  | .xori a b i => some (pack 5#6 false a b i)
  | .slti a b i => some (pack 6#6 false a b i)
  | .sltiu a b i => some (pack 7#6 false a b i)
  | .shli a b s => some (pack 8#6 false a b (0#5 ++ s))
  | .shri a b s => some (pack 8#6 false a b (1#5 ++ s))
  | .srai a b s => some (pack 8#6 false a b (2#5 ++ s))
  | .li a i => some (pack 9#6 false a (i.extractLsb' 0 7) (i.extractLsb' 7 11))
  | .lih a i => some (pack 10#6 false a (i.extractLsb' 0 7) (i.extractLsb' 7 11))
  | .adpc a i => some (pack 11#6 false a (i.extractLsb' 0 7) (i.extractLsb' 7 11))
  | .jal a i => some (pack 12#6 false a (i.extractLsb' 0 7) (i.extractLsb' 7 11))
  | .jalr a b i => some (pack 13#6 false a b i)
  | .beq a b i => some (pack 14#6 false a b i)
  | .bne a b i => some (pack 15#6 false a b i)
  | .blt a b i => some (pack 16#6 false a b i)
  | .bge a b i => some (pack 17#6 false a b i)
  | .bltu a b i => some (pack 18#6 false a b i)
  | .bgeu a b i => some (pack 19#6 false a b i)
  | .ldb a b i => some (pack 20#6 false a b i)
  | .ldbz a b i => some (pack 20#6 true a b i)
  | .ldh a b i => some (pack 21#6 false a b i)
  | .ldhz a b i => some (pack 21#6 true a b i)
  | .ldw a b i => some (pack 22#6 false a b i)
  | .ldwz a b i => some (pack 22#6 true a b i)
  | .ldd a b i => some (pack 23#6 false a b i)
  | .stb a b i => some (pack 24#6 false a b i)
  | .sth a b i => some (pack 25#6 false a b i)
  | .stw a b i => some (pack 26#6 false a b i)
  | .std a b i => some (pack 27#6 false a b i)
  | .amoswp a b c o => some (pack 28#6 o a b (0#4 ++ c))
  | .amoadd a b c o => some (pack 28#6 o a b (1#4 ++ c))
  | .amoand a b c o => some (pack 28#6 o a b (2#4 ++ c))
  | .amoor a b c o => some (pack 28#6 o a b (3#4 ++ c))
  | .amoxor a b c o => some (pack 28#6 o a b (4#4 ++ c))
  | .amomin a b c o => some (pack 28#6 o a b (5#4 ++ c))
  | .amomax a b c o => some (pack 28#6 o a b (6#4 ++ c))
  | .amominu a b c o => some (pack 28#6 o a b (7#4 ++ c))
  | .amomaxu a b c o => some (pack 28#6 o a b (8#4 ++ c))
  | .amocas a b c o => some (pack 28#6 o a b (9#4 ++ c))
  | .fence k s => some (pack 29#6 false 0 0 (0#6 ++ k ++ s))
  | .nop => some (pack 0#6 false 0 0 (1#4 ++ 0#7))
  | .trap n => some (pack 0#6 false 0 (n.extractLsb' 0 7) (2#4 ++ n.extractLsb' 7 7))
  | .eret => some (pack 0#6 false 0 0 (3#4 ++ 0#7))
  | .brk n => some (pack 0#6 false 0 (n.extractLsb' 0 7) (4#4 ++ n.extractLsb' 7 7))
  | .svc n => some (pack 0#6 false 0 (n.extractLsb' 0 7) (5#4 ++ n.extractLsb' 7 7))
  | .wait b => some (pack 0#6 false 0 b (6#4 ++ 0#7))
  | .yield => some (pack 0#6 false 0 0 (7#4 ++ 0#7))
  | .srd a s => some (pack 0#6 false a (s.extractLsb' 0 7) (8#4 ++ s.extractLsb' 7 7))
  | .swr a s => some (pack 0#6 false a (s.extractLsb' 0 7) (9#4 ++ s.extractLsb' 7 7))
  | .winb b => some (pack 0#6 false 0 b (10#4 ++ 0#7))
  | .rep b c f => some (pack 0#6 false (0#4 ++ f) b (11#4 ++ c))
  | .exit => some (pack 0#6 false 0 0 (12#4 ++ 0#7))
  | .setvl a b => some (pack 32#6 false a b (0#4 ++ 0#7))
  | .setvty a b => some (pack 32#6 false a b (1#4 ++ 0#7))
  | .settl a b => some (pack 32#6 false a b (2#4 ++ 0#7))
  | .getg a => some (pack 32#6 false a 0 (3#4 ++ 0#7))
  | .vadd a b c m => some (pack 33#6 m a b (0#4 ++ c))
  | .vsub a b c m => some (pack 33#6 m a b (1#4 ++ c))
  | .vrsub a b c m => some (pack 33#6 m a b (2#4 ++ c))
  | .vmul a b c m => some (pack 33#6 m a b (3#4 ++ c))
  | .vmulh a b c m => some (pack 33#6 m a b (4#4 ++ c))
  | .vmulhu a b c m => some (pack 33#6 m a b (5#4 ++ c))
  | .vmacc a b c m => some (pack 33#6 m a b (6#4 ++ c))
  | .vnmsac a b c m => some (pack 33#6 m a b (7#4 ++ c))
  | .vdiv a b c m => some (pack 33#6 m a b (8#4 ++ c))
  | .vdivu a b c m => some (pack 33#6 m a b (9#4 ++ c))
  | .vrem a b c m => some (pack 33#6 m a b (10#4 ++ c))
  | .vremu a b c m => some (pack 33#6 m a b (11#4 ++ c))
  | .vsadd a b c m => some (pack 33#6 m a b (12#4 ++ c))
  | .vssub a b c m => some (pack 33#6 m a b (13#4 ++ c))
  | .vabsd a b c m => some (pack 33#6 m a b (14#4 ++ c))
  | .vaddS a b c m => some (pack 34#6 m a b (0#4 ++ c))
  | .vsubS a b c m => some (pack 34#6 m a b (1#4 ++ c))
  | .vrsubS a b c m => some (pack 34#6 m a b (2#4 ++ c))
  | .vmulS a b c m => some (pack 34#6 m a b (3#4 ++ c))
  | .vmulhS a b c m => some (pack 34#6 m a b (4#4 ++ c))
  | .vmulhuS a b c m => some (pack 34#6 m a b (5#4 ++ c))
  | .vmaccS a b c m => some (pack 34#6 m a b (6#4 ++ c))
  | .vnmsacS a b c m => some (pack 34#6 m a b (7#4 ++ c))
  | .vdivS a b c m => some (pack 34#6 m a b (8#4 ++ c))
  | .vdivuS a b c m => some (pack 34#6 m a b (9#4 ++ c))
  | .vremS a b c m => some (pack 34#6 m a b (10#4 ++ c))
  | .vremuS a b c m => some (pack 34#6 m a b (11#4 ++ c))
  | .vsaddS a b c m => some (pack 34#6 m a b (12#4 ++ c))
  | .vssubS a b c m => some (pack 34#6 m a b (13#4 ++ c))
  | .vabsdS a b c m => some (pack 34#6 m a b (14#4 ++ c))
  | .vand a b c m => some (pack 35#6 m a b (0#4 ++ c))
  | .vor a b c m => some (pack 35#6 m a b (1#4 ++ c))
  | .vxor a b c m => some (pack 35#6 m a b (2#4 ++ c))
  | .vandn a b c m => some (pack 35#6 m a b (3#4 ++ c))
  | .vshl a b c m => some (pack 35#6 m a b (4#4 ++ c))
  | .vshr a b c m => some (pack 35#6 m a b (5#4 ++ c))
  | .vsra a b c m => some (pack 35#6 m a b (6#4 ++ c))
  | .vmin a b c m => some (pack 35#6 m a b (7#4 ++ c))
  | .vmax a b c m => some (pack 35#6 m a b (8#4 ++ c))
  | .vminu a b c m => some (pack 35#6 m a b (9#4 ++ c))
  | .vmaxu a b c m => some (pack 35#6 m a b (10#4 ++ c))
  | .vsel a b c => some (pack 35#6 false a b (11#4 ++ c))
  | .vmov a c m => some (pack 35#6 m a 0 (12#4 ++ c))
  | .vandS a b c m => some (pack 36#6 m a b (0#4 ++ c))
  | .vorS a b c m => some (pack 36#6 m a b (1#4 ++ c))
  | .vxorS a b c m => some (pack 36#6 m a b (2#4 ++ c))
  | .vandnS a b c m => some (pack 36#6 m a b (3#4 ++ c))
  | .vshlS a b c m => some (pack 36#6 m a b (4#4 ++ c))
  | .vshrS a b c m => some (pack 36#6 m a b (5#4 ++ c))
  | .vsraS a b c m => some (pack 36#6 m a b (6#4 ++ c))
  | .vminS a b c m => some (pack 36#6 m a b (7#4 ++ c))
  | .vmaxS a b c m => some (pack 36#6 m a b (8#4 ++ c))
  | .vminuS a b c m => some (pack 36#6 m a b (9#4 ++ c))
  | .vmaxuS a b c m => some (pack 36#6 m a b (10#4 ++ c))
  | .vselS a b c => some (pack 36#6 false a b (11#4 ++ c))
  | .vmovS a c m => some (pack 36#6 m a 0 (12#4 ++ c))
  | .vaddi a b i m => some (pack 47#6 m a b (0#3 ++ i))
  | .vmuli a b i m => some (pack 47#6 m a b (1#3 ++ i))
  | .vshli a b i m => some (pack 47#6 m a b (2#3 ++ i))
  | .vshri a b i m => some (pack 47#6 m a b (3#3 ++ i))
  | .vsrai a b i m => some (pack 47#6 m a b (4#3 ++ i))
  | .vandi a b i m => some (pack 47#6 m a b (5#3 ++ i))
  | .vori a b i m => some (pack 47#6 m a b (6#3 ++ i))
  | .vli a i m => some (pack 47#6 m a 0 (7#3 ++ i))
  | .vfadd a b c m => some (pack 37#6 m a b (0#4 ++ c))
  | .vfsub a b c m => some (pack 37#6 m a b (1#4 ++ c))
  | .vfmul a b c m => some (pack 37#6 m a b (2#4 ++ c))
  | .vfma a b c m => some (pack 37#6 m a b (3#4 ++ c))
  | .vfms a b c m => some (pack 37#6 m a b (4#4 ++ c))
  | .vfnma a b c m => some (pack 37#6 m a b (5#4 ++ c))
  | .vfdiv a b c m => some (pack 37#6 m a b (6#4 ++ c))
  | .vfmin a b c m => some (pack 37#6 m a b (7#4 ++ c))
  | .vfmax a b c m => some (pack 37#6 m a b (8#4 ++ c))
  | .vfsgn a b c m => some (pack 37#6 m a b (9#4 ++ c))
  | .vfaddS a b c m => some (pack 38#6 m a b (0#4 ++ c))
  | .vfsubS a b c m => some (pack 38#6 m a b (1#4 ++ c))
  | .vfmulS a b c m => some (pack 38#6 m a b (2#4 ++ c))
  | .vfmaS a b c m => some (pack 38#6 m a b (3#4 ++ c))
  | .vfmsS a b c m => some (pack 38#6 m a b (4#4 ++ c))
  | .vfnmaS a b c m => some (pack 38#6 m a b (5#4 ++ c))
  | .vfdivS a b c m => some (pack 38#6 m a b (6#4 ++ c))
  | .vfminS a b c m => some (pack 38#6 m a b (7#4 ++ c))
  | .vfmaxS a b c m => some (pack 38#6 m a b (8#4 ++ c))
  | .vfsgnS a b c m => some (pack 38#6 m a b (9#4 ++ c))
  | .vfsqrt a b m => some (pack 39#6 m a b (0#4 ++ 0#7))
  | .vfrcp a b m => some (pack 39#6 m a b (1#4 ++ 0#7))
  | .vfrsq a b m => some (pack 39#6 m a b (2#4 ++ 0#7))
  | .vfexp2 a b m => some (pack 39#6 m a b (3#4 ++ 0#7))
  | .vflog2 a b m => some (pack 39#6 m a b (4#4 ++ 0#7))
  | .vfsin a b m => some (pack 39#6 m a b (5#4 ++ 0#7))
  | .vfcos a b m => some (pack 39#6 m a b (6#4 ++ 0#7))
  | .vftanh a b m => some (pack 39#6 m a b (7#4 ++ 0#7))
  | .vfsigm a b m => some (pack 39#6 m a b (8#4 ++ 0#7))
  | .vfabs a b m => some (pack 39#6 m a b (9#4 ++ 0#7))
  | .vfneg a b m => some (pack 39#6 m a b (10#4 ++ 0#7))
  | .vfclass a b m => some (pack 39#6 m a b (11#4 ++ 0#7))
  | .vfrnd a b m => some (pack 39#6 m a b (12#4 ++ 0#7))
  | .vcmpEq a b c m => some (pack 40#6 m a b (0#4 ++ c))
  | .vcmpNe a b c m => some (pack 40#6 m a b (1#4 ++ c))
  | .vcmpLt a b c m => some (pack 40#6 m a b (2#4 ++ c))
  | .vcmpGe a b c m => some (pack 40#6 m a b (3#4 ++ c))
  | .vcmpLtu a b c m => some (pack 40#6 m a b (4#4 ++ c))
  | .vcmpGeu a b c m => some (pack 40#6 m a b (5#4 ++ c))
  | .vcmpEqS a b c m => some (pack 41#6 m a b (0#4 ++ c))
  | .vcmpNeS a b c m => some (pack 41#6 m a b (1#4 ++ c))
  | .vcmpLtS a b c m => some (pack 41#6 m a b (2#4 ++ c))
  | .vcmpGeS a b c m => some (pack 41#6 m a b (3#4 ++ c))
  | .vcmpLtuS a b c m => some (pack 41#6 m a b (4#4 ++ c))
  | .vcmpGeuS a b c m => some (pack 41#6 m a b (5#4 ++ c))
  | .vfcmpEq a b c m => some (pack 42#6 m a b (0#4 ++ c))
  | .vfcmpNe a b c m => some (pack 42#6 m a b (1#4 ++ c))
  | .vfcmpLt a b c m => some (pack 42#6 m a b (2#4 ++ c))
  | .vfcmpLe a b c m => some (pack 42#6 m a b (3#4 ++ c))
  | .vfcmpUn a b c m => some (pack 42#6 m a b (4#4 ++ c))
  | .vfcmpOr a b c m => some (pack 42#6 m a b (5#4 ++ c))
  | .vcvt a b c m => some (pack 43#6 m a b (0#4 ++ (0#2 ++ c)))
  | .vcvtk a b c m => some (pack 43#6 m a b (1#4 ++ (0#2 ++ c)))
  | .vwid a b m => some (pack 43#6 m a b (2#4 ++ 0#7))
  | .vnar a b m => some (pack 43#6 m a b (3#4 ++ 0#7))
  | .vxchS a b c m => some (pack 44#6 m a b (0#4 ++ c))
  | .vxch a b c m => some (pack 44#6 m a b (1#4 ++ c))
  | .vslup a b c m => some (pack 44#6 m a b (2#4 ++ c))
  | .vsldn a b c m => some (pack 44#6 m a b (3#4 ++ c))
  | .vperm a b c m => some (pack 44#6 m a b (4#4 ++ c))
  | .vbcast a b c m => some (pack 44#6 m a b (5#4 ++ c))
  | .vextr a b c => some (pack 44#6 false a b (6#4 ++ c))
  | .vins a b c m => some (pack 44#6 m a b (7#4 ++ c))
  | .vcomp a b m => some (pack 44#6 m a b (8#4 ++ 0#7))
  | .vexpd a b m => some (pack 44#6 m a b (9#4 ++ 0#7))
  | .viota a m => some (pack 44#6 m a 0 (10#4 ++ 0#7))
  | .vrev a b m => some (pack 44#6 m a b (11#4 ++ 0#7))
  | .vrsum a b c m => some (pack 45#6 m a b (0#4 ++ c))
  | .vrmin a b c m => some (pack 45#6 m a b (1#4 ++ c))
  | .vrmax a b c m => some (pack 45#6 m a b (2#4 ++ c))
  | .vrminu a b c m => some (pack 45#6 m a b (3#4 ++ c))
  | .vrmaxu a b c m => some (pack 45#6 m a b (4#4 ++ c))
  | .vrand a b c m => some (pack 45#6 m a b (5#4 ++ c))
  | .vror a b c m => some (pack 45#6 m a b (6#4 ++ c))
  | .vrxor a b c m => some (pack 45#6 m a b (7#4 ++ c))
  | .vrfsum a b c m => some (pack 45#6 m a b (8#4 ++ c))
  | .vrfmin a b c m => some (pack 45#6 m a b (9#4 ++ c))
  | .vrfmax a b c m => some (pack 45#6 m a b (10#4 ++ c))
  | .vscanAdd a b c m => some (pack 45#6 m a b (11#4 ++ c))
  | .vfscanAdd a b c m => some (pack 45#6 m a b (12#4 ++ c))
  | .vscanlin a b c m => some (pack 45#6 m a b (13#4 ++ c))
  | .pand a b c => some (pack 46#6 false a b (0#4 ++ c))
  | .por a b c => some (pack 46#6 false a b (1#4 ++ c))
  | .pxor a b c => some (pack 46#6 false a b (2#4 ++ c))
  | .pandn a b c => some (pack 46#6 false a b (3#4 ++ c))
  | .pnot a b => some (pack 46#6 false a b (4#4 ++ 0#7))
  | .pset a => some (pack 46#6 false a 0 (5#4 ++ 0#7))
  | .pclr a => some (pack 46#6 false a 0 (6#4 ++ 0#7))
  | .pcnt a b => some (pack 46#6 false a b (7#4 ++ 0#7))
  | .pfirst a b => some (pack 46#6 false a b (8#4 ++ 0#7))
  | .pmov a b => some (pack 46#6 false a b (9#4 ++ 0#7))
  | .pfromv a b => some (pack 46#6 false a b (10#4 ++ 0#7))
  | .ptov a b => some (pack 46#6 false a b (11#4 ++ 0#7))
  | .vld a b m => some (pack 48#6 m a b (0#4 ++ 0#7))
  | .vldFf a b m => some (pack 48#6 m a b (1#4 ++ 0#7))
  | .vlds a b c m => some (pack 48#6 m a b (2#4 ++ c))
  | .vldsFf a b c m => some (pack 48#6 m a b (3#4 ++ c))
  | .vldg a b c m => some (pack 48#6 m a b (4#4 ++ c))
  | .vldx a b c m => some (pack 48#6 m a b (5#4 ++ c))
  | .vldxFf a b c m => some (pack 48#6 m a b (6#4 ++ c))
  | .vldb a b c m => some (pack 48#6 m a b (7#4 ++ c))
  | .vldbFf a b c m => some (pack 48#6 m a b (8#4 ++ c))
  | .vpfd b c => some (pack 48#6 false 0 b (9#4 ++ c))
  | .vst a b m => some (pack 49#6 m a b (0#4 ++ 0#7))
  | .vsts a b c m => some (pack 49#6 m a b (1#4 ++ c))
  | .vstg a b c m => some (pack 49#6 m a b (2#4 ++ c))
  | .vstx a b c m => some (pack 49#6 m a b (3#4 ++ c))
  | .vstb a b c m => some (pack 49#6 m a b (4#4 ++ (0#2 ++ c)))
  | .vamoadd a b c m => some (pack 50#6 m a b (0#4 ++ c))
  | .vamomin a b c m => some (pack 50#6 m a b (1#4 ++ c))
  | .vamomax a b c m => some (pack 50#6 m a b (2#4 ++ c))
  | .vamoswp a b c m => some (pack 50#6 m a b (3#4 ++ c))
  | .vamofadd a b c m => some (pack 50#6 m a b (4#4 ++ c))
  | .talloc a b c => some (pack 51#6 false a b (0#4 ++ c))
  | .tallocZ a b c => some (pack 51#6 false a b (1#4 ++ c))
  | .tfree b => some (pack 51#6 false 0 b (2#4 ++ 0#7))
  | .tstat a b c => some (pack 51#6 false a b (3#4 ++ c))
  | .tstatMask a b c => some (pack 51#6 false a b (4#4 ++ c))
  | .tldR a b c m => some (pack 51#6 m a b (5#4 ++ c))
  | .tldC a b c m => some (pack 51#6 m a b (6#4 ++ c))
  | .tstR a b c m => some (pack 51#6 m a b (7#4 ++ c))
  | .tstC a b c m => some (pack 51#6 m a b (8#4 ++ c))
  | .cpyin a b c => some (pack 52#6 false a b (0#4 ++ c))
  | .cpyg a b c => some (pack 52#6 false a b (1#4 ++ c))
  | .cpymc a b c => some (pack 52#6 false a b (2#4 ++ c))
  | .cpyout a b c => some (pack 52#6 false a b (3#4 ++ c))
  | .cwait b => some (pack 52#6 false 0 b (4#4 ++ 0#7))
  | .sbind a b c => some (pack 53#6 false a b (0#4 ++ c))
  | .sunbind a => some (pack 53#6 false a 0 (1#4 ++ 0#7))
  | .sstat a b => some (pack 53#6 false a b (2#4 ++ 0#7))
  | .sstatMask a b => some (pack 53#6 false a b (3#4 ++ 0#7))
  | .kld a b c => some (pack 54#6 false a b (0#4 ++ c))
  | .kst a b c => some (pack 54#6 false a b (1#4 ++ c))
  | .kmov a b => some (pack 54#6 false a b (2#4 ++ 0#7))
  | .kset a b => some (pack 54#6 false a b (3#4 ++ 0#7))
  | .tshape a b c => some (pack 55#6 false a b (0#4 ++ c))
  | .mzero a => some (pack 55#6 false a 0 (1#4 ++ 0#7))
  | .mldop a b c => some (pack 55#6 false a b (2#4 ++ c))
  | .mldopFf a b c => some (pack 55#6 false a b (3#4 ++ c))
  | .mxoa b c n f => some (pack 55#6 false (0#2 ++ f) b ((1#2 ++ n) ++ c))
  | .mxos b c n f => some (pack 55#6 false (0#2 ++ f) b ((2#2 ++ n) ++ c))
  | .mlda a b c => some (pack 55#6 false a b (12#4 ++ c))
  | .msta a b c => some (pack 55#6 false a b (13#4 ++ c))
  | .mrd a b => some (pack 55#6 false a b (14#4 ++ 0#7))
  | .mwr a b => some (pack 55#6 false a b (15#4 ++ 0#7))
  | .smmul a b c m => some (pack 56#6 m a b (0#4 ++ c))
  | .smmult a b c m => some (pack 56#6 m a b (1#4 ++ c))
  | .smchol a b m => some (pack 56#6 m a b (2#4 ++ 0#7))
  | .smlup a b c m => some (pack 56#6 m a b (3#4 ++ c))
  | .smsolc a b m => some (pack 56#6 m a b (4#4 ++ 0#7))
  | .smsolp a b c m => some (pack 56#6 m a b (5#4 ++ c))
  | .smtran a b m => some (pack 56#6 m a b (6#4 ++ 0#7))
  | .chcfg b => some (pack 57#6 false 0 b (0#4 ++ 0#7))
  | .chend => some (pack 57#6 false 0 0 (1#4 ++ 0#7))
  | .chrun b c => some (pack 57#6 false 0 b (2#4 ++ c))
  | .chwait => some (pack 57#6 false 0 0 (3#4 ++ 0#7))
  | .chstat a b => some (pack 57#6 false a b (4#4 ++ 0#7))
  | .chsave b => some (pack 57#6 false 0 b (5#4 ++ 0#7))
  | .chload b => some (pack 57#6 false 0 b (6#4 ++ 0#7))
  | .chdrop => some (pack 57#6 false 0 0 (7#4 ++ 0#7))
  | .turn a b c m => some (pack 57#6 m a b (8#4 ++ c))
  | .link b => some (pack 57#6 false 0 b (9#4 ++ 0#7))
  | .qpush a b => some (pack 58#6 false a b (0#4 ++ 0#7))
  | .qpop a b => some (pack 58#6 false a b (1#4 ++ 0#7))
  | .qspace a b => some (pack 58#6 false a b (2#4 ++ 0#7))
  | .qcnt a b => some (pack 58#6 false a b (3#4 ++ 0#7))
  | .qclr a => some (pack 58#6 false a 0 (4#4 ++ 0#7))
  | .book a b => some (pack 59#6 false a b (0#4 ++ 0#7))
  | .bkqry a b => some (pack 59#6 false a b (1#4 ++ 0#7))
  | .bkrel => some (pack 59#6 false 0 0 (2#4 ++ 0#7))
  | .bkwait => some (pack 59#6 false 0 0 (3#4 ++ 0#7))
  | .srscfg b => some (pack 60#6 false 0 b (0#4 ++ 0#7))
  | .srsstep => some (pack 60#6 false 0 0 (1#4 ++ 0#7))
  | .srsmap a b => some (pack 60#6 false a b (2#4 ++ 0#7))
  | .srsclr => some (pack 60#6 false 0 0 (3#4 ++ 0#7))
  | .srssig b => some (pack 60#6 false 0 b (4#4 ++ 0#7))
  | .barw b => some (pack 61#6 false 0 b (0#4 ++ 0#7))
  | .signal b c => some (pack 61#6 false 0 b (1#4 ++ c))
  | .waitv b c => some (pack 61#6 false 0 b (2#4 ++ c))
  | .qcmd a b c => some (pack 61#6 false a b (8#4 ++ c))
  | .tdone => some (pack 61#6 false 0 0 (9#4 ++ 0#7))
  | .dsig b => some (pack 61#6 false 0 b (10#4 ++ 0#7))
  | .captureWord _ => none
  | .tailWrite _ _ _ _ => none
  | .queueSwapIn _ => none
  | .hostWindowRead _ _ _ => none
  | .hostWindowWrite _ _ _ => none
  | .hostCompletion _ _ _ => none
  | .registerWrite _ _ _ _ _ => none
  | .ctxnew _ _ _ _ _ _ _ => none
  | .ctxdel _ _ => none
  | .preempt _ _ => none
  | .resume _ _ _ => none
  | .abort _ _ => none
  | .qclrCommand _ _ => none
  | .qrange _ _ _ _ => none
  | .qbind _ _ _ _ => none
  | .frq _ _ _ => none
  | .trace _ _ _ => none
  | .grant _ _ _ => none
  | .unlock _ _ => none
  | .attest _ _ _ => none
  | .pcap _ _ _ => none
  | .window _ _ _ => none
  | .irqmap _ _ _ _ => none
  | .smrd _ _ => none
  | .smwr _ _ _ => none
  | .commandCompletion _ => none
  | .verd _ _ => none
  | .invb _ _ => none
  | .invalidationComplete _ => none
  | .headWrite _ _ => none
  | .powerOn => none
  | .bringUpComplete _ => none
  | .coldReset => none
  | .scrub => none
  | .quantumBoundary => none
  | .bookedStart _ => none
  | .bookingEnd _ => none
  | .bookSearchEnd _ => none
  | .overrun _ => none
  | .snapshotTrigger => none
  | .lockstepMismatch _ _ _ _ _ => none
  | .traceSample _ => none
  | .laneCountExpiry _ _ => none
  | .traceGrantExpiry _ => none
  | .debugRelease _ => none
  | .laneGrant _ => none
  | .laneReclamation _ => none
  | .chainPlacementTimeout _ => none
  | .chainNodeFire _ _ => none
  | .chainRunComplete _ => none
  | .yieldTimeout _ => none
  | .waitvReread _ => none
  | .copyTransferComplete _ _ _ => none
  | .engineAccessFault _ => none
  | .nopRecord _ => none
  | .launchRecord _ => none
  | .barrierRecord _ => none
  | .signalRecord _ => none
  | .waitvalRecord _ => none
  | .copyRecord _ => none
  | .copyRecordComplete _ _ => none
  | .bookRecord _ => none
  | .fenceRecord _ => none
  | .flockDispatch => none
  | .readyAgeExpiry => none
  | .bookedFlockStart _ => none
  | .flockCompletion _ => none
  | .rdmaWriteIn _ _ _ => none
  | .rdmaReadIn _ _ _ => none
  | .rdmaSendIn _ _ => none
  | .rdmaAck _ _ => none
  | .congestionNotification _ => none
  | .nonInstructionWord _ => none
  | .instructionFetchFault => none
  | .rdmaReadResponse _ _ _ => none
  | .queuePairError _ => none

/-- The checks of R102 on the word of a row: the fields it names too high, p0 as a destination (`Instr.wf` on the word). -/
def Row.wf (r : Row) (w : BitVec 32) : Bool :=
  match r with
  | .fence => decide ((hiScope (fHi w)).toNat < 6)
  | .srd | .swr => assignedSr (cb (fHi w) (fB w)).toNat
  | .vcmpEq | .vcmpNe | .vcmpLt | .vcmpGe | .vcmpLtu | .vcmpGeu | .vcmpEqS | .vcmpNeS => writesPred (fA w)
  | .vcmpLtS | .vcmpGeS | .vcmpLtuS | .vcmpGeuS | .vfcmpEq | .vfcmpNe | .vfcmpLt | .vfcmpLe => writesPred (fA w)
  | .vfcmpUn | .vfcmpOr | .pset | .pclr | .pfromv | .tstatMask | .sstatMask => writesPred (fA w)
  | .vxch => decide ((hiC (fHi w)).toNat < 15)
  | .pand | .por | .pxor | .pandn => writesPred (fA w) && isPred (fB w) && isPred (hiC (fHi w))
  | .pnot | .pmov => writesPred (fA w) && isPred (fB w)
  | .pcnt | .pfirst | .ptov => isPred (fB w)
  | .vldg | .vstg => decide (2 ≤ (hiC (fHi w)).toNat) && decide ((hiC (fHi w)).toNat ≤ 8)
  | .vldb | .vldbFf => writesPred (hiC (fHi w))
  | .kld | .kst | .kset => isScale (fA w)
  | .kmov => isScale (fA w) && isScale (fB w)
  | .mzero | .mlda | .msta | .mwr => isAcc (fA w)
  | .mrd => isAcc (fB w)
  | .qpush | .qclr => isQueue (fA w)
  | .qpop | .qspace | .qcnt => isQueue (fB w)
  | _ => true

/-- The fields of a row's word that name vector registers, for REP: bit 2 a, bit 1 b, bit 0 c (R154, R155). -/
def Row.vecFields (r : Row) : BitVec 3 :=
  match r with
  | .vmovS | .vli | .vins | .viota | .ptov | .vld | .vldFf | .vlds => 4
  | .vldsFf | .vldg | .vldb | .vldbFf | .vst | .vsts | .vstg | .vstb => 4
  | .tldR | .tldC | .tstR | .tstC | .sbind | .sunbind | .mldop | .mldopFf => 4
  | .mrd | .qpop => 4
  | .vaddS | .vsubS | .vrsubS | .vmulS | .vmulhS | .vmulhuS | .vmaccS | .vnmsacS => 6
  | .vdivS | .vdivuS | .vremS | .vremuS | .vsaddS | .vssubS | .vabsdS | .vandS => 6
  | .vorS | .vxorS | .vandnS | .vshlS | .vshrS | .vsraS | .vminS | .vmaxS => 6
  | .vminuS | .vmaxuS | .vselS | .vaddi | .vmuli | .vshli | .vshri | .vsrai => 6
  | .vandi | .vori | .vfaddS | .vfsubS | .vfmulS | .vfmaS | .vfmsS | .vfnmaS => 6
  | .vfdivS | .vfminS | .vfmaxS | .vfsgnS | .vfsqrt | .vfrcp | .vfrsq | .vfexp2 => 6
  | .vflog2 | .vfsin | .vfcos | .vftanh | .vfsigm | .vfabs | .vfneg | .vfclass => 6
  | .vfrnd | .vcvt | .vcvtk | .vwid | .vnar | .vxchS | .vxch | .vslup => 6
  | .vsldn | .vbcast | .vcomp | .vexpd | .vrev | .smchol | .smsolc | .smtran => 6
  | .vadd | .vsub | .vrsub | .vmul | .vmulh | .vmulhu | .vmacc | .vnmsac => 7
  | .vdiv | .vdivu | .vrem | .vremu | .vsadd | .vssub | .vabsd | .vand => 7
  | .vor | .vxor | .vandn | .vshl | .vshr | .vsra | .vmin | .vmax => 7
  | .vminu | .vmaxu | .vsel | .vfadd | .vfsub | .vfmul | .vfma | .vfms => 7
  | .vfnma | .vfdiv | .vfmin | .vfmax | .vfsgn | .vperm | .vrsum | .vrmin => 7
  | .vrmax | .vrminu | .vrmaxu | .vrand | .vror | .vrxor | .vrfsum | .vrfmin => 7
  | .vrfmax | .vscanAdd | .vfscanAdd | .vscanlin | .smmul | .smmult | .smlup | .smsolp => 7
  | .vmov | .vldx | .vldxFf | .vstx | .vamoadd | .vamomin | .vamomax | .vamoswp => 5
  | .vamofadd => 5
  | .vcmpEqS | .vcmpNeS | .vcmpLtS | .vcmpGeS | .vcmpLtuS | .vcmpGeuS | .vextr | .pfromv => 2
  | .sstat | .sstatMask | .mwr | .qpush => 2
  | .vcmpEq | .vcmpNe | .vcmpLt | .vcmpGe | .vcmpLtu | .vcmpGeu | .vfcmpEq | .vfcmpNe => 3
  | .vfcmpLt | .vfcmpLe | .vfcmpUn | .vfcmpOr | .mxoa | .mxos => 3
  | _ => 0

/-- Whether the instruction of a row writes the g register in field a (R155). -/
def Row.writesG (r : Row) : Bool :=
  match r with
  | .add | .sub | .mul | .mulh | .mulhu | .mulhsu | .div | .divu => true
  | .rem | .remu | .and | .or | .xor | .andn | .orn | .shl => true
  | .shr | .sra | .ror | .slt | .sltu | .min | .max | .minu => true
  | .maxu | .clz | .ctz | .popc | .exts | .extz | .bswp | .selnz => true
  | .addi | .andi | .ori | .xori | .slti | .sltiu | .shli | .shri => true
  | .srai | .li | .lih | .adpc | .ldb | .ldbz | .ldh | .ldhz => true
  | .ldw | .ldwz | .ldd | .amoswp | .amoadd | .amoand | .amoor | .amoxor => true
  | .amomin | .amomax | .amominu | .amomaxu | .amocas | .setvl | .setvty | .settl => true
  | .getg | .vextr | .pcnt | .pfirst | .talloc | .tallocZ | .tstat | .cpyin => true
  | .cpyg | .cpymc | .cpyout | .sstat | .tshape | .chstat | .qspace | .qcnt => true
  | .book | .bkqry | .srsmap | .qcmd => true
  | _ => false

/-- The instruction of a row, with its operands read from the fields of the word. -/
noncomputable def Row.instr (r : Row) (w : BitVec 32) : Instr :=
  match r with
  | .add => .add (fA w) (fB w) (hiC (fHi w))
  | .sub => .sub (fA w) (fB w) (hiC (fHi w))
  | .mul => .mul (fA w) (fB w) (hiC (fHi w))
  | .mulh => .mulh (fA w) (fB w) (hiC (fHi w))
  | .mulhu => .mulhu (fA w) (fB w) (hiC (fHi w))
  | .mulhsu => .mulhsu (fA w) (fB w) (hiC (fHi w))
  | .div => .div (fA w) (fB w) (hiC (fHi w))
  | .divu => .divu (fA w) (fB w) (hiC (fHi w))
  | .rem => .rem (fA w) (fB w) (hiC (fHi w))
  | .remu => .remu (fA w) (fB w) (hiC (fHi w))
  | .and => .and (fA w) (fB w) (hiC (fHi w))
  | .or => .or (fA w) (fB w) (hiC (fHi w))
  | .xor => .xor (fA w) (fB w) (hiC (fHi w))
  | .andn => .andn (fA w) (fB w) (hiC (fHi w))
  | .orn => .orn (fA w) (fB w) (hiC (fHi w))
  | .shl => .shl (fA w) (fB w) (hiC (fHi w))
  | .shr => .shr (fA w) (fB w) (hiC (fHi w))
  | .sra => .sra (fA w) (fB w) (hiC (fHi w))
  | .ror => .ror (fA w) (fB w) (hiC (fHi w))
  | .slt => .slt (fA w) (fB w) (hiC (fHi w))
  | .sltu => .sltu (fA w) (fB w) (hiC (fHi w))
  | .min => .min (fA w) (fB w) (hiC (fHi w))
  | .max => .max (fA w) (fB w) (hiC (fHi w))
  | .minu => .minu (fA w) (fB w) (hiC (fHi w))
  | .maxu => .maxu (fA w) (fB w) (hiC (fHi w))
  | .clz => .clz (fA w) (fB w)
  | .ctz => .ctz (fA w) (fB w)
  | .popc => .popc (fA w) (fB w)
  | .exts => .exts (fA w) (fB w) (hiC (fHi w))
  | .extz => .extz (fA w) (fB w) (hiC (fHi w))
  | .bswp => .bswp (fA w) (fB w)
  | .selnz => .selnz (fA w) (fB w) (hiC (fHi w))
  | .addi => .addi (fA w) (fB w) (fHi w)
  | .andi => .andi (fA w) (fB w) (fHi w)
  | .ori => .ori (fA w) (fB w) (fHi w)
  | .xori => .xori (fA w) (fB w) (fHi w)
  | .slti => .slti (fA w) (fB w) (fHi w)
  | .sltiu => .sltiu (fA w) (fB w) (fHi w)
  | .shli => .shli (fA w) (fB w) (hiLow6 (fHi w))
  | .shri => .shri (fA w) (fB w) (hiLow6 (fHi w))
  | .srai => .srai (fA w) (fB w) (hiLow6 (fHi w))
  | .li => .li (fA w) (imm18 (fHi w) (fB w))
  | .lih => .lih (fA w) (imm18 (fHi w) (fB w))
  | .adpc => .adpc (fA w) (imm18 (fHi w) (fB w))
  | .jal => .jal (fA w) (imm18 (fHi w) (fB w))
  | .jalr => .jalr (fA w) (fB w) (fHi w)
  | .beq => .beq (fA w) (fB w) (fHi w)
  | .bne => .bne (fA w) (fB w) (fHi w)
  | .blt => .blt (fA w) (fB w) (fHi w)
  | .bge => .bge (fA w) (fB w) (fHi w)
  | .bltu => .bltu (fA w) (fB w) (fHi w)
  | .bgeu => .bgeu (fA w) (fB w) (fHi w)
  | .ldb => .ldb (fA w) (fB w) (fHi w)
  | .ldbz => .ldbz (fA w) (fB w) (fHi w)
  | .ldh => .ldh (fA w) (fB w) (fHi w)
  | .ldhz => .ldhz (fA w) (fB w) (fHi w)
  | .ldw => .ldw (fA w) (fB w) (fHi w)
  | .ldwz => .ldwz (fA w) (fB w) (fHi w)
  | .ldd => .ldd (fA w) (fB w) (fHi w)
  | .stb => .stb (fA w) (fB w) (fHi w)
  | .sth => .sth (fA w) (fB w) (fHi w)
  | .stw => .stw (fA w) (fB w) (fHi w)
  | .std => .std (fA w) (fB w) (fHi w)
  | .amoswp => .amoswp (fA w) (fB w) (hiC (fHi w)) (fX w)
  | .amoadd => .amoadd (fA w) (fB w) (hiC (fHi w)) (fX w)
  | .amoand => .amoand (fA w) (fB w) (hiC (fHi w)) (fX w)
  | .amoor => .amoor (fA w) (fB w) (hiC (fHi w)) (fX w)
  | .amoxor => .amoxor (fA w) (fB w) (hiC (fHi w)) (fX w)
  | .amomin => .amomin (fA w) (fB w) (hiC (fHi w)) (fX w)
  | .amomax => .amomax (fA w) (fB w) (hiC (fHi w)) (fX w)
  | .amominu => .amominu (fA w) (fB w) (hiC (fHi w)) (fX w)
  | .amomaxu => .amomaxu (fA w) (fB w) (hiC (fHi w)) (fX w)
  | .amocas => .amocas (fA w) (fB w) (hiC (fHi w)) (fX w)
  | .fence => .fence (hiOrder (fHi w)) (hiScope (fHi w))
  | .nop => .nop 
  | .trap => .trap (cb (fHi w) (fB w))
  | .eret => .eret 
  | .brk => .brk (cb (fHi w) (fB w))
  | .svc => .svc (cb (fHi w) (fB w))
  | .wait => .wait (fB w)
  | .yield => .yield 
  | .srd => .srd (fA w) (cb (fHi w) (fB w))
  | .swr => .swr (fA w) (cb (fHi w) (fB w))
  | .winb => .winb (fB w)
  | .rep => .rep (fB w) (hiC (fHi w)) (low3 (fA w))
  | .exit => .exit 
  | .setvl => .setvl (fA w) (fB w)
  | .setvty => .setvty (fA w) (fB w)
  | .settl => .settl (fA w) (fB w)
  | .getg => .getg (fA w)
  | .vadd => .vadd (fA w) (fB w) (hiC (fHi w)) (fX w)
  | .vsub => .vsub (fA w) (fB w) (hiC (fHi w)) (fX w)
  | .vrsub => .vrsub (fA w) (fB w) (hiC (fHi w)) (fX w)
  | .vmul => .vmul (fA w) (fB w) (hiC (fHi w)) (fX w)
  | .vmulh => .vmulh (fA w) (fB w) (hiC (fHi w)) (fX w)
  | .vmulhu => .vmulhu (fA w) (fB w) (hiC (fHi w)) (fX w)
  | .vmacc => .vmacc (fA w) (fB w) (hiC (fHi w)) (fX w)
  | .vnmsac => .vnmsac (fA w) (fB w) (hiC (fHi w)) (fX w)
  | .vdiv => .vdiv (fA w) (fB w) (hiC (fHi w)) (fX w)
  | .vdivu => .vdivu (fA w) (fB w) (hiC (fHi w)) (fX w)
  | .vrem => .vrem (fA w) (fB w) (hiC (fHi w)) (fX w)
  | .vremu => .vremu (fA w) (fB w) (hiC (fHi w)) (fX w)
  | .vsadd => .vsadd (fA w) (fB w) (hiC (fHi w)) (fX w)
  | .vssub => .vssub (fA w) (fB w) (hiC (fHi w)) (fX w)
  | .vabsd => .vabsd (fA w) (fB w) (hiC (fHi w)) (fX w)
  | .vaddS => .vaddS (fA w) (fB w) (hiC (fHi w)) (fX w)
  | .vsubS => .vsubS (fA w) (fB w) (hiC (fHi w)) (fX w)
  | .vrsubS => .vrsubS (fA w) (fB w) (hiC (fHi w)) (fX w)
  | .vmulS => .vmulS (fA w) (fB w) (hiC (fHi w)) (fX w)
  | .vmulhS => .vmulhS (fA w) (fB w) (hiC (fHi w)) (fX w)
  | .vmulhuS => .vmulhuS (fA w) (fB w) (hiC (fHi w)) (fX w)
  | .vmaccS => .vmaccS (fA w) (fB w) (hiC (fHi w)) (fX w)
  | .vnmsacS => .vnmsacS (fA w) (fB w) (hiC (fHi w)) (fX w)
  | .vdivS => .vdivS (fA w) (fB w) (hiC (fHi w)) (fX w)
  | .vdivuS => .vdivuS (fA w) (fB w) (hiC (fHi w)) (fX w)
  | .vremS => .vremS (fA w) (fB w) (hiC (fHi w)) (fX w)
  | .vremuS => .vremuS (fA w) (fB w) (hiC (fHi w)) (fX w)
  | .vsaddS => .vsaddS (fA w) (fB w) (hiC (fHi w)) (fX w)
  | .vssubS => .vssubS (fA w) (fB w) (hiC (fHi w)) (fX w)
  | .vabsdS => .vabsdS (fA w) (fB w) (hiC (fHi w)) (fX w)
  | .vand => .vand (fA w) (fB w) (hiC (fHi w)) (fX w)
  | .vor => .vor (fA w) (fB w) (hiC (fHi w)) (fX w)
  | .vxor => .vxor (fA w) (fB w) (hiC (fHi w)) (fX w)
  | .vandn => .vandn (fA w) (fB w) (hiC (fHi w)) (fX w)
  | .vshl => .vshl (fA w) (fB w) (hiC (fHi w)) (fX w)
  | .vshr => .vshr (fA w) (fB w) (hiC (fHi w)) (fX w)
  | .vsra => .vsra (fA w) (fB w) (hiC (fHi w)) (fX w)
  | .vmin => .vmin (fA w) (fB w) (hiC (fHi w)) (fX w)
  | .vmax => .vmax (fA w) (fB w) (hiC (fHi w)) (fX w)
  | .vminu => .vminu (fA w) (fB w) (hiC (fHi w)) (fX w)
  | .vmaxu => .vmaxu (fA w) (fB w) (hiC (fHi w)) (fX w)
  | .vsel => .vsel (fA w) (fB w) (hiC (fHi w))
  | .vmov => .vmov (fA w) (hiC (fHi w)) (fX w)
  | .vandS => .vandS (fA w) (fB w) (hiC (fHi w)) (fX w)
  | .vorS => .vorS (fA w) (fB w) (hiC (fHi w)) (fX w)
  | .vxorS => .vxorS (fA w) (fB w) (hiC (fHi w)) (fX w)
  | .vandnS => .vandnS (fA w) (fB w) (hiC (fHi w)) (fX w)
  | .vshlS => .vshlS (fA w) (fB w) (hiC (fHi w)) (fX w)
  | .vshrS => .vshrS (fA w) (fB w) (hiC (fHi w)) (fX w)
  | .vsraS => .vsraS (fA w) (fB w) (hiC (fHi w)) (fX w)
  | .vminS => .vminS (fA w) (fB w) (hiC (fHi w)) (fX w)
  | .vmaxS => .vmaxS (fA w) (fB w) (hiC (fHi w)) (fX w)
  | .vminuS => .vminuS (fA w) (fB w) (hiC (fHi w)) (fX w)
  | .vmaxuS => .vmaxuS (fA w) (fB w) (hiC (fHi w)) (fX w)
  | .vselS => .vselS (fA w) (fB w) (hiC (fHi w))
  | .vmovS => .vmovS (fA w) (hiC (fHi w)) (fX w)
  | .vaddi => .vaddi (fA w) (fB w) (hiLow8 (fHi w)) (fX w)
  | .vmuli => .vmuli (fA w) (fB w) (hiLow8 (fHi w)) (fX w)
  | .vshli => .vshli (fA w) (fB w) (hiLow8 (fHi w)) (fX w)
  | .vshri => .vshri (fA w) (fB w) (hiLow8 (fHi w)) (fX w)
  | .vsrai => .vsrai (fA w) (fB w) (hiLow8 (fHi w)) (fX w)
  | .vandi => .vandi (fA w) (fB w) (hiLow8 (fHi w)) (fX w)
  | .vori => .vori (fA w) (fB w) (hiLow8 (fHi w)) (fX w)
  | .vli => .vli (fA w) (hiLow8 (fHi w)) (fX w)
  | .vfadd => .vfadd (fA w) (fB w) (hiC (fHi w)) (fX w)
  | .vfsub => .vfsub (fA w) (fB w) (hiC (fHi w)) (fX w)
  | .vfmul => .vfmul (fA w) (fB w) (hiC (fHi w)) (fX w)
  | .vfma => .vfma (fA w) (fB w) (hiC (fHi w)) (fX w)
  | .vfms => .vfms (fA w) (fB w) (hiC (fHi w)) (fX w)
  | .vfnma => .vfnma (fA w) (fB w) (hiC (fHi w)) (fX w)
  | .vfdiv => .vfdiv (fA w) (fB w) (hiC (fHi w)) (fX w)
  | .vfmin => .vfmin (fA w) (fB w) (hiC (fHi w)) (fX w)
  | .vfmax => .vfmax (fA w) (fB w) (hiC (fHi w)) (fX w)
  | .vfsgn => .vfsgn (fA w) (fB w) (hiC (fHi w)) (fX w)
  | .vfaddS => .vfaddS (fA w) (fB w) (hiC (fHi w)) (fX w)
  | .vfsubS => .vfsubS (fA w) (fB w) (hiC (fHi w)) (fX w)
  | .vfmulS => .vfmulS (fA w) (fB w) (hiC (fHi w)) (fX w)
  | .vfmaS => .vfmaS (fA w) (fB w) (hiC (fHi w)) (fX w)
  | .vfmsS => .vfmsS (fA w) (fB w) (hiC (fHi w)) (fX w)
  | .vfnmaS => .vfnmaS (fA w) (fB w) (hiC (fHi w)) (fX w)
  | .vfdivS => .vfdivS (fA w) (fB w) (hiC (fHi w)) (fX w)
  | .vfminS => .vfminS (fA w) (fB w) (hiC (fHi w)) (fX w)
  | .vfmaxS => .vfmaxS (fA w) (fB w) (hiC (fHi w)) (fX w)
  | .vfsgnS => .vfsgnS (fA w) (fB w) (hiC (fHi w)) (fX w)
  | .vfsqrt => .vfsqrt (fA w) (fB w) (fX w)
  | .vfrcp => .vfrcp (fA w) (fB w) (fX w)
  | .vfrsq => .vfrsq (fA w) (fB w) (fX w)
  | .vfexp2 => .vfexp2 (fA w) (fB w) (fX w)
  | .vflog2 => .vflog2 (fA w) (fB w) (fX w)
  | .vfsin => .vfsin (fA w) (fB w) (fX w)
  | .vfcos => .vfcos (fA w) (fB w) (fX w)
  | .vftanh => .vftanh (fA w) (fB w) (fX w)
  | .vfsigm => .vfsigm (fA w) (fB w) (fX w)
  | .vfabs => .vfabs (fA w) (fB w) (fX w)
  | .vfneg => .vfneg (fA w) (fB w) (fX w)
  | .vfclass => .vfclass (fA w) (fB w) (fX w)
  | .vfrnd => .vfrnd (fA w) (fB w) (fX w)
  | .vcmpEq => .vcmpEq (fA w) (fB w) (hiC (fHi w)) (fX w)
  | .vcmpNe => .vcmpNe (fA w) (fB w) (hiC (fHi w)) (fX w)
  | .vcmpLt => .vcmpLt (fA w) (fB w) (hiC (fHi w)) (fX w)
  | .vcmpGe => .vcmpGe (fA w) (fB w) (hiC (fHi w)) (fX w)
  | .vcmpLtu => .vcmpLtu (fA w) (fB w) (hiC (fHi w)) (fX w)
  | .vcmpGeu => .vcmpGeu (fA w) (fB w) (hiC (fHi w)) (fX w)
  | .vcmpEqS => .vcmpEqS (fA w) (fB w) (hiC (fHi w)) (fX w)
  | .vcmpNeS => .vcmpNeS (fA w) (fB w) (hiC (fHi w)) (fX w)
  | .vcmpLtS => .vcmpLtS (fA w) (fB w) (hiC (fHi w)) (fX w)
  | .vcmpGeS => .vcmpGeS (fA w) (fB w) (hiC (fHi w)) (fX w)
  | .vcmpLtuS => .vcmpLtuS (fA w) (fB w) (hiC (fHi w)) (fX w)
  | .vcmpGeuS => .vcmpGeuS (fA w) (fB w) (hiC (fHi w)) (fX w)
  | .vfcmpEq => .vfcmpEq (fA w) (fB w) (hiC (fHi w)) (fX w)
  | .vfcmpNe => .vfcmpNe (fA w) (fB w) (hiC (fHi w)) (fX w)
  | .vfcmpLt => .vfcmpLt (fA w) (fB w) (hiC (fHi w)) (fX w)
  | .vfcmpLe => .vfcmpLe (fA w) (fB w) (hiC (fHi w)) (fX w)
  | .vfcmpUn => .vfcmpUn (fA w) (fB w) (hiC (fHi w)) (fX w)
  | .vfcmpOr => .vfcmpOr (fA w) (fB w) (hiC (fHi w)) (fX w)
  | .vcvt => .vcvt (fA w) (fB w) (low5 (hiC (fHi w))) (fX w)
  | .vcvtk => .vcvtk (fA w) (fB w) (low5 (hiC (fHi w))) (fX w)
  | .vwid => .vwid (fA w) (fB w) (fX w)
  | .vnar => .vnar (fA w) (fB w) (fX w)
  | .vxchS => .vxchS (fA w) (fB w) (hiC (fHi w)) (fX w)
  | .vxch => .vxch (fA w) (fB w) (hiC (fHi w)) (fX w)
  | .vslup => .vslup (fA w) (fB w) (hiC (fHi w)) (fX w)
  | .vsldn => .vsldn (fA w) (fB w) (hiC (fHi w)) (fX w)
  | .vperm => .vperm (fA w) (fB w) (hiC (fHi w)) (fX w)
  | .vbcast => .vbcast (fA w) (fB w) (hiC (fHi w)) (fX w)
  | .vextr => .vextr (fA w) (fB w) (hiC (fHi w))
  | .vins => .vins (fA w) (fB w) (hiC (fHi w)) (fX w)
  | .vcomp => .vcomp (fA w) (fB w) (fX w)
  | .vexpd => .vexpd (fA w) (fB w) (fX w)
  | .viota => .viota (fA w) (fX w)
  | .vrev => .vrev (fA w) (fB w) (fX w)
  | .vrsum => .vrsum (fA w) (fB w) (hiC (fHi w)) (fX w)
  | .vrmin => .vrmin (fA w) (fB w) (hiC (fHi w)) (fX w)
  | .vrmax => .vrmax (fA w) (fB w) (hiC (fHi w)) (fX w)
  | .vrminu => .vrminu (fA w) (fB w) (hiC (fHi w)) (fX w)
  | .vrmaxu => .vrmaxu (fA w) (fB w) (hiC (fHi w)) (fX w)
  | .vrand => .vrand (fA w) (fB w) (hiC (fHi w)) (fX w)
  | .vror => .vror (fA w) (fB w) (hiC (fHi w)) (fX w)
  | .vrxor => .vrxor (fA w) (fB w) (hiC (fHi w)) (fX w)
  | .vrfsum => .vrfsum (fA w) (fB w) (hiC (fHi w)) (fX w)
  | .vrfmin => .vrfmin (fA w) (fB w) (hiC (fHi w)) (fX w)
  | .vrfmax => .vrfmax (fA w) (fB w) (hiC (fHi w)) (fX w)
  | .vscanAdd => .vscanAdd (fA w) (fB w) (hiC (fHi w)) (fX w)
  | .vfscanAdd => .vfscanAdd (fA w) (fB w) (hiC (fHi w)) (fX w)
  | .vscanlin => .vscanlin (fA w) (fB w) (hiC (fHi w)) (fX w)
  | .pand => .pand (fA w) (fB w) (hiC (fHi w))
  | .por => .por (fA w) (fB w) (hiC (fHi w))
  | .pxor => .pxor (fA w) (fB w) (hiC (fHi w))
  | .pandn => .pandn (fA w) (fB w) (hiC (fHi w))
  | .pnot => .pnot (fA w) (fB w)
  | .pset => .pset (fA w)
  | .pclr => .pclr (fA w)
  | .pcnt => .pcnt (fA w) (fB w)
  | .pfirst => .pfirst (fA w) (fB w)
  | .pmov => .pmov (fA w) (fB w)
  | .pfromv => .pfromv (fA w) (fB w)
  | .ptov => .ptov (fA w) (fB w)
  | .vld => .vld (fA w) (fB w) (fX w)
  | .vldFf => .vldFf (fA w) (fB w) (fX w)
  | .vlds => .vlds (fA w) (fB w) (hiC (fHi w)) (fX w)
  | .vldsFf => .vldsFf (fA w) (fB w) (hiC (fHi w)) (fX w)
  | .vldg => .vldg (fA w) (fB w) (hiC (fHi w)) (fX w)
  | .vldx => .vldx (fA w) (fB w) (hiC (fHi w)) (fX w)
  | .vldxFf => .vldxFf (fA w) (fB w) (hiC (fHi w)) (fX w)
  | .vldb => .vldb (fA w) (fB w) (hiC (fHi w)) (fX w)
  | .vldbFf => .vldbFf (fA w) (fB w) (hiC (fHi w)) (fX w)
  | .vpfd => .vpfd (fB w) (hiC (fHi w))
  | .vst => .vst (fA w) (fB w) (fX w)
  | .vsts => .vsts (fA w) (fB w) (hiC (fHi w)) (fX w)
  | .vstg => .vstg (fA w) (fB w) (hiC (fHi w)) (fX w)
  | .vstx => .vstx (fA w) (fB w) (hiC (fHi w)) (fX w)
  | .vstb => .vstb (fA w) (fB w) (low5 (hiC (fHi w))) (fX w)
  | .vamoadd => .vamoadd (fA w) (fB w) (hiC (fHi w)) (fX w)
  | .vamomin => .vamomin (fA w) (fB w) (hiC (fHi w)) (fX w)
  | .vamomax => .vamomax (fA w) (fB w) (hiC (fHi w)) (fX w)
  | .vamoswp => .vamoswp (fA w) (fB w) (hiC (fHi w)) (fX w)
  | .vamofadd => .vamofadd (fA w) (fB w) (hiC (fHi w)) (fX w)
  | .talloc => .talloc (fA w) (fB w) (hiC (fHi w))
  | .tallocZ => .tallocZ (fA w) (fB w) (hiC (fHi w))
  | .tfree => .tfree (fB w)
  | .tstat => .tstat (fA w) (fB w) (hiC (fHi w))
  | .tstatMask => .tstatMask (fA w) (fB w) (hiC (fHi w))
  | .tldR => .tldR (fA w) (fB w) (hiC (fHi w)) (fX w)
  | .tldC => .tldC (fA w) (fB w) (hiC (fHi w)) (fX w)
  | .tstR => .tstR (fA w) (fB w) (hiC (fHi w)) (fX w)
  | .tstC => .tstC (fA w) (fB w) (hiC (fHi w)) (fX w)
  | .cpyin => .cpyin (fA w) (fB w) (hiC (fHi w))
  | .cpyg => .cpyg (fA w) (fB w) (hiC (fHi w))
  | .cpymc => .cpymc (fA w) (fB w) (hiC (fHi w))
  | .cpyout => .cpyout (fA w) (fB w) (hiC (fHi w))
  | .cwait => .cwait (fB w)
  | .sbind => .sbind (fA w) (fB w) (hiC (fHi w))
  | .sunbind => .sunbind (fA w)
  | .sstat => .sstat (fA w) (fB w)
  | .sstatMask => .sstatMask (fA w) (fB w)
  | .kld => .kld (fA w) (fB w) (hiC (fHi w))
  | .kst => .kst (fA w) (fB w) (hiC (fHi w))
  | .kmov => .kmov (fA w) (fB w)
  | .kset => .kset (fA w) (fB w)
  | .tshape => .tshape (fA w) (fB w) (hiC (fHi w))
  | .mzero => .mzero (fA w)
  | .mldop => .mldop (fA w) (fB w) (hiC (fHi w))
  | .mldopFf => .mldopFf (fA w) (fB w) (hiC (fHi w))
  | .mxoa => .mxoa (fB w) (hiC (fHi w)) (fnLow (hiFn (fHi w))) (low5 (fA w))
  | .mxos => .mxos (fB w) (hiC (fHi w)) (fnLow (hiFn (fHi w))) (low5 (fA w))
  | .mlda => .mlda (fA w) (fB w) (hiC (fHi w))
  | .msta => .msta (fA w) (fB w) (hiC (fHi w))
  | .mrd => .mrd (fA w) (fB w)
  | .mwr => .mwr (fA w) (fB w)
  | .smmul => .smmul (fA w) (fB w) (hiC (fHi w)) (fX w)
  | .smmult => .smmult (fA w) (fB w) (hiC (fHi w)) (fX w)
  | .smchol => .smchol (fA w) (fB w) (fX w)
  | .smlup => .smlup (fA w) (fB w) (hiC (fHi w)) (fX w)
  | .smsolc => .smsolc (fA w) (fB w) (fX w)
  | .smsolp => .smsolp (fA w) (fB w) (hiC (fHi w)) (fX w)
  | .smtran => .smtran (fA w) (fB w) (fX w)
  | .chcfg => .chcfg (fB w)
  | .chend => .chend 
  | .chrun => .chrun (fB w) (hiC (fHi w))
  | .chwait => .chwait 
  | .chstat => .chstat (fA w) (fB w)
  | .chsave => .chsave (fB w)
  | .chload => .chload (fB w)
  | .chdrop => .chdrop 
  | .turn => .turn (fA w) (fB w) (hiC (fHi w)) (fX w)
  | .link => .link (fB w)
  | .qpush => .qpush (fA w) (fB w)
  | .qpop => .qpop (fA w) (fB w)
  | .qspace => .qspace (fA w) (fB w)
  | .qcnt => .qcnt (fA w) (fB w)
  | .qclr => .qclr (fA w)
  | .book => .book (fA w) (fB w)
  | .bkqry => .bkqry (fA w) (fB w)
  | .bkrel => .bkrel 
  | .bkwait => .bkwait 
  | .srscfg => .srscfg (fB w)
  | .srsstep => .srsstep 
  | .srsmap => .srsmap (fA w) (fB w)
  | .srsclr => .srsclr 
  | .srssig => .srssig (fB w)
  | .barw => .barw (fB w)
  | .signal => .signal (fB w) (hiC (fHi w))
  | .waitv => .waitv (fB w) (hiC (fHi w))
  | .qcmd => .qcmd (fA w) (fB w) (hiC (fHi w))
  | .tdone => .tdone 
  | .dsig => .dsig (fB w)

/-- The instruction of a word, or why it is none (R100 to R102). The compiler cannot build a value of a type with so many
constructors, so running code works with the row and the word; this is what the statements speak of. -/
noncomputable def decode (w : BitVec 32) : Except Reject Instr := (decodeRow w).map (fun r => r.instr w)

/-- Decode the first word of a list of bytes; none when fewer than four bytes are left. -/
noncomputable def decodeBytes (l : List Byte) : Option (Except Reject Instr × List Byte) :=
  match l with
  | b0 :: b1 :: b2 :: b3 :: rest => some (decode (wordOfBytes b0 b1 b2 b3), rest)
  | _ => none

/-- What the decoder reads from the 32 bits the opcode table numbers; any other length is no instruction. -/
noncomputable def decodeTableWord (nbits w : Nat) : Option Instr :=
  if nbits = 32 then
    match decode (BitVec.ofNat 32 w) with
    | .ok i => some i
    | .error _ => none
  else none

end Sys2Proof
end

