-- ==== Sys2Proof/Config.lean ====
section
/-! DEFINITION. The free values of the model: constants without a body, so that no proof can see what they are.
Each stands for a value the spec leaves open; the assumption log names it. -/
namespace Sys2Proof.Config

/-- The code a special function of R183 returns for (function number, format code, input code). Used only where it
lies within the bound of R183; otherwise the correctly rounded value stands (log 8). -/
opaque specialFunction : Nat → Nat → Nat → Nat

/-- SHA-384 of a list of bytes: an external standard the spec names without defining it (log 10). -/
opaque sha384 : List Byte → BitVec 384

/-- Whether a P-384 signature (third argument) over the bytes (second) verifies under a key (first) (log 10). -/
opaque p384Verify : List Byte → List Byte → List Byte → Bool

/-- The device attestation key's signature over a report, 96 bytes long when read (log 10). -/
opaque attestSign : Nat → List Byte → Nat → Byte

/-- Hokuilanen's debug key (R449), which the spec names without giving it (log 10). -/
opaque debugKey : List Byte

/-- What a byte written under one key number reads as through a mapping of another: key written under, key read
under, physical address, byte (R445; log 11). -/
opaque cipherByte : Nat → Nat → Nat → Byte → Byte

/-- The boot measurement of the firmware (R443): the digest is not given by the spec (log 10). -/
opaque bootMeasurement : BitVec 384

/-- Bit i of the SSTAT mask of a stream whose row nothing has popped or pushed, at a cycle: R230 and R231 give the mask only after a pop
or push (log 72). -/
opaque unmovedMask : Nat → Nat → Bool

/-- The state summary that a block (second argument) latched at a snapshot trigger: R428 does not say what it holds (log 39). -/
opaque stateSummary : Nat → Nat → Word

end Sys2Proof.Config
end

