-- ==== Sys2Proof/Machine/Number.lean ====
section
/-! DEFINITION. Number formats and exact arithmetic: format codes (R60), the value of a code (R63 to R66), one rounding
(R71 to R74), conversions (R78 to R82). Codes are natural numbers below 2^w. -/
namespace Sys2Proof.Machine

/-- Format codes of R60; a code from 0x11 to 0x1F is reserved. -/
inductive Fmt where
  | ill | i8 | n8 | i16 | n16 | i32 | n32 | i64 | n64 | f16 | bf16 | f32 | f64 | h8 | g8 | i4 | i4x | reserved
  deriving DecidableEq, Repr

/-- The format a 5-bit code names (R60). -/
def Fmt.ofCode (c : Nat) : Fmt :=
  match c with
  | 0 => .ill | 1 => .i8 | 2 => .n8 | 3 => .i16 | 4 => .n16 | 5 => .i32 | 6 => .n32 | 7 => .i64 | 8 => .n64
  | 9 => .f16 | 10 => .bf16 | 11 => .f32 | 12 => .f64 | 13 => .h8 | 14 => .g8 | 15 => .i4 | 16 => .i4x
  | _ => .reserved

/-- The code of a format (R60); a reserved one has no single code, 0x1F stands for it. -/
def Fmt.code (f : Fmt) : Nat :=
  match f with
  | .ill => 0 | .i8 => 1 | .n8 => 2 | .i16 => 3 | .n16 => 4 | .i32 => 5 | .n32 => 6 | .i64 => 7 | .n64 => 8
  | .f16 => 9 | .bf16 => 10 | .f32 => 11 | .f64 => 12 | .h8 => 13 | .g8 => 14 | .i4 => 15 | .i4x => 16
  | .reserved => 31

/-- Element width in bits (R60); 0 for ILL and reserved codes, which have none. -/
def Fmt.width (f : Fmt) : Nat :=
  match f with
  | .i8 | .n8 | .h8 | .g8 => 8
  | .i16 | .n16 | .f16 | .bf16 => 16
  | .i32 | .n32 | .f32 => 32
  | .i64 | .n64 | .f64 => 64
  | .i4 | .i4x => 4
  | .ill | .reserved => 0

/-- A legal format: any code from 0x01 to 0x10. -/
def Fmt.legal (f : Fmt) : Bool := f != .ill && f != .reserved

/-- The signed integer formats, I4 among them (R60). -/
def Fmt.signed (f : Fmt) : Bool :=
  match f with
  | .i8 | .i16 | .i32 | .i64 | .i4 => true
  | _ => false

/-- The eight integer formats of R166's first row. -/
def Fmt.isInt8 (f : Fmt) : Bool :=
  match f with
  | .i8 | .n8 | .i16 | .n16 | .i32 | .n32 | .i64 | .n64 => true
  | _ => false

/-- Any integer format, I4 included (R60). -/
def Fmt.isInt (f : Fmt) : Bool := f.isInt8 || f == .i4

/-- F16, BF16, F32, F64. -/
def Fmt.isIeee (f : Fmt) : Bool :=
  match f with
  | .f16 | .bf16 | .f32 | .f64 => true
  | _ => false

/-- A floating-point format: the four above, H8, G8 and I4X (R66: I4X counts as one). -/
def Fmt.isFloat (f : Fmt) : Bool := f.isIeee || f == .h8 || f == .g8 || f == .i4x

/-- The parameters of a floating-point format (R63). `tiny8` marks H8 and G8, which have neither infinities nor −0. -/
structure FloatPar where
  ebits : Nat
  fbits : Nat
  bias : Nat
  tiny8 : Bool
  deriving DecidableEq, Repr

/-- R63's table; for every other format the parameters of F32 (they are not consulted there). -/
def Fmt.par (f : Fmt) : FloatPar :=
  match f with
  | .f16 => ⟨5, 10, 15, false⟩
  | .bf16 => ⟨8, 7, 127, false⟩
  | .f64 => ⟨11, 52, 1023, false⟩
  | .h8 => ⟨4, 3, 8, true⟩
  | .g8 => ⟨5, 2, 16, true⟩
  | _ => ⟨8, 23, 127, false⟩

/-- Flag sets: FEF's layout, bit 0 NV, 1 DZ, 2 OF, 3 UF, 4 NX, 5 FE, 6 DN (R76). -/
abbrev FlagSet := BitVec 7

def flNone : FlagSet := 0
def flNV : FlagSet := 1
def flDZ : FlagSet := 2
def flOF : FlagSet := 4
def flUF : FlagSet := 8
def flNX : FlagSet := 16
def flFE : FlagSet := 32
def flDN : FlagSet := 64

/-- A value: not a number, an infinity, or (−1)^neg × mant × 2^exp (R63). -/
inductive Value where
  | nan
  | inf (neg : Bool)
  | fin (neg : Bool) (mant : Nat) (exp : Int)
  deriving DecidableEq, Repr

/-- 2^n for a natural n. -/
def pow2 (n : Nat) : Nat := 2 ^ n

/-- The bits of a code, low n. -/
def lowBits (c n : Nat) : Nat := c % pow2 n

/-- A code read as a two's-complement number of w bits (R62). -/
def toSigned (w c : Nat) : Int :=
  if w = 0 then 0 else if lowBits c w ≥ pow2 (w - 1) then (lowBits c w : Int) - (pow2 w : Int) else (lowBits c w : Int)

/-- An exact integer reduced modulo 2^w (R62). -/
def wrapTo (w : Nat) (x : Int) : Nat := (x % (pow2 w : Int)).toNat

/-- The integer an element of a format stands for: signed for I formats, unsigned for N formats (R62, R174's k). -/
def Fmt.intOf (f : Fmt) (c : Nat) : Int :=
  if f.signed then toSigned f.width c else (lowBits c f.width : Int)

/-- Smallest and largest value of an integer format (R62); I4 holds −8 to 7. -/
def Fmt.minInt (f : Fmt) : Int := if f.signed then -((pow2 (f.width - 1) : Nat) : Int) else 0
def Fmt.maxInt (f : Fmt) : Int :=
  if f.signed then ((pow2 (f.width - 1) : Nat) : Int) - 1 else ((pow2 f.width : Nat) : Int) - 1

/-- x clamped to the range of an integer format (R82, R174). -/
def Fmt.clamp (f : Fmt) (x : Int) : Int := if x < f.minInt then f.minInt else if x > f.maxInt then f.maxInt else x

/-- Sign, exponent field and fraction field of a floating-point code. -/
def fieldSign (p : FloatPar) (c : Nat) : Bool := (c / pow2 (p.ebits + p.fbits)) % 2 == 1
def fieldExp (p : FloatPar) (c : Nat) : Nat := (c / pow2 p.fbits) % pow2 p.ebits
def fieldFrac (p : FloatPar) (c : Nat) : Nat := c % pow2 p.fbits

/-- The NaN codes of a format (R63, R64). -/
def isNaNCode (f : Fmt) (c : Nat) : Bool :=
  let p := f.par
  if p.tiny8 then c == 0x80
  else fieldExp p c == pow2 p.ebits - 1 && fieldFrac p c != 0

/-- A signalling NaN: most significant fraction bit 0 (R64). H8 and G8 have none. -/
def isSNaNCode (f : Fmt) (c : Nat) : Bool :=
  let p := f.par
  isNaNCode f c && !p.tiny8 && (c / pow2 (p.fbits - 1)) % 2 == 0

/-- The value of a floating-point code (R63). -/
def floatValue (f : Fmt) (c : Nat) : Value :=
  let p := f.par
  let s := fieldSign p c
  let e := fieldExp p c
  let fr := fieldFrac p c
  if isNaNCode f c then .nan
  else if !p.tiny8 && e == pow2 p.ebits - 1 then .inf s
  else if e == 0 then .fin s fr (1 - (p.bias : Int) - (p.fbits : Int))
  else .fin s (pow2 p.fbits + fr) ((e : Int) - (p.bias : Int) - (p.fbits : Int))

/-- A subnormal code: exponent field 0, fraction not 0 (R63, R76). -/
def isSubnormalCode (f : Fmt) (c : Nat) : Bool :=
  let p := f.par
  fieldExp p c == 0 && fieldFrac p c != 0 && !isNaNCode f c

/-- The default NaN of a format (R64). -/
def defaultNaN (f : Fmt) : Nat :=
  match f with
  | .f16 => 0x7E00
  | .bf16 => 0x7FC0
  | .f32 => 0x7FC00000
  | .f64 => 0x7FF8000000000000
  | _ => 0x80

/-- A NaN code with its most significant fraction bit set (R75). -/
def quietCode (f : Fmt) (c : Nat) : Nat :=
  if f.isIeee then c ||| pow2 (f.par.fbits - 1) else 0x80

/-- The code of a signed infinity; in H8 and G8 the largest finite value of that sign (R72). -/
def infCode (f : Fmt) (neg : Bool) : Nat :=
  let p := f.par
  let mag := if p.tiny8 then pow2 (p.ebits + p.fbits) - 1 else (pow2 p.ebits - 1) * pow2 p.fbits
  if neg then mag + pow2 (p.ebits + p.fbits) else mag

/-- The code of the largest finite value of a sign (R63). -/
def largestCode (f : Fmt) (neg : Bool) : Nat :=
  let p := f.par
  let mag := if p.tiny8 then pow2 (p.ebits + p.fbits) - 1 else (pow2 p.ebits - 1) * pow2 p.fbits - 1
  if neg then mag + pow2 (p.ebits + p.fbits) else mag

/-- The code of a signed zero; 0x00 in H8 and G8 (R64, R74). -/
def zeroCode (f : Fmt) (neg : Bool) : Nat :=
  let p := f.par
  if neg && !p.tiny8 then pow2 (p.ebits + p.fbits) else 0

/-- Rounding modes of VTY.RM: 0 RNE, 1 RTZ, 2 RDN, 3 RUP, 4 RNA (R71). -/
def rmRNE : Nat := 0
def rmRTZ : Nat := 1
def rmRDN : Nat := 2
def rmRUP : Nat := 3
def rmRNA : Nat := 4

/-- Whether a magnitude q + r/2^s (0 ≤ r < 2^s, s > 0) rounds up under rm, for a value of sign neg (R71). -/
def roundsUp (rm : Nat) (neg : Bool) (q r s : Nat) : Bool :=
  if r = 0 then false
  else if rm = rmRTZ then false
  else if rm = rmRDN then neg
  else if rm = rmRUP then !neg
  else if rm = rmRNA then decide (2 * r ≥ pow2 s)
  else decide (2 * r > pow2 s) || (decide (2 * r = pow2 s) && q % 2 == 1)

/-- A magnitude m × 2^e divided by 2^s with one rounding: the rounded quotient, and whether it was inexact. -/
def roundShift (rm : Nat) (neg : Bool) (m s : Nat) : Nat × Bool :=
  if s = 0 then (m, false)
  else
    let q := m / pow2 s
    let r := m % pow2 s
    ((if roundsUp rm neg q r s then q + 1 else q), r != 0)

/-- What an overflow returns (R72). -/
def overflowCode (f : Fmt) (rm : Nat) (neg : Bool) : Nat :=
  if f.par.tiny8 then largestCode f neg
  else if rm = rmRTZ then largestCode f neg
  else if rm = rmRDN then (if neg then infCode f true else largestCode f false)
  else if rm = rmRUP then (if neg then largestCode f true else infCode f false)
  else infCode f neg

/-- round(x, fmt, rm) of the exact value (−1)^neg × m × 2^e with m > 0 (R71 to R73): the code and the flags it raises. -/
def roundMag (f : Fmt) (rm : Nat) (neg : Bool) (m : Nat) (e : Int) : Nat × FlagSet :=
  let p := f.par
  let signBit := if neg then pow2 (p.ebits + p.fbits) else 0
  -- rounded with an unbounded exponent
  let len := m.log2 + 1
  let s := len - (p.fbits + 1)
  let up := p.fbits + 1 - len
  let (q0, inex) := roundShift rm neg (m * pow2 up) s
  let carry := decide (q0 ≥ pow2 (p.fbits + 1))
  let q := if carry then q0 / 2 else q0
  let el : Int := e + (s : Int) - (up : Int) + (if carry then 1 else 0)
  let biased : Int := el + (p.fbits : Int) + (p.bias : Int)
  let top : Int := if p.tiny8 then ((pow2 p.ebits : Nat) : Int) - 1 else ((pow2 p.ebits : Nat) : Int) - 2
  if biased > top then (overflowCode f rm neg, flOF ||| flNX)
  else if biased ≥ 1 then
    (signBit + biased.toNat * pow2 p.fbits + (q - pow2 p.fbits), if inex then flNX else flNone)
  else
    -- tiny after rounding: round to the subnormal grid
    let eminl : Int := 1 - (p.bias : Int) - (p.fbits : Int)
    let sh : Int := eminl - e
    let (qs, inexs) :=
      if sh ≤ 0 then (m * pow2 (-sh).toNat, false) else roundShift rm neg m sh.toNat
    let code := if qs = 0 then zeroCode f neg else signBit + qs
    (code, if inexs then flUF ||| flNX else flNone)

/-- Whether the exact value m × 2^e with m > 0, or its negative, rounds under rm with an unbounded exponent to less than the smallest
normal magnitude (R73). -/
def tinyMag (f : Fmt) (rm : Nat) (neg : Bool) (m : Nat) (e : Int) : Bool :=
  let p := f.par
  let len := m.log2 + 1
  let s := len - (p.fbits + 1)
  let up := p.fbits + 1 - len
  let q := (roundShift rm neg (m * pow2 up) s).1
  decide (e + (s : Int) - (up : Int) + (if q ≥ pow2 (p.fbits + 1) then 1 else 0) + (p.fbits : Int) + (p.bias : Int) < 1)

/-- The sign of an exact zero sum: `signs` are the signs of its terms (R74). -/
def zeroSumNeg (rm : Nat) (signs : List Bool) : Bool :=
  if signs.all id && !signs.isEmpty then true
  else if signs.all (fun b => !b) then false
  else rm = rmRDN

/-- Round an exact signed value M × 2^e; a zero takes the sign given. -/
def roundInt (f : Fmt) (rm : Nat) (M : Int) (e : Int) (zeroNeg : Bool) : Nat × FlagSet :=
  if M = 0 then (zeroCode f zeroNeg, flNone) else roundMag f rm (M < 0) M.natAbs e

/-- An exact sum of two dyadic numbers. -/
def dyAdd (a b : Int × Int) : Int × Int :=
  let e := if a.2 ≤ b.2 then a.2 else b.2
  (a.1 * ((pow2 (a.2 - e).toNat : Nat) : Int) + b.1 * ((pow2 (b.2 - e).toNat : Nat) : Int), e)

/-- A finite value as a signed dyadic number. -/
def signedOf (neg : Bool) (m : Nat) : Int := if neg then -(m : Int) else (m : Int)

/-- Three-way comparison of dyadic numbers: a < b. -/
def dyLt (a b : Int × Int) : Bool := (dyAdd a (-b.1, b.2)).1 < 0
def dyEq (a b : Int × Int) : Bool := (dyAdd a (-b.1, b.2)).1 = 0

/-- An operand as an arithmetic instruction reads it: its value, the NaN it would propagate in the result format,
whether it signals, whether it is subnormal (R75, R76). -/
structure Operand where
  val : Value
  nan : Nat
  snan : Bool
  sub : Bool
  deriving DecidableEq, Repr

/-- A NaN of one format carried into another (R79): sign and quiet bit kept, fraction aligned at the top. -/
def convertNaN (src dst : Fmt) (c : Nat) : Nat :=
  if !dst.isIeee then 0x80
  else if !src.isIeee then defaultNaN dst
  else
    let ps := src.par
    let pd := dst.par
    let fr := fieldFrac ps c
    let fr' := if pd.fbits ≥ ps.fbits then fr * pow2 (pd.fbits - ps.fbits) else fr / pow2 (ps.fbits - pd.fbits)
    let fr'' := if fr' = 0 then 1 else fr'
    (if fieldSign ps c then pow2 (pd.ebits + pd.fbits) else 0) + (pow2 pd.ebits - 1) * pow2 pd.fbits + fr''

/-- Read a floating-point code as an operand of an operation whose result format is `dst` (R75). -/
def floatOperand (src dst : Fmt) (c : Nat) : Operand :=
  { val := floatValue src c
    nan := if isNaNCode src c then quietCode dst (convertNaN src dst c) else defaultNaN dst
    snan := isSNaNCode src c
    sub := isSubnormalCode src c }

/-- An operand multiplied exactly by the scale entry E, 2^(E−127); 0xFF makes it the default NaN (R70). -/
def Operand.scale (o : Operand) (dst : Fmt) (E : Nat) : Operand :=
  if E = 0xFF then { o with val := .nan, nan := defaultNaN dst }
  else match o.val with
    | .fin s m e => { o with val := .fin s m (e + (E : Int) - 127) }
    | _ => o

/-- The flags an arithmetic instruction raises by reading its operands (R76). -/
def inputFlags (os : List Operand) : FlagSet :=
  (if os.any (·.snan) then flNV else flNone) ||| (if os.any (·.sub) then flDN else flNone)

def Value.isNaN : Value → Bool
  | .nan => true
  | _ => false

def Value.isInf : Value → Bool
  | .inf _ => true
  | _ => false

def Value.isZero : Value → Bool
  | .fin _ m _ => m = 0
  | _ => false

def Value.neg : Value → Bool
  | .nan => false
  | .inf s => s
  | .fin s _ _ => s

/-- The value with its sign inverted. -/
def Value.negate : Value → Value
  | .nan => .nan
  | .inf s => .inf (!s)
  | .fin s m e => .fin (!s) m e

def Operand.negate (o : Operand) : Operand := { o with val := o.val.negate }

/-- An exact product of two values neither of which is NaN; none for 0 × ∞. -/
def mulValue (a b : Value) : Option Value :=
  match a, b with
  | .fin s m e, .fin t n k => some (.fin (s != t) (m * n) (e + k))
  | .inf s, v => if v.isZero then none else some (.inf (s != v.neg))
  | v, .inf t => if v.isZero then none else some (.inf (v.neg != t))
  | .nan, _ => some .nan
  | _, .nan => some .nan

/-- The first NaN among operands in operand order (R75). -/
def firstNaN (os : List Operand) : Option Nat := (os.find? (fun o => o.val.isNaN)).map (·.nan)

/-- The sum of terms (none of them NaN), rounded once (R71, R74, R84 steps 3 to 5). -/
def sumTerms (f : Fmt) (rm : Nat) (ts : List Value) : Nat × FlagSet :=
  let posInf := ts.any (fun v => v == .inf false)
  let negInf := ts.any (fun v => v == .inf true)
  if posInf && negInf then (defaultNaN f, flNV)
  else if posInf then (infCode f false, flNone)
  else if negInf then (infCode f true, flNone)
  else
    let d := ts.foldl (fun acc v => match v with
      | .fin s m e => dyAdd acc (signedOf s m, e)
      | _ => acc) ((0 : Int), (0 : Int))
    roundInt f rm d.1 d.2 (zeroSumNeg rm (ts.map (·.neg)))

/-- The single operation of R84: the sum of addends and exact products, in operand order `os`.
Products are pairs; a product 0 × ∞ gives the default NaN with NV even beside a NaN. -/
def sumOfProducts (f : Fmt) (rm : Nat) (addends : List Operand) (prods : List (Operand × Operand))
    (os : List Operand) : Nat × FlagSet :=
  let ifl := inputFlags os
  let ps := prods.map (fun p => if p.1.val.isNaN || p.2.val.isNaN then some Value.nan else mulValue p.1.val p.2.val)
  if ps.any (fun v => v.isNone) then (defaultNaN f, ifl ||| flNV)
  else match firstNaN os with
    | some n => (n, ifl)
    | none =>
      let (c, fl) := sumTerms f rm (addends.map (·.val) ++ ps.filterMap id)
      (c, ifl ||| fl)

/-- b + c under R180 and R71 to R76. -/
def fAdd (f : Fmt) (rm : Nat) (b c : Operand) : Nat × FlagSet := sumOfProducts f rm [b, c] [] [b, c]

/-- b − c. The subtrahend enters with its sign inverted; a NaN keeps its own sign (R75). -/
def fSub (f : Fmt) (rm : Nat) (b c : Operand) : Nat × FlagSet := sumOfProducts f rm [b, c.negate] [] [b, c]

/-- b × c: a single product, whose sign is the product's also when it is zero. -/
def fMul (f : Fmt) (rm : Nat) (b c : Operand) : Nat × FlagSet := sumOfProducts f rm [] [(b, c)] [b, c]

/-- b × c + d, one rounding; operand order b, c, d (R180). -/
def fFma (f : Fmt) (rm : Nat) (b c d : Operand) : Nat × FlagSet := sumOfProducts f rm [d] [(b, c)] [b, c, d]

/-- b × c − d. -/
def fFms (f : Fmt) (rm : Nat) (b c d : Operand) : Nat × FlagSet := sumOfProducts f rm [d.negate] [(b, c)] [b, c, d]

/-- d − b × c. -/
def fFnma (f : Fmt) (rm : Nat) (b c d : Operand) : Nat × FlagSet :=
  sumOfProducts f rm [d] [(b.negate, c)] [b, c, d]

/-- Round the exact quotient (−1)^neg × (m × 2^e) ÷ (n × 2^k), m and n not zero. -/
def roundQuot (f : Fmt) (rm : Nat) (neg : Bool) (m : Nat) (e : Int) (n : Nat) (k : Int) : Nat × FlagSet :=
  let extra := n.log2 + 1 + f.par.fbits + 4
  let num := m * pow2 extra
  let q := num / n
  let sticky := num % n != 0
  roundMag f rm neg (2 * q + (if sticky then 1 else 0)) (e - k - (extra : Int) - 1)

/-- b ÷ c (R180, R76). -/
def fDiv (f : Fmt) (rm : Nat) (b c : Operand) : Nat × FlagSet :=
  let ifl := inputFlags [b, c]
  match firstNaN [b, c] with
  | some n => (n, ifl)
  | none =>
    let neg := b.val.neg != c.val.neg
    match b.val, c.val with
    | .inf _, .inf _ => (defaultNaN f, ifl ||| flNV)
    | .inf _, _ => (infCode f neg, ifl)
    | _, .inf _ => (zeroCode f neg, ifl)
    | .fin _ m e, .fin _ n k =>
      if n = 0 then
        if m = 0 then (defaultNaN f, ifl ||| flNV) else (infCode f neg, ifl ||| flDZ)
      else if m = 0 then (zeroCode f neg, ifl)
      else let r := roundQuot f rm neg m e n k; (r.1, ifl ||| r.2)
    | _, _ => (defaultNaN f, ifl)

/-- Integer square root, one bit a step from bit `fuel` down. -/
def isqrtAux (fuel n r : Nat) : Nat :=
  match fuel with
  | 0 => r
  | k + 1 => let t := r + pow2 k; isqrtAux k n (if t * t ≤ n then t else r)

def isqrt (n : Nat) : Nat := isqrtAux (n.log2 / 2 + 1) n 0

/-- Round √(m × 2^e), m > 0. -/
def roundSqrt (f : Fmt) (rm : Nat) (m : Nat) (e : Int) : Nat × FlagSet :=
  let extra := 2 * (f.par.fbits + 4)
  let sh := if (e - (extra : Int)) % 2 = 0 then extra else extra + 1
  let M := m * pow2 sh
  let E := (e - (sh : Int)) / 2
  let r := isqrt M
  roundMag f rm false (2 * r + (if r * r = M then 0 else 1)) (E - 1)

/-- √b (R182 fn 0, R184). -/
def fSqrt (f : Fmt) (rm : Nat) (b : Operand) : Nat × FlagSet :=
  let ifl := inputFlags [b]
  match b.val with
  | .nan => (b.nan, ifl)
  | .inf true => (defaultNaN f, ifl ||| flNV)
  | .inf false => (infCode f false, ifl)
  | .fin s m e =>
    if m = 0 then (zeroCode f s, ifl)
    else if s then (defaultNaN f, ifl ||| flNV)
    else let r := roundSqrt f rm m e; (r.1, ifl ||| r.2)

/-- A finite value as a dyadic number; 0 otherwise. -/
def Value.dy : Value → Int × Int
  | .fin s m e => (signedOf s m, e)
  | _ => (0, 0)

/-- a < b by value with −0 < +0 (R181). Neither is NaN. -/
def ltSigned (a b : Value) : Bool :=
  match a, b with
  | .inf s, .inf t => s && !t
  | .inf s, _ => s
  | _, .inf t => !t
  | _, _ =>
    if dyEq a.dy b.dy then a.isZero && a.neg && !b.neg else dyLt a.dy b.dy

/-- a < b, −0 equal to +0 (R187). -/
def ltValue (a b : Value) : Bool :=
  match a, b with
  | .inf s, .inf t => s && !t
  | .inf s, _ => s
  | _, .inf t => !t
  | _, _ => dyLt a.dy b.dy

/-- a = b, −0 equal to +0 (R187). -/
def eqValue (a b : Value) : Bool :=
  match a, b with
  | .nan, _ => false
  | _, .nan => false
  | .inf s, .inf t => s == t
  | .inf _, _ => false
  | _, .inf _ => false
  | _, _ => dyEq a.dy b.dy

/-- Which operand VFMIN or VFMAX takes: true for the second (R181; both NaN, or equal: the first). -/
def minMaxSecond (isMax : Bool) (b c : Value) : Bool :=
  if b.isNaN then !c.isNaN
  else if c.isNaN then false
  else if isMax then ltSigned b c else ltSigned c b

/-- Round a value of any kind into a format: NaN and infinities as they are (R72 for H8 and G8). -/
def roundValue (f : Fmt) (rm : Nat) (nan : Nat) (v : Value) : Nat × FlagSet :=
  match v with
  | .nan => (nan, flNone)
  | .inf s => if f.par.tiny8 then (largestCode f s, flOF ||| flNX) else (infCode f s, flNone)
  | .fin s m e => if m = 0 then (zeroCode f s, flNone) else roundMag f rm s m e

/-! ### Conversions (R78 to R82) -/

/-- The integer nearest to a finite value under rm, and whether it differs (R81). -/
def roundToInt (rm : Nat) (neg : Bool) (m : Nat) (e : Int) : Int × Bool :=
  if e ≥ 0 then (signedOf neg (m * pow2 e.toNat), false)
  else let (q, inex) := roundShift rm neg m (-e).toNat; (signedOf neg q, inex)

/-- A value converted into an integer format (R81): NaN gives 0 and NV; out of range the nearest bound and NV. -/
def valueToInt (dst : Fmt) (rm : Nat) (v : Value) : Nat × FlagSet :=
  match v with
  | .nan => (0, flNV)
  | .inf s => (wrapTo dst.width (if s then dst.minInt else dst.maxInt), flNV)
  | .fin s m e =>
    let (x, inex) := roundToInt rm s m e
    if x < dst.minInt then (wrapTo dst.width dst.minInt, flNV)
    else if x > dst.maxInt then (wrapTo dst.width dst.maxInt, flNV)
    else (wrapTo dst.width x, if inex then flNX else flNone)

/-- An integer converted into a floating-point format (R81). -/
def intToFloat (dst : Fmt) (rm : Nat) (x : Int) : Nat × FlagSet := roundInt dst rm x 0 false

/-- An integer-to-integer conversion (R82). -/
def intToInt (dst : Fmt) (sat : Bool) (x : Int) : Nat := wrapTo dst.width (if sat then dst.clamp x else x)

/-- A floating-point code converted into another floating-point format (R78, R79): no DN, no NV, NaN not quieted. -/
def floatToFloat (src dst : Fmt) (rm : Nat) (c : Nat) : Nat × FlagSet :=
  if isNaNCode src c then (convertNaN src dst c, flNone) else roundValue dst rm 0 (floatValue src c)

/-! ### I4X (R66) -/

/-- A decoded I4X slot: its value, and whether FE is raised there. -/
structure Slot where
  val : Value
  fe : Bool
  deriving DecidableEq, Repr

/-- plain(x, j) of R66. -/
def plainSlot (x : Nat) : Slot :=
  if x = 8 then ⟨.nan, true⟩ else ⟨.fin (toSigned 4 x < 0) (toSigned 4 x).natAbs 0, false⟩

/-- The slot k (0 to 3) of an aligned group whose stored slots are s0 to s3 (R66). -/
def decodeSlot (s0 s1 s2 s3 k : Nat) : Slot :=
  if s0 = 8 then
    if k = 0 then ⟨floatValue .h8 (s2 * 16 + s1), false⟩
    else if k = 3 then plainSlot s3 else ⟨.fin false 0 0, false⟩
  else if s1 = 8 then
    if k = 0 then plainSlot s0
    else if k = 1 then ⟨floatValue .h8 (s3 * 16 + s2), false⟩ else ⟨.fin false 0 0, false⟩
  else plainSlot (if k = 0 then s0 else if k = 1 then s1 else if k = 2 then s2 else s3)

/-- An I4X value as an operand: its NaN propagates as the default NaN (R66, R75). An H8 outlier nibble pair may be
subnormal in H8; the slot is a value of I4X, so it reads as no subnormal (log 20). -/
def Slot.operand (s : Slot) (dst : Fmt) : Operand := { val := s.val, nan := defaultNaN dst, snan := false, sub := false }

/-- A decoded slot converted into a floating-point format (exact, R66) or an integer format (R81). -/
def Slot.convert (s : Slot) (dst : Fmt) (rm : Nat) : Nat × FlagSet :=
  let r := if dst.isInt then valueToInt dst rm s.val else roundValue dst rm (defaultNaN dst) s.val
  (r.1, r.2 ||| (if s.fe then flFE else flNone))

/-- One element converted from S into D (R78 to R82); an I4X source is given as its decoded slot instead. -/
def convertElem (src dst : Fmt) (rm : Nat) (sat : Bool) (c : Nat) : Nat × FlagSet :=
  if src.isInt then
    if dst.isInt then (intToInt dst sat (src.intOf c), flNone) else intToFloat dst rm (src.intOf c)
  else if dst.isInt then valueToInt dst rm (floatValue src c)
  else if src == dst then (c, flNone)
  else floatToFloat src dst rm c

/-- Source converted after an exact multiplication by its scale, one rounding (VCVTK, R188, R190). -/
def convertScaled (dst : Fmt) (rm : Nat) (E : Nat) (nan : Nat) (v : Value) : Nat × FlagSet :=
  if E = 0xFF then (defaultNaN dst, flNone)
  else match v with
    | .nan => (nan, flNone)
    | .fin s m e => roundValue dst rm nan (.fin s m (e + (E : Int) - 127))
    | .inf s => roundValue dst rm nan (.inf s)

end Sys2Proof.Machine
end

