-- ==== Sys2Proof/Machine/Approx.lean ====
section
/-! DEFINITION. The special functions of VFU (R182 to R185). The spec bounds most of them without fixing a value: the
returned code is the free value `Config.specialFunction` where it lies within the bound of R183, and the nearest value
otherwise (log 8). The functions themselves are computed here as dyadic numbers with a relative error below 2^−400. -/
namespace Sys2Proof.Machine

/-- Fixed point: an integer stands for itself divided by 2^700. -/
def fpBits : Nat := 700
def fpOne : Int := ((pow2 fpBits : Nat) : Int)
def fpMul (a b : Int) : Int := a * b / fpOne
def fpDiv (a b : Int) : Int := if b = 0 then 0 else a * fpOne / b

/-- A dyadic number m × 2^e in fixed point, rounded down. -/
def fpOf (m e : Int) : Int :=
  let k := e + (fpBits : Int)
  if k ≥ 0 then m * ((pow2 k.toNat : Nat) : Int) else m / ((pow2 (-k).toNat : Nat) : Int)

/-- The sum of t^(2k+1) ÷ (2k+1) for k below n, with alternating signs when alt: artanh or arctan of t. -/
def oddSeries (alt : Bool) (t : Int) (n : Nat) : Int :=
  let t2 := fpMul t t
  ((List.range n).foldl (fun (acc : Int × Int) k =>
    let term := acc.2 / ((2 * k + 1 : Nat) : Int)
    (acc.1 + (if alt && k % 2 == 1 then -term else term), fpMul acc.2 t2)) ((0 : Int), t)).1

/-- ln 2 and π. -/
def fpLn2 : Int := 2 * oddSeries false (fpOne / 3) 230
def fpPi : Int := 16 * oddSeries true (fpOne / 5) 160 - 4 * oddSeries true (fpOne / 239) 60

/-- e^y for 0 ≤ y < 1. -/
def fpExp (y : Int) : Int :=
  ((List.range 150).foldl (fun (acc : Int × Int) k =>
    (acc.1 + acc.2, fpMul acc.2 y / ((k + 1 : Nat) : Int))) ((0 : Int), fpOne)).1

/-- sin y and cos y for |y| < 1: the terms of e^(iy) in turn. -/
def fpSinCos (y : Int) : Int × Int :=
  let r := (List.range 150).foldl (fun (acc : Int × Int × Int) k =>
    let (s, c, term) := acc
    let next := fpMul term y / ((k + 1 : Nat) : Int)
    match k % 4 with
    | 0 => (s, c + term, next)
    | 1 => (s + term, c, next)
    | 2 => (s, c - term, next)
    | _ => (s - term, c, next)) ((0 : Int), (0 : Int), fpOne)
  (r.1, r.2.1)

/-- e^y as a fixed-point number times a power of two; |y| is taken as at most 2^13. -/
def expSplit (y : Int) : Int × Int :=
  let lim := fpOne * 8192
  let y := if y > lim then lim else if y < -lim then -lim else y
  let n := y / fpLn2
  (fpExp (y - n * fpLn2), n)

/-- A function value as a dyadic number (mantissa, exponent), and whether it is exact. -/
structure Approx where
  m : Int
  e : Int
  exact : Bool
  deriving DecidableEq, Repr

/-- Magnitude and exponent with the mantissa made odd. -/
def oddPart (fuel m : Nat) (e : Int) : Nat × Int :=
  match fuel with
  | 0 => (m, e)
  | k + 1 => if m % 2 = 0 && m != 0 then oddPart k (m / 2) (e + 1) else (m, e)

/-- 2^x of x = m × 2^e (m signed). -/
def exp2Of (m e : Int) : Approx :=
  let lim : Int := 8192
  let x := if e ≥ 14 then (if m > 0 then lim * fpOne else if m < 0 then -lim * fpOne else 0) else fpOf m e
  let x := if x > lim * fpOne then lim * fpOne else if x < -lim * fpOne then -lim * fpOne else x
  let n := x / fpOne
  let f := x - n * fpOne
  if f = 0 && (e ≥ 0 || m % ((pow2 (-e).toNat : Nat) : Int) = 0) then ⟨1, n, true⟩
  else ⟨fpExp (fpMul f fpLn2), n - (fpBits : Int), false⟩

/-- log2 of m × 2^e, m > 0. -/
def log2Of (m : Nat) (e : Int) : Approx :=
  let l := m.log2
  if m = pow2 l then ⟨e + (l : Int), 0, true⟩
  else
    let t := fpDiv (((m : Int) - ((pow2 l : Nat) : Int)) * fpOne) (((m : Int) + ((pow2 l : Nat) : Int)) * fpOne)
    let frac := fpDiv (2 * oddSeries false t 230) fpLn2
    ⟨(e + (l : Int)) * fpOne + frac, -(fpBits : Int), false⟩

/-- sin (isCos false) or cos of m × 2^e, m signed and not zero. -/
def sinCosOf (isCos : Bool) (m e : Int) : Approx :=
  let x := fpOf m e
  let half := fpPi / 2
  let k := (x + half / 2) / half
  let (s, c) := fpSinCos (x - k * half)
  let q := (k + (if isCos then 1 else 0)) % 4
  let v := if q = 0 then s else if q = 1 then c else if q = 2 then -s else -c
  ⟨v, -(fpBits : Int), false⟩

/-- tanh and the logistic function of m × 2^e, m signed and not zero. -/
def tanhOf (m e : Int) : Approx :=
  let (a, n) := expSplit (if e ≥ 12 then (if m > 0 then fpOne * 8192 else -fpOne * 8192) else 2 * fpOf m e)
  -- e^(2x) = a × 2^n; beyond n = ±300 the value differs from ±1 by less than 2^−298
  if n > 300 then ⟨((pow2 500 : Nat) : Int) - 1, -500, false⟩
  else if n < -300 then ⟨1 - ((pow2 500 : Nat) : Int), -500, false⟩
  else
    let E := if n ≥ 0 then a * ((pow2 n.toNat : Nat) : Int) else a / ((pow2 (-n).toNat : Nat) : Int)
    ⟨fpDiv (E - fpOne) (E + fpOne), -(fpBits : Int), false⟩

def sigmOf (m e : Int) : Approx :=
  let (a, n) := expSplit (if e ≥ 13 then (if m > 0 then -fpOne * 8192 else fpOne * 8192) else -(fpOf m e))
  -- 1 ÷ (1 + a × 2^n)
  if n > 600 then ⟨fpDiv fpOne a, -n - (fpBits : Int), false⟩
  else
    let E := if n ≥ 0 then a * ((pow2 n.toNat : Nat) : Int) else a / ((pow2 (-n).toNat : Nat) : Int)
    if n < -600 then ⟨((pow2 500 : Nat) : Int) - 1, -500, false⟩
    else ⟨fpDiv (fpOne * fpOne) (fpOne + E), -2 * (fpBits : Int), false⟩

/-- 1 ÷ (m × 2^e) and 1 ÷ √(m × 2^e), m > 0. -/
def rcpOf (m : Nat) (e : Int) : Approx :=
  let (o, k) := oddPart (m.log2 + 1) m e
  if o = 1 then ⟨1, -k, true⟩ else ⟨((pow2 (o.log2 + 600) / o : Nat) : Int), -k - ((o.log2 + 600 : Nat) : Int), false⟩

def rsqOf (m : Nat) (e : Int) : Approx :=
  let (o, k) := oddPart (m.log2 + 1) m e
  if o = 1 && k % 2 = 0 then ⟨1, -(k / 2), true⟩
  else
    let j := 2 * (o.log2 + 600) + (if k % 2 = 0 then 0 else 1)
    ⟨((isqrt (pow2 j / o) : Nat) : Int), -((k + (j : Int)) / 2), false⟩

/-- Whether a finite value lies within the bound of an approximated one: k units in the last place of it, or, when `abs22`,
2^−22. The relative error of the approximation is allowed for. -/
def withinBound (f : Fmt) (k : Nat) (abs22 : Bool) (a : Approx) (v : Int × Int) : Bool :=
  let mag : Int := if a.m < 0 then -a.m else a.m
  let top : Int := a.e + ((mag.toNat.log2 : Nat) : Int)
  let emin : Int := 1 - (f.par.bias : Int)
  let ulp : Int × Int := if abs22 then (1, -22) else ((k : Int), (if top < emin then emin else top) - (f.par.fbits : Int))
  let diff := dyAdd (a.m, a.e) (-v.1, v.2)
  let diff := if diff.1 < 0 then (-diff.1, diff.2) else diff
  let slack : Int × Int := if a.exact then (0, 0) else (mag, a.e - 400)
  !dyLt ulp (dyAdd diff slack)

/-- The result of a bounded function: the free value within the bound, the nearest value otherwise; NX when it differs from
the exact value, OF and tininess as under RNE (R73, R183). `code` names the input. -/
def boundedResult (f : Fmt) (fn k : Nat) (abs22 : Bool) (code : Nat) (a : Approx) : Nat × FlagSet :=
  let base := if a.exact then roundInt f rmRNE a.m a.e false else roundMag f rmRNE (a.m < 0) (2 * a.m.natAbs + 1) (a.e - 1)
  let tiny := if a.exact then tinyMag f rmRNE (a.m < 0) a.m.natAbs a.e else tinyMag f rmRNE (a.m < 0) (2 * a.m.natAbs + 1) (a.e - 1)
  let c := Config.specialFunction fn f.code code % pow2 f.width
  match floatValue f c with
  | .fin s m e =>
    if base.2 &&& flOF = 0 && withinBound f k abs22 a (signedOf s m, e) then
      (c, if a.exact && dyEq (a.m, a.e) (signedOf s m, e) then flNone else flNX ||| (if tiny then flUF else flNone))
    else base
  | _ => base

/-- Ulps allowed by R183's table for fn 3 to 8. -/
def vfuUlps (f : Fmt) : Nat := if f = .f32 then 2 else 1

/-- fn 0 to 8 of VFU on an operand (R182 to R184). `code` is the input as the free value sees it. -/
def vfuFn (fn : Nat) (f : Fmt) (rm : Nat) (code : Nat) (o : Operand) : Nat × FlagSet :=
  let ifl := inputFlags [o]
  let nv := (defaultNaN f, ifl ||| flNV)
  let with_ := fun (r : Nat × FlagSet) => (r.1, ifl ||| r.2)
  let one := (roundInt f rmRNE 1 0 false).1
  let bounded := fun (a : Approx) => with_ (boundedResult f fn (vfuUlps f) false code a)
  match o.val with
  | .nan => (o.nan, ifl)
  | .inf neg =>
    match fn with
    | 1 => (zeroCode f neg, ifl)
    | 2 => if neg then nv else (zeroCode f false, ifl)
    | 3 => if neg then (zeroCode f false, ifl) else (infCode f false, ifl)
    | 4 => if neg then nv else (infCode f false, ifl)
    | 5 | 6 => nv
    | 7 => (if neg then one ||| pow2 (f.width - 1) else one, ifl)
    | 8 => (if neg then zeroCode f false else one, ifl)
    | _ => fSqrt f rm o
  | .fin neg m e =>
    let sm := signedOf neg m
    match fn with
    | 1 =>
      if m = 0 then (infCode f neg, ifl ||| flDZ)
      else if f = .f32 || f = .f64 then
        let a := rcpOf m e
        with_ (boundedResult f fn 1 false code { a with m := if neg then -a.m else a.m })
      else with_ (roundQuot f rm neg 1 0 m e)
    | 2 =>
      if m = 0 then (infCode f neg, ifl ||| flDZ)
      else if neg then nv
      else if f = .f32 || f = .f64 then with_ (boundedResult f fn 1 false code (rsqOf m e))
      else
        let a := rsqOf m e
        with_ (if a.exact then roundInt f rm a.m a.e false else roundMag f rm false (2 * a.m.natAbs + 1) (a.e - 1))
    | 3 => if m = 0 then (one, ifl) else
      let a := exp2Of sm e
      if a.exact then with_ (roundInt f rmRNE a.m a.e false) else bounded a
    | 4 =>
      if m = 0 then (infCode f true, ifl ||| flDZ)
      else if neg then nv
      else
        let a := log2Of m e
        if a.exact then with_ (roundInt f rmRNE a.m a.e false) else bounded a
    | 5 => if m = 0 then (zeroCode f neg, ifl) else
      with_ (boundedResult f fn (vfuUlps f) (f = .f32 && dyLt (1, 20) (m, e)) code (sinCosOf false sm e))
    | 6 => if m = 0 then (one, ifl) else
      with_ (boundedResult f fn (vfuUlps f) (f = .f32 && dyLt (1, 20) (m, e)) code (sinCosOf true sm e))
    | 7 => if m = 0 then (zeroCode f neg, ifl) else bounded (tanhOf sm e)
    | 8 => if m = 0 then with_ (roundInt f rmRNE 1 (-1) false) else bounded (sigmOf sm e)
    | _ => fSqrt f rm o

/-- VFRND: the integral value nearest under rm, in the format (R182, R185). -/
def vfRound (f : Fmt) (rm : Nat) (o : Operand) : Nat × FlagSet :=
  let ifl := if o.snan then flNV else flNone
  let ifl := ifl ||| (if o.sub then flDN else flNone)
  match o.val with
  | .nan => (o.nan, ifl)
  | .inf s => (infCode f s, ifl)
  | .fin s m e =>
    if m = 0 then (zeroCode f s, ifl)
    else
      let (x, inex) := roundToInt rm s m e
      let r := roundInt f rm x 0 s
      (r.1, ifl ||| r.2 ||| (if inex then flNX else flNone))

/-- VFCLASS: one bit of ten (R185). -/
def vfClass (f : Fmt) (c : Nat) : Nat :=
  let p := f.par
  let s := fieldSign p c
  pow2 (if isNaNCode f c then (if isSNaNCode f c then 8 else 9)
    else match floatValue f c with
      | .inf _ => if s then 0 else 7
      | .fin _ m _ => if m = 0 then (if s then 3 else 4) else if fieldExp p c = 0 then (if s then 2 else 5) else (if s then 1 else 6)
      | .nan => 9)

end Sys2Proof.Machine
end

