-- ==== Sys2Proof/Machine/Assoc.lean ====
section
/-! DEFINITION. Sparse data by key: a list of key and value pairs with keys strictly rising and a default for a key that is
not listed. Memory (addresses and bytes) is the case where an entry equal to the default is never listed. -/
namespace Sys2Proof.Machine

/-- The value listed at a key, or none. -/
def assocGet (l : List (Nat × α)) (k : Nat) : Option α :=
  match l with
  | [] => none
  | (k', v) :: rest => if k = k' then some v else assocGet rest k

/-- The value at a key, a default where none is listed. -/
def assocGetD (l : List (Nat × α)) (d : α) (k : Nat) : α := (assocGet l k).getD d

/-- Put a value at a key, keeping keys strictly rising. -/
def assocPut (l : List (Nat × α)) (k : Nat) (v : α) : List (Nat × α) :=
  match l with
  | [] => [(k, v)]
  | (k', v') :: rest =>
    if k < k' then (k, v) :: (k', v') :: rest
    else if k = k' then (k, v) :: rest
    else (k', v') :: assocPut rest k v

/-- Remove a key. -/
def assocDel (l : List (Nat × α)) (k : Nat) : List (Nat × α) :=
  match l with
  | [] => []
  | (k', v') :: rest => if k = k' then rest else (k', v') :: assocDel rest k

/-- Insert into a list that is sorted by a relation, after the elements that do not come later. -/
def insertBy (le : α → α → Bool) (x : α) (l : List α) : List α :=
  match l with
  | [] => [x]
  | y :: rest => if le y x then y :: insertBy le x rest else x :: y :: rest

/-- A list sorted by a relation; elements the relation does not tell apart keep their order. -/
def sortBy (le : α → α → Bool) (l : List α) : List α := l.foldl (fun acc x => insertBy le x acc) []

/-- The keys are strictly rising, from a lower bound on. -/
def risingFrom (b : Nat) (l : List (Nat × α)) : Bool :=
  match l with
  | [] => true
  | (k, _) :: rest => decide (b ≤ k) && risingFrom (k + 1) rest

/-- Keys strictly rising. -/
def rising (l : List (Nat × α)) : Bool := risingFrom 0 l

/-- A byte list in canonical form: keys strictly rising, no entry equal to the default byte 0. -/
def Memory.wf (l : List (Nat × Byte)) : Bool := rising l && l.all (fun e => e.2 != 0)

/-- What an unlisted address reads as: 0 (log 6). -/
def Memory.default : Byte := 0

/-- Read one byte. -/
def Memory.get (l : List (Nat × Byte)) (a : Nat) : Byte := assocGetD l Memory.default a

/-- Write one byte; writing the default removes the entry. -/
def Memory.set (l : List (Nat × Byte)) (a : Nat) (b : Byte) : List (Nat × Byte) :=
  if b = Memory.default then assocDel l a else assocPut l a b

end Sys2Proof.Machine
end

