-- ==== Sys2Proof/Machine/State.lean ====
section
/-! DEFINITION. The state of the package as plain data: every register, table and queue the spec names, and the
few fields of the model's own (INVENTORY.md marks them). Also the reasons a step can stop, and the state after reset. -/
namespace Sys2Proof.Machine

/-! ### Drovers -/

/-- Drover states of R19. -/
inductive DroverState where
  | issuing | awaiting | trapped | halted | exited
  deriving DecidableEq, Repr

/-- What an AWAITING drover waits for (R149, R227, R234, R235, R308, R335). -/
inductive WaitOn where
  | event (mask : BitVec 5)
  | copy (ch id : Nat)
  | barrier (core : Bool) (gen : Nat)
  | value (va : Word) (least : Word)
  | chain
  | booking
  | bookedRun
  deriving DecidableEq, Repr

/-- The fault that stopped an access: what R57 and R397 record of it. `cause` is a code of R387. -/
structure FaultInfo where
  cause : Nat
  sub : Nat
  lvl : Nat
  va : Word
  pte : Word
  pa : Nat
  wr : Bool
  ex : Bool
  dk : Bool
  bmask : Nat
  data : Word
  deriving DecidableEq, Repr

/-- Progress index of one physical row (R43). -/
structure Pix where
  done : Bool
  idx : Nat
  deriving DecidableEq, Repr

/-- One FEI register (R53). -/
structure Fei where
  v : Bool
  idx : Nat
  deriving DecidableEq, Repr

/-- Accumulator formats (R265). -/
inductive AccFmt where
  | none | f32 | i32 | f64
  deriving DecidableEq, Repr

/-- REPS (R49) and, the model's own, the mark that a REP stands between two iterations, the number of its iterations and
the repeated word as the REP fetched it. -/
structure RepState where
  act : Bool
  fm : BitVec 3
  strd : BitVec 7
  cnt : BitVec 32
  go : Bool
  total : Nat
  ins : BitVec 32
  deriving DecidableEq, Repr

/-- A copy or stream descriptor (R222): c, i, x by dimension, s for dimensions 1 to 3. -/
structure Desc where
  base : Nat
  esz : Nat
  ndim : Nat
  c : List Nat
  i : List Int
  x : List Nat
  s : List Int
  idxVa : Nat
  deriving DecidableEq, Repr

/-- A bound stream of a drover (R230, R231). `row` is the physical row, lastP the position of the last pop or push, if there was one. -/
structure Stream where
  row : Nat
  desc : Desc
  write : Bool
  pos : Nat
  lastP : Option Nat
  deriving DecidableEq, Repr

/-- A captured node (R293). -/
structure Node where
  word : BitVec 32
  addr : Word
  vty : Word
  tl : Nat
  kl : Nat
  vl : Nat
  vwb : Nat
  core : Nat
  deriving DecidableEq, Repr

/-- A capture in progress (R291, R292). `badLink` holds the address of a LINK outside R297 and the nodes before it. -/
structure Capture where
  slot : Nat
  tf : Bool
  cfgPc : Word
  words : Nat
  link : Nat
  nodes : List Node
  badLink : Option (Word × Nat)
  deriving DecidableEq, Repr

/-- A live template (R295). -/
structure Template where
  slot : Nat
  tf : Bool
  nodes : List Node
  deriving DecidableEq, Repr

/-- A token: the codes of its elements (a predicate token holds 0 or 1), and whether its producer has finished it. -/
structure Token where
  elems : List Nat
  whole : Bool
  deriving DecidableEq, Repr

/-- A chain queue: tokens held, head first; strip number of the head token (R300, R309). -/
structure Queue where
  hs : Nat
  tokens : List Token
  deriving DecidableEq, Repr

/-- The run state of a node (R298, R300 to R304, R318). Partials and carries are `entries`; snapshots are of invariant rows
in R318's order; `strip` counts its completed strips, `pix` its completed run elements; `last` is the cycle of its last firing. -/
structure NodeRun where
  strip : Nat
  pix : Nat
  entries : List (Option Nat)
  snapB : List Nat
  snapC : List Nat
  snapA : List Nat
  snapD : List Nat
  psnap : Nat
  base : Word
  stride : Word
  scal : Word
  opnd : List Nat
  spos : Nat
  faulted : Bool
  fva : Word
  last : Nat
  deriving DecidableEq, Repr

/-- A break that has happened (R310, R311). -/
structure Break where
  kind : Nat
  icause : Nat
  fnode : Nat
  elem : Nat
  fault : Option FaultInfo
  owed : Bool
  deriving DecidableEq, Repr

/-- The partial signature of an output tile (R354, R357, R361). -/
structure Sig where
  tile : Nat
  sum : Nat
  max : Nat
  mix : Nat
  nr : Bool
  deriving DecidableEq, Repr

/-- A run through the live template (R298 to R306). `fef` and `fei` are the flags of the run so far, `area` the delivery-owed
bit of the copy written at CSAB, if one is current. `units` are the lane groups the run holds, by core; `sup` is the level of
its accesses; `stop` is the strip of RSTP at which it is to stop (R421); `failing` is the fault of a node while others still go on (R258), `imported` marks a state that CHLOAD read. -/
structure Run where
  count : Nat
  rpc : Word
  nodes : List NodeRun
  queues : List Queue
  placed : Bool
  units : List (Nat × Nat)
  sup : Bool
  since : Nat
  flagged : Bool
  fef : BitVec 7
  fei : Vector Fei 7
  brk : Option Break
  failing : Option Break
  imported : Bool
  area : Option Nat
  booked : Bool
  seq : Bool
  reuse : Bool
  skips : List Nat
  decided : Nat
  sig : Option Sig
  stop : Option Nat
  dropAsked : Bool
  deriving DecidableEq, Repr

/-- A register word that holds an uncorrectable error (R413): kind 0 row, 1 predicate, 2 scale, 3 accumulator; the
register's number; the 64-bit word within it. Kind 4 is a queue of the drover's run: 8 times its number plus the strip of the token
modulo 8, and the word within the token. -/
structure EccWord where
  kind : Nat
  reg : Nat
  word : Nat
  deriving DecidableEq, Repr

/-- Cycle counts of one lane group since its last LANE record (R426). -/
structure LaneCount where
  c : Nat
  u : Nat
  m : Nat
  b : Nat
  d : Nat
  s : Nat
  deriving DecidableEq, Repr

/-- A strip-table entry (R417). -/
structure Strip where
  pc : Word
  ord : Nat
  deriving DecidableEq, Repr

/-- Vector state of a drover: lengths, type, window, rows, predicates, scales, accumulators, progress (R38 to R48, R265). -/
structure Vec where
  vl : Nat
  tl : Nat
  kl : Nat
  vty : Word
  vwb : Nat
  hwmRows : Nat
  hwmLanes : Nat
  hwmK : Nat
  hwmAcc : BitVec 4
  rows : Vector RowBits 256
  preds : Vector PredBits 16
  scales : Vector ScaleBits 64
  accs : Vector RowBits 4
  am : Nat
  an : Nat
  af : AccFmt
  pix : Vector Pix 256
  deriving DecidableEq, Repr

/-- The trap registers and the level (R49, R57, R145). -/
structure TrapRegs where
  sup : Bool
  epc : Word
  esr : Word
  tvec : Word
  flt : Word
  fva : Word
  fpc : Word
  fel : Word
  deriving DecidableEq, Repr

/-- CST and CSAB (R49). -/
structure Cst where
  exp : Bool
  icause : Nat
  slot : Nat
  tmp : Bool
  rs : Bool
  run : Bool
  live : Bool
  csab : Word
  deriving DecidableEq, Repr

/-- One reserved entry of a booking (R326, R330): first quantum and end (exclusive), absolute in a booking and
relative to its start in a profile; `dur` is DUR as the profile has it, unit mask, bytes. -/
structure BookEntry where
  cls : Nat
  from_ : Nat
  until_ : Nat
  dur : Nat
  mask : Nat
  bytes : Nat
  deriving DecidableEq, Repr

/-- A BOOK or BKQRY whose search has not ended: the register that receives its result, the profile's entries unless it is
malformed, whether it is BKQRY (R333, R334). -/
structure Search where
  reg : Reg
  entries : Option (List BookEntry)
  query : Bool
  deriving DecidableEq, Repr

/-- BKS and BKST (R49), and the search in progress. -/
structure Bks where
  st : Nat
  ref : Nat
  start : Word
  search : Option Search
  deriving DecidableEq, Repr

/-- A trap as it will be taken: what R57, R144, R145 and R314 write. -/
structure Trap where
  cause : Nat
  icause : Nat
  va : Word
  elem : Option Nat
  wr : Bool
  ex : Bool
  posted : Bool
  partway : Bool
  chb : Bool
  rep : Bool
  epc : Word
  fpc : Word
  deriving DecidableEq, Repr

/-- A request for lane groups that waits (R26): the cycle of asking, its age, and the most groups it is to receive (R169, R170). -/
structure LaneRequest where
  since : Nat
  cap : Nat
  deriving DecidableEq, Repr

/-- One resident drover. -/
structure Drover where
  -- identity and launch (R28, R32, R35, R49)
  flock : Nat
  ctx : Nat
  fcore : Nat
  index : Nat
  rowsAlloc : Nat
  accAlloc : Nat
  lgMin : Nat
  lgMax : Nat
  tileLo : Nat
  tileLen : Nat
  -- scalar state
  g : Vector Word 128
  pc : Word
  -- scheduling
  state : DroverState
  wait : Option WaitOn
  latch : BitVec 5
  stall : Option Nat
  resume : Bool
  viaEret : Bool
  atHandler : Bool
  restart : Nat
  raised : Bool
  yieldUntil : Option Nat
  yieldFor : List Nat
  tdone : Bool
  -- grant (R20 to R27)
  lgm : BitVec 16
  gc : Bool
  granted : Bool
  parked : BitVec 16
  request : Option LaneRequest
  typed : Bool
  configured : Bool
  -- vector state
  vec : Vec
  fef : BitVec 7
  fee : BitVec 7
  fei : Vector Fei 7
  sms : Word
  reps : RepState
  cwm : Vector Nat 4
  cnx : Vector Nat 4
  doneIds : List (Nat × Nat)
  streams : List Stream
  -- chains
  cst : Cst
  capture : Option Capture
  template : Option Template
  run : Option Run
  -- booking
  bks : Bks
  -- traps
  tr : TrapRegs
  susp : Option Trap
  pending : List (Nat × FaultInfo)
  answers : List (Nat × Bool)
  -- debug and trace
  dbgHalt : Bool
  preempted : Bool
  strips : List Strip
  strp : Word
  stro : Nat
  inStrip : Bool
  lanes : List (Nat × LaneCount)
  laneMask : BitVec 16
  occupied : List (Nat × LaneCount)
  stepping : Bool
  stepped : Bool
  skip1 : Bool
  born : Nat
  tileUse : Option Nat
  ppix : Vector Pix 16
  -- what a halt keeps: EPC, ESR and FPC as they stood (R404, R409); an instruction that has issued and goes on; a REP that goes on; a cycle of class D;
  -- a rectangle in the save area (R24, R426)
  hold : Option (Word × Word × Word)
  again : Bool
  repBack : Bool
  dead : Bool
  spilled : Bool
  -- errors
  ecc : List EccWord
  deriving DecidableEq, Repr

/-! ### Cores -/

/-- Tile states (R214), FREE being an entry that is not listed. -/
inductive TileSt where
  | empty | filling | ready | draining | away
  deriving DecidableEq, Repr

/-- The range record of a tile (R220, R224). -/
structure RangeRec where
  lo : List Nat
  hi : List Nat
  row0 : Nat
  nr : Nat
  rc1 : Nat
  rc2 : Nat
  deriving DecidableEq, Repr

/-- A tile-table entry (R214, R220). `pend` names the pending transfer by drover, channel and id; `prev` is the state an AWAY tile returns to, `saved` its content. -/
structure Tile where
  st : TileSt
  err : Bool
  sh : Bool
  own : Nat
  flock : Nat
  rows : Nat
  rb : Nat
  base : Nat
  pend : Option (Nat × Nat × Nat)
  range : RangeRec
  prev : TileSt
  saved : List (Nat × Byte)
  deriving DecidableEq, Repr

/-- Copy directions (R223). -/
inductive CopyKind where
  | cpyin | cpyg | cpymc | cpyout
  deriving DecidableEq, Repr

/-- A copy transfer in progress (R223, R224). `left` lists the cores whose tile it
fills; `pos` is how far a CPYOUT has come in pattern order; `tag` the record whose verdict it awaits. -/
structure Transfer where
  drv : Nat
  ch : Nat
  id : Nat
  kind : CopyKind
  tile : Nat
  row0 : Nat
  nrows : Nat
  desc : Desc
  ctx : Nat
  sup : Bool
  flock : Nat
  left : List Nat
  pos : Nat
  tag : Option Nat
  deriving DecidableEq, Repr

/-- Configuration of the step-reuse sequencer (R351). -/
structure SrsCfg where
  slot : Nat
  lnode : Nat
  snode : Nat
  rl : Nat
  cl : Nat
  nt : Nat
  t : Nat
  isig : Nat
  osig : Nat
  rbuf : Nat
  deriving DecidableEq, Repr

/-- The sequencer of a core (R350 to R356). -/
structure Srs where
  owner : Option Nat
  cfg : Option SrsCfg
  en : Bool
  act : Bool
  nr : Bool
  step : Nat
  skips : Nat
  skm : BitVec 8192
  deriving DecidableEq, Repr

/-- A booking in ST 2 or 3 (R327, R333). `owner` is a drover key, or `task` holds it before the flock starts (R380). -/
structure Booking where
  core : Nat
  owner : Option Nat
  task : Option Nat
  start : Nat
  started : Bool
  runStarted : Bool
  entries : List BookEntry
  deriving DecidableEq, Repr

/-- A core. `terr` lists the 8-byte words of tile memory that hold an uncorrectable error (R413). -/
structure Core where
  rr : Nat
  tiles : List (Nat × Tile)
  tmem : List (Nat × Byte)
  terr : List Nat
  transfers : List Transfer
  slots : List (Nat × Nat)
  srs : Srs
  freed : Bool
  deriving DecidableEq, Repr

/-! ### Dies -/

/-- Who waits for the verdict of a fault record (R399, R402). -/
inductive Requester where
  | drover (key : Nat)
  | transfer (drv ch id : Nat)
  | chain (key node : Nat)
  | record (handle n : Nat)
  | swapIn (handle : Nat)
  | ring (key handle : Nat)
  | launch (handle : Nat)
  | profile (task : Nat)
  | completion (task : Nat)
  | successor (task : Nat)
  deriving DecidableEq, Repr

/-- A record that awaits its verdict (R398, R402). -/
structure Awaited where
  tag : Nat
  ctx : Nat
  region : Nat
  cause : Nat
  sub : Nat
  who : List Requester
  deriving DecidableEq, Repr

/-- A fault record (R397). -/
structure FaultRec where
  cause : Nat
  sub : Nat
  flg : Nat
  lvl : Nat
  pcore : Nat
  slot : Nat
  icause : Nat
  bmask : Nat
  flock : Nat
  va : Word
  pc : Word
  aux : Word
  pte : Word
  pa : Word
  data : Word
  deriving DecidableEq, Repr

/-- A cached translation (R395): context, first page, number of 4 KiB pages, the leaf as read, and the physical page. -/
structure TlbEntry where
  ctx : Nat
  vpn : Nat
  pages : Nat
  ppn : Nat
  pte : Word
  pteAddr : Nat
  deriving DecidableEq, Repr

/-- An invalidation that has started (R403). -/
structure Inval where
  k : Nat
  ctx : Nat
  all : Bool
  vpn : Nat
  np : Nat
  pkg : Bool
  deriving DecidableEq, Repr

/-- A compute die. `tlb1` holds the first-level TLB of each of its cores, `tlb` is its last-level TLB (R395). -/
structure Die where
  frqb : Option Nat
  head : Nat
  tail : Nat
  backlog : List (FaultRec × Nat × Option Requester)
  awaited : List Awaited
  inva : Word
  invDone : Nat
  invStarted : Nat
  invals : List Inval
  tlb : List TlbEntry
  tlb1 : List (Nat × List TlbEntry)
  accPtr : Nat
  pcap : Nat
  throttled : Nat
  allowance : List Nat
  released : List Nat
  class0 : Bool
  corrected : Nat
  uncorrected : Nat
  failedTsv : List Nat
  deriving DecidableEq, Repr

/-! ### Work: queues, tasks, flocks -/

/-- A task control block as read at acceptance (R28). -/
structure Tcb where
  entry : Word
  args : Word
  cores : Nat
  drovers : Nat
  place : Nat
  lgMin : Nat
  lgMax : Nat
  rows8 : Nat
  accs : Nat
  tmem : Nat
  stack : Nat
  prio : Nat
  sup : Bool
  tsh : Bool
  succ : Bool
  deps : Nat
  succVa : Word
  bookVa : Word
  sigVa : Word
  sigVal : Word
  ranges : List (Nat × Nat × Bool × Bool)
  deriving DecidableEq, Repr

/-- Where a task stands (R367, R373, R378, R380). -/
inductive TaskSt where
  | armed | waiting | ready | held (start : Nat) | running | ending | ended
  deriving DecidableEq, Repr

/-- An accepted LAUNCH (R367). `stage` is what the completion has done, 0 before the completion store, 1 + i before successor
i (R381); `blocked` holds while an access of the dispatcher awaits a verdict; `tryAt` is the cycle from which a refused booking
search is tried again (R380); `stored` says that the completion store is made, `listed` that the successor list has been checked. -/
structure Task where
  seq : Nat
  tcbVa : Word
  tcb : Tcb
  ctx : Nat
  handle : Nat
  die : Nat
  st : TaskSt
  readyAt : Nat
  ranges : Bool
  flock : Nat
  place : List Nat
  stack : Option (Nat × Nat)
  aged : Bool
  stage : Nat
  blocked : Bool
  aborted : Bool
  tryAt : Nat
  stored : Bool
  listed : Bool
  deriving DecidableEq, Repr

/-- What holds the later records of a queue back (R366). -/
inductive Hold where
  | none
  | barrier
  | waitval (va value : Word)
  | fence
  deriving DecidableEq, Repr

/-- An accepted record whose effect is not yet performed (R366). -/
inductive Pending where
  | signal (n : Nat) (va value : Word) (after : List Nat) (tag : Option Nat)
  | copy (n : Nat) (src dst : Word) (len : Nat) (tag : Option Nat)
  | book (n : Nat) (profile : Word) (core : Nat) (result : Word) (tag : Option Nat)
  deriving DecidableEq, Repr

/-- What touched a queue that was not resident (R363). -/
inductive Touch where
  | tail (value : Word)
  | qcmd (key : Nat)
  | accept
  deriving DecidableEq, Repr

/-- A queue handle that is bound to a context (R362 to R368). `fresh` orders touches; `launchRead` and `launchSeq` are the TCB and the
number of a LAUNCH at the head that is not yet accepted; `tag` is set while an access awaits a verdict; `old` holds TAIL as it stood before the tail writes of a cycle, with that cycle (R386). -/
structure WorkQueue where
  ctx : Nat
  resident : Bool
  ring : Word
  lcap : Nat
  prio : Nat
  valid : Bool
  sup : Bool
  err : Bool
  home : Nat
  head : Nat
  tail : Nat
  stkb : Word
  stkl : Nat
  hold : Hold
  pend : List Pending
  touches : List Touch
  stackBlocks : List (Nat × Nat)
  fresh : Nat
  launchRead : Option (Word × Tcb)
  launchSeq : Option Nat
  tag : Option Nat
  old : Option (Nat × Nat)
  deriving DecidableEq, Repr

/-- The debug register set of a flock (R418). -/
structure Debug where
  iba : Vector Word 8
  ibc : Vector Word 8
  wpa : Vector Word 8
  wpc : Vector Word 8
  dctl : Word
  dsts : Word
  rstp : Word
  deriving DecidableEq, Repr

/-- A live flock (R31, R37, R234). `abortAsked` holds from an ABORT command to the end of its cycle (R386). -/
structure Flock where
  ctx : Nat
  task : Nat
  cores : List Nat
  dpc : Nat
  gen : Nat
  coreGen : List (Nat × Nat)
  tmemBase : List (Nat × Nat)
  tmemLen : Nat
  tsh : Bool
  dbg : Debug
  ending : Bool
  aborted : Bool
  abortAsked : Bool
  deriving DecidableEq, Repr

/-- A context (R391, R438, R445, R447). -/
structure Context where
  root : Nat
  qtab : Word
  pool : Word
  poolLen : Nat
  conf : Bool
  key : Nat
  fn : Nat
  owner : List Byte
  grantTren : Nat
  grantSlog : Nat
  grantUntil : Option Nat
  deriving DecidableEq, Repr

/-! ### Host port, scale-out, management -/

/-- What a request asks: a read, a write of a value, an update of one nibble of a byte, or an AtomicOp with its function, operand and
compare value (R200, R261, R435, R440). -/
inductive OutKind where
  | read
  | write (v : Word)
  | nibble (hi : Bool) (v : Nat)
  | atomic (fn : Nat) (v cmp : Word)
  deriving DecidableEq, Repr

/-- A request the device has sent to host memory or to a peer, which an answer completes: who asks, and for which flock (R435, R440). -/
structure OutReq where
  who : Requester
  flock : Nat
  pa : Nat
  n : Nat
  kind : OutKind
  deriving DecidableEq, Repr

/-- What the package answers to a read of the host's or of a peer (R411, R434, R439): the bytes, the poisoned-data indication, or
Unsupported Request. -/
inductive Served where
  | data (l : List Byte)
  | poisoned
  | refused
  deriving DecidableEq, Repr

/-- The answer to an outstanding request: its data, or a failure (R435). -/
structure OutRep where
  who : Requester
  flock : Nat
  pa : Nat
  n : Nat
  kind : OutKind
  data : Option Nat
  deriving DecidableEq, Repr

/-- The management window of one function (R437): CMD block, CSTAT, and the result that completion will show. -/
structure MgmtFn where
  cmd : BitVec 512
  busy : Bool
  code : Nat
  res : Nat
  pendCode : Nat
  pendRes : Nat
  ctxs : List Nat
  ranges : List (Nat × Nat)
  bar4 : Option (Nat × Word)
  deriving DecidableEq, Repr

/-- Lifecycle states (R448). -/
inductive Lifecycle where
  | manufacture | production | debug | retired
  deriving DecidableEq, Repr

/-- A trace record (R424). -/
structure TraceRec where
  typ : Nat
  flg : Nat
  die : Nat
  src : Nat
  inst : Nat
  slot : Nat
  seq : Nat
  snap : Nat
  cyc : Nat
  payload : List Byte
  deriving DecidableEq, Repr

/-- Trace capture (R427). `seqs` counts the records of each source, `lost` lists sources that dropped one. -/
structure Trace where
  base : Option Nat
  stop : Bool
  pos : Nat
  out : List TraceRec
  seqs : List (Nat × Nat)
  lost : List Nat
  deriving DecidableEq, Repr

/-- A mismatch the lockstep comparator reported (R429). -/
structure LockReport where
  issuer : Nat
  k : Nat
  va : Word
  dataA : Word
  dataB : Word
  deriving DecidableEq, Repr

/-- The snapshot registers of a block (R428): its cycle count and the number of records it has emitted, at the trigger. -/
structure SnapReg where
  die : Nat
  src : Nat
  inst : Nat
  cyc : Nat
  events : Nat
  deriving DecidableEq, Repr

/-- The management controller's part of the package (R436, R437, R443, R448 to R450). -/
structure Mgmt where
  ready : Bool
  err : Bool
  booting : Bool
  lcs : Lifecycle
  fns : List (Nat × MgmtFn)
  irqMap : List (Nat × Nat × Nat)
  msix : List Nat
  meas : BitVec 384
  bootMeas : BitVec 384
  fw : Nat
  device : BitVec 128
  ucnt : Nat
  keyEpoch : Nat
  cacheKeyEpoch : Nat
  snapNo : Nat
  snapLatched : Bool
  snaps : List SnapReg
  lockReports : List LockReport
  deriving DecidableEq, Repr

/-- One turn of the agenda: the front end of a core issues, cycles pass, a write that reached a die control page takes
effect, or an event row happens (log 1). -/
inductive Turn where
  | issue (core : Nat)
  | pass (n : Nat)
  | control (die off : Nat) (v : Word)
  | event (i : Instr)
  deriving DecidableEq, Repr

/-- The package. -/
structure State where
  agenda : List Turn
  sel : Nat
  turn : Nat
  cycle : Nat
  -- memory (R410, R432, R445)
  mem : List (Nat × Byte)
  encTag : List (Nat × Nat)
  poison : List Nat
  bad : List Nat
  soft : List Nat
  -- host port and scale-out (R435, R439, R440)
  reqs : List OutReq
  reps : List OutRep
  posted : List (Nat × Byte)
  unacked : List (Nat × Nat)
  qpErr : List Nat
  regions : List (Nat × Nat × Nat)
  sends : List (Nat × List Byte)
  cnps : Nat
  served : List Served
  -- contexts and work
  ctxs : List (Nat × Context)
  queues : List (Nat × WorkQueue)
  tasks : List (Nat × Task)
  flocks : List (Nat × Flock)
  marks : List (Nat × Nat)
  seqNo : Nat
  nextFlock : Nat
  nextAge : Nat
  nextKey : Nat
  nextCtx : Nat
  -- blocks
  drovers : List (Nat × Drover)
  cores : List (Nat × Core)
  dies : List (Nat × Die)
  bookings : List Booking
  mgmt : Mgmt
  trace : Trace
  deriving DecidableEq, Repr

/-! ### Reasons to stop -/

/-- The machine stops with a fault. The spec names no event that stops the whole package: every cause of R387 is a
trap, a suspension or a record, and a failed bring-up leaves the management window readable (R443). No definition of
this model raises a fault; the type has no constructor. -/
inductive Fault where
  deriving DecidableEq, Repr

/-- An instruction without a meaning. -/
inductive Refusal where
  /-- Raised by an arm of exec whose instruction has no meaning yet; safe: nothing is claimed of it. -/
  | notModelled (mnemonic : String)
  deriving DecidableEq, Repr

/-! ### Values at launch and reset -/

def Pix.reset : Pix := ⟨true, 0⟩
def Fei.reset : Fei := ⟨false, 0⟩

/-- Vector state of a drover at launch (R35, R59); rows read zero (R48). -/
def Vec.reset : Vec :=
  { vl := 0, tl := 0, kl := 0, vty := 0, vwb := 0, hwmRows := 0, hwmLanes := 0, hwmK := 0, hwmAcc := 0
    rows := Vector.replicate 256 0, preds := Vector.replicate 16 0, scales := Vector.replicate 64 0
    accs := Vector.replicate 4 0, am := 0, an := 0, af := .none, pix := Vector.replicate 256 Pix.reset }

def TrapRegs.reset : TrapRegs :=
  { sup := false, epc := 0, esr := 0, tvec := 0, flt := 0, fva := 0, fpc := 0, fel := 0 }

def Cst.reset : Cst :=
  { exp := false, icause := 0, slot := 0, tmp := false, rs := false, run := false, live := false, csab := 0 }

def Bks.reset : Bks := { st := 0, ref := 0, start := 0, search := none }

def RepState.reset : RepState := { act := false, fm := 0, strd := 0, cnt := 0, go := false, total := 0, ins := 0 }

/-- A drover slot with every register at its reset value (R35, R59): the launch fills in its identity. A slot that
holds no drover reads so, in state EXITED. -/
def Drover.reset : Drover :=
  { flock := 0, ctx := 0, fcore := 0, index := 0, rowsAlloc := 8, accAlloc := 0, lgMin := 1, lgMax := 16
    tileLo := 0, tileLen := 0
    g := Vector.replicate 128 0, pc := 0
    state := .exited, wait := none, latch := 0, stall := none, resume := false, viaEret := false, atHandler := false, restart := 0, raised := false
    yieldUntil := none, yieldFor := [], tdone := false
    lgm := 0, gc := false, granted := false, parked := 0, request := none, typed := false, configured := false
    vec := Vec.reset, fef := 0, fee := 0, fei := Vector.replicate 7 Fei.reset, sms := 0, reps := RepState.reset
    cwm := Vector.replicate 4 0, cnx := Vector.replicate 4 1, doneIds := [], streams := []
    cst := Cst.reset, capture := none, template := none, run := none
    bks := Bks.reset, tr := TrapRegs.reset, susp := none, pending := [], answers := []
    dbgHalt := false, preempted := false, strips := [], strp := 0, stro := 0, inStrip := false, lanes := [], laneMask := 0, occupied := [], stepping := false, stepped := false, skip1 := false, born := 0, tileUse := none, ppix := Vector.replicate 16 Pix.reset
    hold := none, again := false, repBack := false, dead := false, spilled := false
    ecc := [] }

def Srs.reset : Srs :=
  { owner := none, cfg := none, en := false, act := false, nr := false, step := 0, skips := 0, skm := 0 }

def Core.reset : Core :=
  { rr := 0, tiles := [], tmem := [], terr := [], transfers := [], slots := [], srs := Srs.reset, freed := false }

/-- A die at reset: refresh allowance 0 (R345), HEAD 0 (R401), acceptance pointer 0 (R368). -/
def Die.reset : Die :=
  { frqb := none, head := 0, tail := 0, backlog := [], awaited := [], inva := 0, invDone := 0, invStarted := 0
    invals := [], tlb := [], tlb1 := [], accPtr := 0, pcap := 700, throttled := 0, allowance := List.replicate 16 0
    released := [], class0 := false, corrected := 0, uncorrected := 0, failedTsv := [] }

def Debug.reset : Debug :=
  { iba := Vector.replicate 8 0, ibc := Vector.replicate 8 0, wpa := Vector.replicate 8 0
    wpc := Vector.replicate 8 0, dctl := 0, dsts := 0, rstp := 0 }

def MgmtFn.reset : MgmtFn :=
  { cmd := 0, busy := false, code := 0, res := 0, pendCode := 0, pendRes := 0, ctxs := [], ranges := []
    bar4 := none }

/-- The management window before power-on (R437, R443): READY and ERR 0. LCS is PRODUCTION (log 5). -/
def Mgmt.reset : Mgmt :=
  { ready := false, err := false, booting := false, lcs := .production, fns := [], irqMap := [], msix := []
    meas := 0, bootMeas := 0, fw := 0, device := 0, ucnt := 0, keyEpoch := 0, cacheKeyEpoch := 0
    snapNo := 0, snapLatched := true, snaps := [], lockReports := [] }

def Trace.reset : Trace := { base := none, stop := false, pos := 0, out := [], seqs := [], lost := [] }

/-- The package right after reset: no drover, nothing listed in memory, every register at the value the spec states,
or the one the log names (log 5). -/
def State.reset : State :=
  { agenda := [], sel := 0, turn := 0, cycle := 0, mem := [], encTag := [], poison := [], bad := [], soft := []
    reqs := [], reps := [], posted := [], unacked := [], qpErr := [], regions := [], sends := [], cnps := 0, served := []
    ctxs := [], queues := [], tasks := [], flocks := [], marks := [], seqNo := 0, nextFlock := 1, nextAge := 0
    nextKey := 1, nextCtx := 1
    drovers := [], cores := [], dies := [], bookings := [], mgmt := Mgmt.reset, trace := Trace.reset }

end Sys2Proof.Machine
end

