-- ==== Sys2Proof/Machine/Base.lean ====
section
/-! DEFINITION. Access to the state: drovers by key (8 x package core + slot), cores, dies, general registers, the fields of
VTY, the event latch, and the lane allocator (R20 to R27, R170). -/
namespace Sys2Proof.Machine

/-! ### Blocks -/

def State.drover (s : State) (key : Nat) : Drover := assocGetD s.drovers Drover.reset key
def State.setDrover (s : State) (key : Nat) (d : Drover) : State := { s with drovers := assocPut s.drovers key d }
/-- The drover that executes. -/
def State.cur (s : State) : Drover := s.drover s.sel
def State.setCur (s : State) (d : Drover) : State := s.setDrover s.sel d
def State.core (s : State) (c : Nat) : Core := assocGetD s.cores Core.reset c
def State.setCore (s : State) (c : Nat) (x : Core) : State := { s with cores := assocPut s.cores c x }
def State.die (s : State) (n : Nat) : Die := assocGetD s.dies Die.reset n
def State.setDie (s : State) (n : Nat) (x : Die) : State := { s with dies := assocPut s.dies n x }

/-- The core, the slot and the die of a drover key (R13). -/
def coreOf (key : Nat) : Nat := key / 8
def slotOf (key : Nat) : Nat := key % 8
def dieOfCore (core : Nat) : Nat := core / 64
def dieOf (key : Nat) : Nat := dieOfCore (coreOf key)

/-- Mesh coordinates of a package core number, and the number of a coordinate (R13). -/
def coreX (core : Nat) : Nat := 8 * ((core / 64) % 2) + core % 8
def coreY (core : Nat) : Nat := 8 * (core / 128) + (core % 64) / 8
def coreAt (x y : Nat) : Nat := 64 * (x / 8 + 2 * (y / 8)) + 8 * (y % 8) + x % 8

/-- The lane link neighbour in direction 1 x + 1, 2 x − 1, 3 y + 1, 4 y − 1; 0 is the core itself (R14, R297). -/
def neighbour (core dir : Nat) : Option Nat :=
  let x := coreX core
  let y := coreY core
  match dir with
  | 0 => some core
  | 1 => if x < 15 then some (coreAt (x + 1) y) else none
  | 2 => if 0 < x then some (coreAt (x - 1) y) else none
  | 3 => if y < 15 then some (coreAt x (y + 1)) else none
  | 4 => if 0 < y then some (coreAt x (y - 1)) else none
  | _ => none

/-- The keys of the drovers on a core. -/
def keysOf (core : Nat) : List Nat := (List.range 8).map (fun i => 8 * core + i)

/-- A slot that holds a drover of a live flock. -/
def Drover.resident (d : Drover) : Bool := d.state != .exited

def State.flock (s : State) (f : Nat) : Option Flock := assocGet s.flocks f
def State.setFlock (s : State) (f : Nat) (x : Flock) : State := { s with flocks := assocPut s.flocks f x }
def State.context (s : State) (c : Nat) : Option Context := assocGet s.ctxs c
def State.task (s : State) (t : Nat) : Option Task := assocGet s.tasks t
def State.setTask (s : State) (t : Nat) (x : Task) : State := { s with tasks := assocPut s.tasks t x }
def State.queue (s : State) (h : Nat) : Option WorkQueue := assocGet s.queues h
def State.setQueue (s : State) (h : Nat) (q : WorkQueue) : State := { s with queues := assocPut s.queues h q }

/-- The keys of the drovers of a flock that still hold a slot, in ascending order. -/
def State.flockKeys (s : State) (f : Nat) : List Nat := (s.drovers.filter (fun e => e.2.flock == f)).map (·.1)

/-- The debug register set of a flock (R418). -/
def State.debug (s : State) (f : Nat) : Debug := ((s.flock f).map (·.dbg)).getD Debug.reset

/-! ### General registers (R38, R39) -/

/-- g0 reads 0. -/
def Drover.getG (d : Drover) (r : Reg) : Word := if r = 0 then 0 else d.g[r.toNat]
/-- A write to g0 does not change it. -/
def Drover.setG (d : Drover) (r : Reg) (v : Word) : Drover := if r = 0 then d else { d with g := d.g.set r.toNat v }

/-! ### VTY (field map of R49, R51, R52) -/

def vtyFmt (v : Word) : Fmt := Fmt.ofCode (v.extractLsb' 0 5).toNat
def vtyMp (v : Word) : Bool := v.getLsbD 5
def vtyPs (v : Word) : Nat := (v.extractLsb' 6 4).toNat
def vtyFwl (v : Word) : Nat := (v.extractLsb' 10 4).toNat
def vtyBl (v : Word) : Nat := (v.extractLsb' 14 4).toNat
def vtyKs (v : Word) : Nat := (v.extractLsb' 18 6).toNat
def vtyRm (v : Word) : Nat := (v.extractLsb' 24 3).toNat
def vtySat (v : Word) : Bool := v.getLsbD 27
def vtyKa (v : Word) : Bool := v.getLsbD 28

/-! ### Lane groups -/

/-- How many groups a mask holds. -/
def popcount (n : Nat) (m : Nat) : Nat := ((List.range n).filter (fun i => m.testBit i)).length
/-- The n lowest set bits of a mask over w bits. -/
def takeLow (w n m : Nat) : Nat := (((List.range w).filter (fun i => m.testBit i)).take n).foldl (fun a i => a + pow2 i) 0
/-- Bits of a that are not in b. -/
def maskMinus (a b : Nat) : Nat := a ^^^ (a &&& b)

def Drover.groups (d : Drover) : Nat := popcount 16 d.lgm.toNat

/-- VLMAX for G groups and width w (R22); 0 for a format without a width. -/
def vlmaxOf (g w : Nat) : Nat := if w = 0 then 0 else g * 64 * (128 / w)
def Drover.vlmax (d : Drover) : Nat := vlmaxOf d.groups (vtyFmt d.vec.vty).width

/-- Keep the low n bits of a row. -/
def keepLow {w : Nat} (r : BitVec w) (n : Nat) : BitVec w := r &&& BitVec.ofNat w (pow2 n - 1)

/-- Migration of the register rectangle when the grant goes from gOld to gNew groups (R23). -/
def Vec.migrate (v : Vec) (gOld gNew : Nat) : Vec :=
  let f := vtyFmt v.vty
  if f.legal then
    let vlm := vlmaxOf gNew f.width
    let l := Nat.min v.vl vlm
    { v with rows := v.rows.map (fun r => keepLow r (l * f.width)), preds := v.preds.map (fun p => keepLow p l), vl := l }
  else
    let h := 64 * Nat.min gOld gNew
    { v with rows := v.rows.map (fun r => keepLow r (h * 128)), preds := v.preds.map (fun p => keepLow p (32 * h)) }

/-- The save rectangle after a spill and a refill (R24, R47): what lies outside it reads zero. A lane holds 32 predicate bits (log 17). -/
def Vec.rect (v : Vec) : Vec :=
  { v with
    rows := Vector.ofFn (fun (i : Fin 256) => if i.val < v.hwmRows then keepLow v.rows[i] (128 * v.hwmLanes) else 0)
    preds := v.preds.map (fun p => keepLow p (32 * v.hwmLanes))
    scales := Vector.ofFn (fun (i : Fin 64) => if i.val < v.hwmK then v.scales[i] else 0)
    accs := Vector.ofFn (fun (i : Fin 4) => if v.hwmAcc.getLsbD i.val then v.accs[i] else 0) }

/-- A rectangle that was spilled is refilled (R24). -/
def Drover.refill (d : Drover) : Drover := if d.spilled then { d with vec := d.vec.rect, spilled := false, dead := true } else d

/-- Give a drover the groups of a mask (R21, R23). The first grant migrates nothing and leaves GC at 0. A grant that changes only which
groups are held, not how many, sets GC and migrates like another: between equal VLMAX that reads the elements at and above VL as zero
(DESIGN CHOICE, log 60). -/
def Drover.grant (d : Drover) (m : BitVec 16) : Drover :=
  let d := d.refill
  let base := { d with lgm := m, parked := m, request := none }
  if !d.granted then { base with granted := true }
  else if m = d.parked then base
  else { base with gc := true, dead := true, vec := d.vec.migrate (popcount 16 d.parked.toNat) (popcount 16 m.toNat) }

/-- The rectangles of a core's drovers, but for one, that are parked in groups now given away go to their save areas (R24, R399, R406). -/
def State.spillParked (s : State) (core but : Nat) (m : BitVec 16) : State :=
  { s with drovers := s.drovers.map (fun e =>
      if e.1 != but && coreOf e.1 == core && e.2.granted && e.2.lgm == 0 && e.2.parked &&& m != 0 then (e.1, { e.2 with spilled := true }) else e) }

/-- A drover is given groups. -/
def State.give (s : State) (key : Nat) (m : BitVec 16) : State :=
  let s := s.spillParked (coreOf key) key m
  s.setDrover key ((s.drover key).grant m)

/-- The booking of a drover that stands in ST 2 or 3 (R327, R333). -/
def State.bookingOf (s : State) (key : Nat) : Option Booking :=
  s.bookings.find? (fun b => b.owner == some key)

/-- The lane groups a booking withholds: those of its lg entries (R328, R329). -/
def Booking.withholds (b : Booking) : Nat := b.entries.foldl (fun a e => if e.cls = 0 then a ||| e.mask else a) 0

/-- The lane groups that bookings other than the drover's own withhold on its core (R328). -/
def State.withheldFrom (s : State) (key : Nat) : Nat :=
  s.bookings.foldl (fun a b => if b.core = coreOf key && b.owner != some key then a ||| b.withholds else a) 0

/-- The lane groups that a drover's chained run holds on a core (R297, R299). -/
def Drover.runUnits (d : Drover) (core : Nat) : Nat :=
  match d.run with
  | some r => assocGetD r.units 0 core
  | none => 0

/-- The lane groups held on a core by its drovers (R19: AWAITING, HALTED and EXITED hold none) and by chained runs. -/
def State.heldOn (s : State) (core : Nat) : Nat :=
  s.drovers.foldl (fun a (e : Nat × Drover) => a ||| e.2.runUnits core) ((keysOf core).foldl (fun a k => a ||| (s.drover k).lgm.toNat) 0)

/-- Groups of a core that no drover and no run holds and no booking of another withholds from a drover (R16, R26, R328). -/
def State.freeFor (s : State) (key : Nat) : Nat :=
  maskMinus (maskMinus 0xFFFF (s.heldOn (coreOf key))) (s.withheldFrom key)

/-- Requests in order of age, ties to the lower slot (R26). -/
def olderRequest (x y : Nat × Nat) : Bool := x.1 < y.1 || (x.1 == y.1 && x.2 ≤ y.2)

/-- The waiting requests on a core other than the drover's own, oldest first (R26). -/
def State.requestsOn (s : State) (core except_ : Nat) : List Nat :=
  let l := (keysOf core).filterMap (fun k =>
    if k = except_ then none else ((s.drover k).request).map (fun a => (a.since, k)))
  (sortBy olderRequest l).map (·.2)

/-- What waiting requests have a first claim to, oldest first: of the free groups each the lowest it may use, up to its minimum (R26). -/
def State.claims (s : State) (waiting : List Nat) (claimed : Nat) : Nat :=
  match waiting with
  | [] => claimed
  | k :: rest => s.claims rest (claimed ||| takeLow 16 (s.drover k).lgMin (maskMinus (s.freeFor k) claimed))

/-- The waiting requests served before the drover: those older than its own, or all where it has none (R26). -/
def State.servedBefore (s : State) (key : Nat) : List Nat :=
  match (s.drover key).request with
  | none => s.requestsOn (coreOf key) key
  | some r => (s.requestsOn (coreOf key) key).filter (fun k =>
      ((s.drover k).request.map (fun a => olderRequest (a.since, k) (r.since, key))).getD false)

/-- The pasture as one drover may use it: free groups that no request served before it claims (R16, R26, R328). -/
def State.pastureFor (s : State) (key : Nat) : Nat := maskMinus (s.freeFor key) (s.claims (s.servedBefore key) 0)

/-- Step 1 of R170: groups the drover holds above its minimum go to waiting requests, oldest first, each up to that request's minimum.
What does not yet reach a request's minimum stands in the pasture, claimed by it (R20, R26). -/
def State.shareSurplus (s : State) (key : Nat) (waiting : List Nat) : State :=
  match waiting with
  | [] => s
  | k :: rest =>
    let d := s.drover key
    let surplus := maskMinus (maskMinus d.lgm.toNat (takeLow 16 d.lgMin d.lgm.toNat)) (d.runUnits (coreOf key))
    let need := (s.drover k).lgMin
    let mine := takeLow 16 need (s.pastureFor k)
    let m := takeLow 16 (need - popcount 16 mine) (maskMinus surplus (s.withheldFrom k))
    let s := s.setDrover key { d with lgm := BitVec.ofNat 16 (maskMinus d.lgm.toNat m) }
    let s := if popcount 16 (mine ||| m) < need || m = 0 then s else s.give k (BitVec.ofNat 16 (mine ||| m))
    s.shareSurplus key rest

/-- Where the groups at hand do not meet a minimum, those of TRAPPED drovers on the core are reassigned (R399); the
rectangle of such a drover stays parked, to be granted afresh. -/
def State.reassign (s : State) (key : Nat) : State :=
  let d := s.drover key
  if popcount 16 (d.lgm.toNat ||| s.pastureFor key) ≥ d.lgMin then s
  else (keysOf (coreOf key)).foldl (fun s k =>
    let x := s.drover k
    if k != key && x.state == .trapped then s.setDrover k { x with lgm := 0 } else s) s

/-- A grant up to a number of groups (R170): the drover keeps what it holds and takes free groups. False when its minimum
cannot be met: then it holds what it held and a request stands (R26). -/
def State.grantTo (s : State) (key cap : Nat) : State × Bool :=
  let s := (s.shareSurplus key (s.requestsOn (coreOf key) key)).reassign key
  let d := s.drover key
  let held := d.lgm.toNat ||| d.runUnits (coreOf key)
  let more := takeLow 16 (cap - popcount 16 held) (s.pastureFor key)
  let m := held ||| more
  if popcount 16 m < d.lgMin then
    match d.request with
    | some _ => (s, false)
    | none => (s.setDrover key { d with request := some ⟨s.cycle, cap⟩ }, false)
  else (s.give key (BitVec.ofNat 16 m), true)

/-- A grant point of the drover (R21, R170): up to its maximum, or as far as its standing request goes (R169). -/
def State.grantPoint (s : State) (key : Nat) : State × Bool :=
  s.grantTo key (((s.drover key).request.map (·.cap)).getD (s.drover key).lgMax)

/-- The grant at resumption after a booked start: exactly the booked groups, when an lg entry is held (R335). Several lg entries of one
booking may together exceed the TCB's maximum: R335's exact groups are granted, over R20's bound (DESIGN CHOICE, log 61). -/
def State.grantBooked (s : State) (key : Nat) : State × Bool :=
  match s.bookingOf key with
  | some b =>
    if b.withholds = 0 then s.grantPoint key
    else (s.give key (BitVec.ofNat 16 b.withholds), true)
  | none => s.grantPoint key

/-! ### The instruction in progress -/

/-- The address of the instruction the drover issues: the word after the REP while one is in progress (R154). -/
def Drover.iaddr (d : Drover) : Word := if d.reps.go then d.pc + 4 else d.pc

/-- The bits ESR.RST, ESR.REP and ESR.CHB, 2 to 4. -/
def esrResume : Word := 0x1C

/-- The marks of a resumed instruction fall, and the bits of ESR that R59 names are cleared. -/
def Drover.issued (d : Drover) : Drover :=
  { d with resume := false, viaEret := false
           tr := if d.viaEret then { d.tr with esr := d.tr.esr &&& ~~~esrResume }
                 else if d.resume then { d.tr with esr := d.tr.esr &&& ~~~(4 : Word) } else d.tr }

/-- Completion of the issuing instruction: the pc moves past it, or the next iteration of a REP stands next (R155);
the bits of ESR that R59 names are cleared once a resumed instruction has issued. -/
def Drover.retire (d : Drover) : Drover :=
  let d := { d.issued with stall := none, restart := 0, raised := false, atHandler := false, skip1 := false, again := false, repBack := false, stepped := d.stepping, tileUse := none }
  if d.reps.go then
    if d.reps.cnt ≤ 1 then { d with reps := { d.reps with act := false, go := false }, pc := d.pc + 8 }
    else { d with reps := { d.reps with cnt := d.reps.cnt - 1 } }
  else { d with pc := d.pc + 4 }

/-- Completion with a jump. -/
def Drover.retireTo (d : Drover) (target : Word) : Drover := { d.retire with pc := target }

/-- Not ready under R17, for a reason of R425: nothing else changes. -/
def Drover.stalled (d : Drover) (reason : Nat) : Drover := { d with stall := some reason }

/-! ### Waiting and the event latch (R148, R149) -/

/-- A waiting drover resumes: its instruction completes, and it is granted afresh where it held a grant (R24). -/
def State.wake (s : State) (key : Nat) : State :=
  let d := s.drover key
  let s := s.setDrover key { d.retire with state := .issuing, wait := none }
  if d.granted then (s.grantPoint key).1 else s

/-- The drover enters AWAITING: its lane groups return to the pasture, its rectangle stays parked (R24). -/
def Drover.await (d : Drover) (w : WaitOn) : Drover := { d with state := .awaiting, wait := some w, lgm := 0, stall := none }

/-- An event sets its bit; a WAIT that the latch now meets clears those bits and resumes (R148, R149). -/
def State.latch (s : State) (key : Nat) (bit : Nat) : State :=
  let d := s.drover key
  if d.resident then
    let l := d.latch ||| BitVec.ofNat 5 (pow2 bit)
    match d.state, d.wait with
    | .awaiting, some (.event m) =>
      if l &&& m = 0 then s.setDrover key { d with latch := l }
      else (s.setDrover key { d with latch := l &&& ~~~m }).wake key
    | _, _ => s.setDrover key { d with latch := l }
  else s

/-- Events CPY, CHN, BKG, SRS, SIB (R148). -/
def evCpy : Nat := 0
def evChn : Nat := 1
def evBkg : Nat := 2
def evSrs : Nat := 3
def evSib : Nat := 4

/-- SIB for every other drover of the flock on the same core (R148). -/
def State.latchSiblings (s : State) (key : Nat) : State :=
  (keysOf (coreOf key)).foldl (fun s k =>
    if k != key && (s.drover k).resident && (s.drover k).flock == (s.drover key).flock then s.latch k evSib else s) s

end Sys2Proof.Machine
end

