-- ==== Sys2Proof/Machine/Forms.lean ====
section
/-! DEFINITION. The element functions of majors 0x21 to 0x2D, 0x2F and of TURN: what each form reads, which formats it takes
and what it writes to an element (R157 to R198, R324). Instructions and chain nodes run these same forms. -/
namespace Sys2Proof.Machine

/-- What an element step reads beside its elements: VTY's fields (R51, R60, R71, R82, R162). -/
structure Mode where
  fmt : Fmt
  dst : Fmt
  rm : Nat
  sat : Bool
  ka : Bool
  bl : Nat
  deriving DecidableEq, Repr

/-- The operands of an instruction: elements by index, the governing predicate `p`, activity, a scalar, scale entries. -/
structure Env where
  m : Mode
  vl : Nat
  act : Nat → Bool
  p : Nat → Bool
  b : Nat → Nat
  c : Nat → Nat
  d : Nat → Nat
  s : Word
  t : Word
  k : Nat → Nat

/-- How a form works on its elements. -/
inductive Body where
  /-- d[i] := result, for the elements the first argument names; `zero`: the others follow VTY.MP (R159). -/
  | map (act : Env → Nat → Bool) (zero : Bool) (res : Env → Nat → Nat × FlagSet)
  /-- a fold of R86 over codes -/
  | fold (op : Mode → Nat → Nat → Nat × FlagSet)
  /-- a fold whose elements are scaled when VTY.KA is 1 (VRFSUM, VRFMIN, VRFMAX): which of the three -/
  | ffold (which : Nat)
  /-- an inclusive scan of R89: the carry and the element -/
  | scan (op : Env → Nat → Nat → Nat × FlagSet)
  /-- the recurrence of R90 -/
  | scanlin

/-- How field b or c is used: not at all, a vector row, a g register, an immediate, the seed row of a reduction, the carry row
of a scan. -/
inductive FieldUse where
  | none | row | g | imm | seed | carry
  deriving DecidableEq, Repr

/-- A form. `reads` names the elements of vb that element i's step reads, `scaleIn` whether it reads scale entries without KA. `bad` gives further RESCOMB conditions from VTY, VL and the scalar; `scaled` whether KA scales it; `rmUsed` whether
it uses VTY.RM. -/
structure VForm where
  useB : FieldUse
  useC : FieldUse
  readsD : Bool
  dstPred : Bool
  cross : Bool
  whole : Bool
  usesP : Bool
  fmt : Fmt → Bool
  dst : Fmt → Fmt
  bad : Word → Nat → Word → Bool
  scaled : Bool
  rmUsed : Word → Bool
  reads : Env → Nat → List Nat
  scaleIn : Bool
  body : Body

/-! ### Format sets (R166) -/

def anyFmt (f : Fmt) : Bool := f.legal
def fVfu (f : Fmt) : Bool := f == .f16 || f == .bf16 || f == .f32

/-! ### Builders -/

def noBad : Word → Nat → Word → Bool := fun _ _ _ => false

/-- An element-wise form on rows vb and vc, or vb and a scalar. -/
def VForm.base (useC : FieldUse) (fmt : Fmt → Bool) (body : Body) : VForm :=
  { useB := .row, useC := useC, readsD := false, dstPred := false, cross := false, whole := false, usesP := false
    fmt := fmt, dst := id, bad := noBad, scaled := false, rmUsed := fun _ => false, reads := fun _ i => [i], scaleIn := false
    body := body }

/-- A body that maps every active element. -/
def mapActive (res : Env → Nat → Nat × FlagSet) : Body := .map (fun e i => e.act i) true res

/-- An integer member of R174 or R176: the value from format, d, b, c, reduced modulo 2^w. -/
def intForm (useC : FieldUse) (f : Fmt → Nat → Nat → Nat → Int) : VForm :=
  VForm.base useC Fmt.isInt8 (mapActive (fun e i => (wrapTo e.m.fmt.width (f e.m.fmt (e.d i) (e.b i) (e.c i)), flNone)))

/-- n(v) of R174. -/
def nOf (f : Fmt) (v : Nat) : Int := toSigned f.width v

/-- VDIV, VDIVU, VREM, VREMU (R174, R175). -/
def vDiv (f : Fmt) (b c : Nat) : Int := if c = 0 then -1 else (nOf f b).tdiv (nOf f c)
def vDivu (b c : Nat) : Int := if c = 0 then -1 else ((b / c : Nat) : Int)
def vRem (f : Fmt) (b c : Nat) : Int := if c = 0 then (b : Int) else (nOf f b).tmod (nOf f c)
def vRemu (b c : Nat) : Int := if c = 0 then (b : Int) else ((b % c : Nat) : Int)

/-- VIA and VIAS, fn 0 to 14 (R174). -/
def formVia (fn : Nat) (useC : FieldUse) : VForm :=
  let F := fun f => intForm useC f
  match fn with
  | 0 => F (fun _ _ b c => (b : Int) + c)
  | 1 => F (fun _ _ b c => (b : Int) - c)
  | 2 => F (fun _ _ b c => (c : Int) - b)
  | 3 => F (fun _ _ b c => (b : Int) * c)
  | 4 => F (fun f _ b c => (nOf f b * nOf f c) / ((pow2 f.width : Nat) : Int))
  | 5 => F (fun f _ b c => ((b : Int) * c) / ((pow2 f.width : Nat) : Int))
  | 6 => { F (fun _ d b c => (d : Int) + (b : Int) * c) with readsD := true }
  | 7 => { F (fun _ d b c => (d : Int) - (b : Int) * c) with readsD := true }
  | 8 => F (fun f _ b c => vDiv f b c)
  | 9 => F (fun _ _ b c => vDivu b c)
  | 10 => F (fun f _ b c => vRem f b c)
  | 11 => F (fun _ _ b c => vRemu b c)
  | 12 => F (fun f _ b c => f.clamp (f.intOf b + f.intOf c))
  | 13 => F (fun f _ b c => f.clamp (f.intOf b - f.intOf c))
  | _ => F (fun f _ b c => ((f.intOf b - f.intOf c).natAbs : Int))

/-- x AND NOT y of natural numbers. -/
def andNot (x y : Nat) : Nat := x ^^^ (x &&& y)

/-- VIB and VIBS, fn 0 to 10 and 12 (R176). -/
def formVib (fn : Nat) (useC : FieldUse) : VForm :=
  let F := fun f => intForm useC f
  match fn with
  | 0 => F (fun _ _ b c => ((b &&& c : Nat) : Int))
  | 1 => F (fun _ _ b c => ((b ||| c : Nat) : Int))
  | 2 => F (fun _ _ b c => ((b ^^^ c : Nat) : Int))
  | 3 => F (fun _ _ b c => ((andNot b c : Nat) : Int))
  | 4 => F (fun f _ b c => ((b * pow2 (c % f.width) : Nat) : Int))
  | 5 => F (fun f _ b c => ((b / pow2 (c % f.width) : Nat) : Int))
  | 6 => F (fun f _ b c => nOf f b / ((pow2 (c % f.width) : Nat) : Int))
  | 7 => F (fun f _ b c => if nOf f b ≤ nOf f c then (b : Int) else c)
  | 8 => F (fun f _ b c => if nOf f b ≥ nOf f c then (b : Int) else c)
  | 9 => F (fun _ _ b c => if b ≤ c then (b : Int) else c)
  | 10 => F (fun _ _ b c => if b ≥ c then (b : Int) else c)
  | _ => { VForm.base useC anyFmt (mapActive (fun e i => (e.c i, flNone))) with useB := .none }

/-- VSEL: every element is active, bit i of p[VTY.PS] chooses (R177). -/
def formVsel (useC : FieldUse) : VForm :=
  { VForm.base useC anyFmt (.map (fun _ _ => true) true (fun e i => (if e.p i then e.b i else e.c i, flNone))) with usesP := true }

/-- sext(imm8, 8) as an integer (R178). -/
def imm8s (s : Word) : Int := toSigned 8 (s.toNat % 256)
def imm8z (s : Word) : Nat := s.toNat % 256

/-- VIMM, fn3 0 to 6 (R178, R179). -/
def formVimm (fn3 : Nat) : VForm :=
  let F := fun (f : Fmt → Nat → Word → Int) =>
    VForm.base .imm Fmt.isInt8 (mapActive (fun e i => (wrapTo e.m.fmt.width (f e.m.fmt (e.b i) e.s), flNone)))
  let shift := fun (v : VForm) => { v with bad := fun vty _ s => decide (imm8z s ≥ (vtyFmt vty).width) }
  match fn3 with
  | 0 => F (fun _ b s => (b : Int) + imm8s s)
  | 1 => F (fun _ b s => (b : Int) * imm8s s)
  | 2 => shift (F (fun _ b s => ((b * pow2 (imm8z s) : Nat) : Int)))
  | 3 => shift (F (fun _ b s => ((b / pow2 (imm8z s) : Nat) : Int)))
  | 4 => shift (F (fun f b s => nOf f b / ((pow2 (imm8z s) : Nat) : Int)))
  | 5 => F (fun f b s => ((b &&& wrapTo f.width (imm8s s) : Nat) : Int))
  | _ => F (fun f b s => ((b ||| wrapTo f.width (imm8s s) : Nat) : Int))

/-- VLI: the immediate converted exactly (R178, R179). -/
def formVli : VForm :=
  { VForm.base .imm (fun f => f.isInt8 || f.isIeee)
      (mapActive (fun e _ => (if e.m.fmt.isInt8 then wrapTo e.m.fmt.width (imm8s e.s) else (roundInt e.m.fmt rmRNE (imm8s e.s) 0 false).1, flNone)))
    with useB := .none }

/-! ### Floating point -/

/-- Source b or c as an operand, scaled when VTY.KA is 1 (R70, R162). -/
def Env.opB (e : Env) (i : Nat) : Operand :=
  let o := floatOperand e.m.fmt e.m.fmt (e.b i)
  if e.m.ka then o.scale e.m.fmt (e.k i) else o
def Env.opC (e : Env) (scaleC : Bool) (i : Nat) : Operand :=
  let o := floatOperand e.m.fmt e.m.fmt (e.c i)
  if e.m.ka && scaleC then o.scale e.m.fmt (e.k i) else o
def Env.opD (e : Env) (i : Nat) : Operand := floatOperand e.m.fmt e.m.fmt (e.d i)

/-- The choice of VFMIN and VFMAX among operands, with the flags of reading them (R181). -/
def minMaxOp (isMax : Bool) (b c : Operand) : Operand × FlagSet :=
  let ifl := inputFlags [b, c]
  let r := if minMaxSecond isMax b.val c.val then c else b
  (if b.val.isNaN && c.val.isNaN then { b with snan := false } else r, ifl)

/-- VFMIN and VFMAX of R181; the chosen operand's code, or with scaling its value rounded once. -/
def minMaxRes (isMax : Bool) (e : Env) (scaleC : Bool) (i : Nat) : Nat × FlagSet :=
  let b := e.opB i
  let c := e.opC scaleC i
  let (r, ifl) := minMaxOp isMax b c
  if e.m.ka then let q := roundValue e.m.fmt e.m.rm r.nan r.val; (q.1, ifl ||| q.2)
  else if b.val.isNaN && c.val.isNaN then (b.nan, ifl)
  else (if minMaxSecond isMax b.val c.val then e.c i else e.b i, ifl)

/-- b with the sign bit of c (R180, fn 9). -/
def signOf (f : Fmt) (b c : Nat) : Nat :=
  let top := pow2 (f.width - 1)
  b % top + (if c / top % 2 = 1 then top else 0)

/-- VFA and VFAS, fn 0 to 9 (R180, R181). -/
def formVfa (fn : Nat) (useC : FieldUse) : VForm :=
  let sc := useC == .row
  let F := fun (f : Env → Nat → Nat × FlagSet) =>
    { VForm.base useC Fmt.isIeee (mapActive f) with scaled := true, rmUsed := fun _ => true }
  match fn with
  | 0 => F (fun e i => fAdd e.m.fmt e.m.rm (e.opB i) (e.opC sc i))
  | 1 => F (fun e i => fSub e.m.fmt e.m.rm (e.opB i) (e.opC sc i))
  | 2 => F (fun e i => fMul e.m.fmt e.m.rm (e.opB i) (e.opC sc i))
  | 3 => { F (fun e i => fFma e.m.fmt e.m.rm (e.opB i) (e.opC sc i) (e.opD i)) with readsD := true }
  | 4 => { F (fun e i => fFms e.m.fmt e.m.rm (e.opB i) (e.opC sc i) (e.opD i)) with readsD := true }
  | 5 => { F (fun e i => fFnma e.m.fmt e.m.rm (e.opB i) (e.opC sc i) (e.opD i)) with readsD := true }
  | 6 => F (fun e i => fDiv e.m.fmt e.m.rm (e.opB i) (e.opC sc i))
  | 7 => { F (fun e i => minMaxRes false e sc i) with rmUsed := vtyKa }
  | 8 => { F (fun e i => minMaxRes true e sc i) with rmUsed := vtyKa }
  | _ => { F (fun e i => (signOf e.m.fmt (e.b i) (e.c i), flNone)) with scaled := false, rmUsed := fun _ => false }

/-- The input a special function's free value is a function of: the code, and the scale entry where one applies. -/
def Env.vfuCode (e : Env) (i : Nat) : Nat := e.b i + (if e.m.ka then pow2 e.m.fmt.width * (e.k i + 1) else 0)

/-- VFU, fn 0 to 12 (R182 to R185). -/
def formVfu (fn : Nat) : VForm :=
  let fmt := if 3 ≤ fn && fn ≤ 8 then fVfu else Fmt.isIeee
  let F := fun (f : Env → Nat → Nat × FlagSet) => VForm.base .none fmt (mapActive f)
  match fn with
  | 9 => F (fun e i => (e.b i % pow2 (e.m.fmt.width - 1), flNone))
  | 10 => F (fun e i => (e.b i ^^^ pow2 (e.m.fmt.width - 1), flNone))
  | 11 => F (fun e i => (vfClass e.m.fmt (e.b i), flNone))
  | 12 => { F (fun e i => vfRound e.m.fmt e.m.rm (e.opB i)) with scaled := true, rmUsed := fun _ => true }
  | _ => { F (fun e i => vfuFn fn e.m.fmt e.m.rm (e.vfuCode i) (e.opB i)) with
      scaled := true, rmUsed := fun v => fn == 0 || (fn ≤ 2 && vtyFmt v != .f32 && vtyFmt v != .f64) }

/-! ### Compares -/

/-- VCMP and VCMPS (R186). -/
def formVcmp (cond : Nat) (useC : FieldUse) : VForm :=
  let F := fun (f : Fmt → Nat → Nat → Bool) =>
    { VForm.base useC Fmt.isInt8 (mapActive (fun e i => ((f e.m.fmt (e.b i) (e.c i)).toNat, flNone))) with dstPred := true }
  match cond with
  | 0 => F (fun _ b c => b == c)
  | 1 => F (fun _ b c => b != c)
  | 2 => F (fun f b c => decide (nOf f b < nOf f c))
  | 3 => F (fun f b c => decide (nOf f b ≥ nOf f c))
  | 4 => F (fun _ b c => decide (b < c))
  | _ => F (fun _ b c => decide (b ≥ c))

/-- VFCMP (R187). -/
def vfcmp (cond : Nat) (b c : Operand) : Nat × FlagSet :=
  let nan := b.val.isNaN || c.val.isNaN
  let dn := if b.sub || c.sub then flDN else flNone
  let quiet := if b.snan || c.snan then flNV else flNone
  let any := if nan then flNV else flNone
  match cond with
  | 0 => ((eqValue b.val c.val).toNat, dn ||| quiet)
  | 1 => ((!eqValue b.val c.val).toNat, dn ||| quiet)
  | 2 => ((!nan && ltValue b.val c.val).toNat, dn ||| any)
  | 3 => ((!nan && (ltValue b.val c.val || eqValue b.val c.val)).toNat, dn ||| any)
  | 4 => (nan.toNat, dn ||| quiet)
  | _ => ((!nan).toNat, dn ||| quiet)

def formVfcmp (cond : Nat) : VForm :=
  { VForm.base .row Fmt.isIeee (mapActive (fun e i => vfcmp cond (e.opB i) (e.opC true i))) with dstPred := true, scaled := true }

/-! ### Conversions (R188 to R191) -/

/-- The exact conversions of R78, which use no rounding. -/
def exactCvt (s d : Fmt) : Bool :=
  s == d || (s.isFloat && !(s == .f64) && d == .f32) || (s.isFloat && d == .f64) ||
  ((s == .h8 || s == .g8 || s == .i4x) && (d == .f16 || d == .bf16)) || ((s == .i4 || s == .i4x) && d == .h8)

def cvtUsesRm (s d : Fmt) : Bool := !(s.isInt && d.isInt) && !exactCvt s d

/-- An I4X slot, decoded from its aligned group as stored (R66). -/
def Env.slot (e : Env) (i : Nat) : Slot :=
  let g := i / 4 * 4
  decodeSlot (e.b g) (e.b (g + 1)) (e.b (g + 2)) (e.b (g + 3)) (i % 4)

/-- One converted element. -/
def cvtRes (e : Env) (i : Nat) : Nat × FlagSet :=
  if e.m.fmt == .i4x then (e.slot i).convert e.m.dst e.m.rm else convertElem e.m.fmt e.m.dst e.m.rm e.m.sat (e.b i)

/-- One converted element of VCVTK: multiplied by its scale first (R188, R190). -/
def cvtkRes (e : Env) (i : Nat) : Nat × FlagSet :=
  if e.m.fmt == .i4x then
    let sl := e.slot i
    let r := convertScaled e.m.dst e.m.rm (e.k i) (defaultNaN e.m.dst) sl.val
    (r.1, r.2 ||| (if sl.fe then flFE else flNone))
  else convertScaled e.m.dst e.m.rm (e.k i) (convertNaN e.m.fmt e.m.dst (e.b i)) (floatValue e.m.fmt (e.b i))

/-- VWID's and VNAR's destination; ILL where the table has none (R191). -/
def widFmt (f : Fmt) : Fmt :=
  match f with
  | .i4 => .i8 | .i8 => .i16 | .n8 => .n16 | .i16 => .i32 | .n16 => .n32 | .i32 => .i64 | .n32 => .n64
  | .h8 | .g8 => .f16 | .i4x => .h8 | .f16 | .bf16 => .f32 | .f32 => .f64 | _ => .ill
def narFmt (f : Fmt) : Fmt :=
  match f with
  | .i8 => .i4 | .i16 => .i8 | .n16 => .n8 | .i32 => .i16 | .n32 => .n16 | .i64 => .i32 | .n64 => .n32
  | .f16 => .h8 | .f32 => .f16 | .f64 => .f32 | _ => .ill

/-- A conversion reads its element, of I4X the whole group of its slot (R66). -/
def slotReads (e : Env) (i : Nat) : List Nat := if e.m.fmt == .i4x then (List.range 4).map (fun k => i / 4 * 4 + k) else [i]

/-- A conversion into the format `dst` gives: cross-lane where the widths differ. -/
def formCvt (dst : Fmt → Fmt) : VForm :=
  { VForm.base .none (fun f => f.legal && (dst f).legal && dst f != .i4x) (mapActive cvtRes) with
    dst := dst, rmUsed := fun v => cvtUsesRm (vtyFmt v) (dst (vtyFmt v)), reads := slotReads }

/-- VCVTK into a format (R190). -/
def formCvtk (d : Fmt) : VForm :=
  { VForm.base .none (fun f => f.legal && d.legal && d != .i4x && !f.isInt && !d.isInt) (mapActive cvtkRes) with
    dst := fun _ => d, rmUsed := fun _ => true, reads := slotReads, scaleIn := true
    bad := fun v vl _ => decide (vl > 0) && decide ((vl - 1) / pow2 (vtyBl v) ≥ 512) }

/-! ### Permutes (R192, R193, R324) -/

/-- A source element, 0 at or above VL (R163). -/
def Env.bz (e : Env) (i : Nat) : Nat := if i < e.vl then e.b i else 0
/-- Active elements below i. -/
def Env.below (e : Env) (i : Nat) : Nat := ((List.range i).filter (fun j => e.act j)).length

def isPow2 (n : Nat) : Bool := n != 0 && n == pow2 n.log2

/-- A form whose element i is an element of vb, if any; one at or above VL reads as 0 (R163). -/
def permForm (useC : FieldUse) (src : Env → Nat → Option Nat) : VForm :=
  { VForm.base useC anyFmt (mapActive (fun e i => (((src e i).map e.bz).getD 0, flNone))) with
    cross := true, reads := fun e i => ((src e i).filter (fun j => decide (j < e.vl))).toList }

/-- VPRM fn 0 to 5, 7 to 11, and TURN as 16. VXCH's distance arrives as the scalar. -/
def formVprm (fn : Nat) : VForm :=
  match fn with
  | 0 => { permForm .g (fun e i => some (i ^^^ e.s.toNat)) with bad := fun _ _ s => !isPow2 s.toNat }
  | 1 => permForm .imm (fun e i => some (i ^^^ e.s.toNat))
  | 2 => permForm .g (fun e i => if i ≥ e.s.toNat then some (i - e.s.toNat) else none)
  | 3 => permForm .g (fun e i => some (i + e.s.toNat))
  | 4 => permForm .row (fun e i => some (e.c i))
  | 5 => permForm .g (fun e _ => some e.s.toNat)
  | 7 => { VForm.base .g anyFmt (.map (fun e i => decide (i = e.s.toNat) && e.act i) false
            (fun e _ => (e.t.toNat % pow2 e.m.fmt.width, flNone))) with useB := .g }
  | 8 => { permForm .none (fun e i => ((List.range e.vl).filter (fun j => e.act j))[i]?) with
            whole := true
            body := .map (fun e i => decide (i < e.below e.vl)) true
              (fun e i => (((((List.range e.vl).filter (fun j => e.act j))[i]?).map e.b).getD 0, flNone)) }
  | 9 => { permForm .none (fun e i => some (e.below i)) with whole := true }
  | 10 => { VForm.base .none Fmt.isInt8 (mapActive (fun e i => (e.below i % pow2 e.m.fmt.width, flNone))) with
            useB := .none, whole := true }
  | 16 => { permForm .g (fun e i =>
              let n := e.s.toNat
              some (i / (n * n) * (n * n) + (i % n) * n + (i / n) % n)) with
            fmt := fun f => f.legal && f.width != 4
            bad := fun _ _ s => !(s == 1 || s == 2 || s == 4 || s == 8) }
  | _ => permForm .none (fun e i => some (e.vl - 1 - i))

/-! ### Reductions and scans (R86 to R90, R195 to R198) -/

/-- An element enters its partial (R86). -/
def foldIn {α : Type} (op : α → α → α × FlagSet) (fw : Nat) (part : List (Option α)) (i : Nat) (x : α) :
    List (Option α) × FlagSet :=
  let p := i % fw
  match part.getD p none with
  | none => (part.set p (some x), flNone)
  | some y => let r := op y x; (part.set p (some r.1), r.2)

/-- One halving of the partials (R86). -/
def foldHalf {α : Type} (op : α → α → α × FlagSet) (s : Nat) (part : List (Option α)) : List (Option α) × List FlagSet :=
  (List.range s).foldl (fun (acc : List (Option α) × List FlagSet) p =>
    match acc.1.getD (p + s) none, acc.1.getD p none with
    | none, _ => acc
    | some y, none => (acc.1.set p (some y), acc.2)
    | some y, some x => let r := op x y; (acc.1.set p (some r.1), acc.2 ++ [r.2])) (part, [])

/-- All halvings from 2^fwl down. -/
def foldTree {α : Type} (op : α → α → α × FlagSet) (fwl : Nat) (part : List (Option α)) : List (Option α) × List FlagSet :=
  match fwl with
  | 0 => (part, [])
  | k + 1 => let r := foldHalf op (pow2 k) part; let q := foldTree op k r.1; (q.1, r.2 ++ q.2)

/-- The fold and the seed step: the result, or none when no element was active, and the flags in order (R86, R87). -/
def foldOut {α : Type} (op : α → α → α × FlagSet) (fwl : Nat) (part : List (Option α)) (seed : α) : Option α × List FlagSet :=
  let r := foldTree op fwl part
  match r.1.getD 0 none with
  | none => (none, r.2)
  | some x => let q := op x seed; (some q.1, r.2 ++ [q.2])

/-- Integer operations of VRED, fn 0 to 7 (R195). -/
def redInt (fn : Nat) (m : Mode) (x y : Nat) : Nat × FlagSet :=
  let f := m.fmt
  (match fn with
    | 0 => wrapTo f.width ((x : Int) + y)
    | 1 => if nOf f x ≤ nOf f y then x else y
    | 2 => if nOf f x ≥ nOf f y then x else y
    | 3 => if x ≤ y then x else y
    | 4 => if x ≥ y then x else y
    | 5 => x &&& y
    | 6 => x ||| y
    | _ => x ^^^ y, flNone)

/-- The operation of VRFSUM, VRFMIN or VRFMAX (8, 9, 10) on operands, exact for the last two (R181, R195). A subnormal partial raises DN
as a subnormal input does, and so do a subnormal carry of a scan and running value of a small-matrix step: R76 says so of inputs, R84 the
contrary of the MXOA accumulator alone (DESIGN CHOICE, log 66). -/
def redFloat (which : Nat) (m : Mode) (x y : Operand) : Operand × FlagSet :=
  if which = 8 then let r := fAdd m.fmt m.rm x y; (floatOperand m.fmt m.fmt r.1, r.2)
  else minMaxOp (which == 10) x y

/-- The same on codes, without scaling; a subnormal partial raises DN (log 66). -/
def redCode (which : Nat) (m : Mode) (x y : Nat) : Nat × FlagSet :=
  let ox := floatOperand m.fmt m.fmt x
  let oy := floatOperand m.fmt m.fmt y
  if which = 8 then fAdd m.fmt m.rm ox oy
  else
    let ifl := inputFlags [ox, oy]
    if ox.val.isNaN && oy.val.isNaN then (ox.nan, ifl)
    else (if minMaxSecond (which == 10) ox.val oy.val then y else x, ifl)

/-- The operation of a fold on codes. -/
def Body.codeOp (b : Body) (m : Mode) : Nat → Nat → Nat × FlagSet :=
  match b with
  | .fold op => op m
  | .ffold which => redCode which m
  | _ => fun x _ => (x, flNone)

/-- One step of a form at element i, with the carries of a scan: the value, the flags, the carries (R89, R90). -/
def Body.step (B : Body) (e : Env) (cr : List (Nat × Nat)) (i : Nat) : Nat × FlagSet × List (Nat × Nat) :=
  match B with
  | .map _ _ res => let r := res e i; (r.1, r.2, cr)
  | .scan op => let r := op e (assocGetD cr (e.c 0) 0) i; (r.1, r.2, assocPut cr 0 r.1)
  | .scanlin =>
    let j := i / pow2 e.m.bl
    let h := assocGetD cr (e.c j) j
    let r := fFma e.m.fmt e.m.rm (floatOperand e.m.fmt e.m.fmt (e.b i)) (floatOperand e.m.fmt e.m.fmt h) (e.opD i)
    (r.1, r.2, assocPut cr j r.1)
  | _ => (0, flNone, cr)

/-- Which elements a form writes a result to, and whether the others follow VTY.MP. -/
def Body.acts (B : Body) (e : Env) (i : Nat) : Bool :=
  match B with
  | .map act _ _ => act e i
  | _ => e.act i
def Body.zeroing (B : Body) : Bool :=
  match B with
  | .map _ z _ => z
  | _ => true

def scanAdd (e : Env) (carry i : Nat) : Nat × FlagSet := (wrapTo e.m.fmt.width ((carry : Int) + e.b i), flNone)
def scanFadd (e : Env) (carry i : Nat) : Nat × FlagSet := fAdd e.m.fmt e.m.rm (floatOperand e.m.fmt e.m.fmt carry) (e.opB i)

/-- VRED fn 0 to 13. -/
def formVred (fn : Nat) : VForm :=
  if fn ≤ 7 then
    { VForm.base .seed Fmt.isInt8 (.fold (redInt fn)) with whole := true, bad := fun v _ _ => decide (vtyFwl v > 10) }
  else if fn ≤ 10 then
    { VForm.base .seed Fmt.isIeee (.ffold fn) with
      whole := true, bad := fun v _ _ => decide (vtyFwl v > 10), scaled := true, rmUsed := fun v => fn == 8 || vtyKa v }
  else if fn = 11 then VForm.base .carry Fmt.isInt8 (.scan scanAdd)
  else if fn = 12 then { VForm.base .carry Fmt.isIeee (.scan scanFadd) with scaled := true, rmUsed := fun _ => true }
  else { VForm.base .carry Fmt.isIeee .scanlin with readsD := true, bad := fun v _ _ => vtyKa v, rmUsed := fun _ => true }

end Sys2Proof.Machine
end

