-- ==== Sys2Proof/Machine/FormTable.lean ====
section
/-! DEFINITION. Which form each word of majors 0x21 to 0x2D, 0x2F and TURN has, and which kind of chain node each word can become
(R296, R318). -/
namespace Sys2Proof.Machine

/-- The form of a row; the word supplies a conversion's destination format. -/
def formOf (r : Row) (w : BitVec 32) : Option VForm :=
  match r with
  | .vadd => some (formVia 0 .row)
  | .vaddS => some (formVia 0 .g)
  | .vsub => some (formVia 1 .row)
  | .vsubS => some (formVia 1 .g)
  | .vrsub => some (formVia 2 .row)
  | .vrsubS => some (formVia 2 .g)
  | .vmul => some (formVia 3 .row)
  | .vmulS => some (formVia 3 .g)
  | .vmulh => some (formVia 4 .row)
  | .vmulhS => some (formVia 4 .g)
  | .vmulhu => some (formVia 5 .row)
  | .vmulhuS => some (formVia 5 .g)
  | .vmacc => some (formVia 6 .row)
  | .vmaccS => some (formVia 6 .g)
  | .vnmsac => some (formVia 7 .row)
  | .vnmsacS => some (formVia 7 .g)
  | .vdiv => some (formVia 8 .row)
  | .vdivS => some (formVia 8 .g)
  | .vdivu => some (formVia 9 .row)
  | .vdivuS => some (formVia 9 .g)
  | .vrem => some (formVia 10 .row)
  | .vremS => some (formVia 10 .g)
  | .vremu => some (formVia 11 .row)
  | .vremuS => some (formVia 11 .g)
  | .vsadd => some (formVia 12 .row)
  | .vsaddS => some (formVia 12 .g)
  | .vssub => some (formVia 13 .row)
  | .vssubS => some (formVia 13 .g)
  | .vabsd => some (formVia 14 .row)
  | .vabsdS => some (formVia 14 .g)
  | .vand => some (formVib 0 .row)
  | .vandS => some (formVib 0 .g)
  | .vor => some (formVib 1 .row)
  | .vorS => some (formVib 1 .g)
  | .vxor => some (formVib 2 .row)
  | .vxorS => some (formVib 2 .g)
  | .vandn => some (formVib 3 .row)
  | .vandnS => some (formVib 3 .g)
  | .vshl => some (formVib 4 .row)
  | .vshlS => some (formVib 4 .g)
  | .vshr => some (formVib 5 .row)
  | .vshrS => some (formVib 5 .g)
  | .vsra => some (formVib 6 .row)
  | .vsraS => some (formVib 6 .g)
  | .vmin => some (formVib 7 .row)
  | .vminS => some (formVib 7 .g)
  | .vmax => some (formVib 8 .row)
  | .vmaxS => some (formVib 8 .g)
  | .vminu => some (formVib 9 .row)
  | .vminuS => some (formVib 9 .g)
  | .vmaxu => some (formVib 10 .row)
  | .vmaxuS => some (formVib 10 .g)
  | .vsel => some (formVsel .row)
  | .vselS => some (formVsel .g)
  | .vmov => some (formVib 12 .row)
  | .vmovS => some (formVib 12 .g)
  | .vfadd => some (formVfa 0 .row)
  | .vfaddS => some (formVfa 0 .g)
  | .vfsub => some (formVfa 1 .row)
  | .vfsubS => some (formVfa 1 .g)
  | .vfmul => some (formVfa 2 .row)
  | .vfmulS => some (formVfa 2 .g)
  | .vfma => some (formVfa 3 .row)
  | .vfmaS => some (formVfa 3 .g)
  | .vfms => some (formVfa 4 .row)
  | .vfmsS => some (formVfa 4 .g)
  | .vfnma => some (formVfa 5 .row)
  | .vfnmaS => some (formVfa 5 .g)
  | .vfdiv => some (formVfa 6 .row)
  | .vfdivS => some (formVfa 6 .g)
  | .vfmin => some (formVfa 7 .row)
  | .vfminS => some (formVfa 7 .g)
  | .vfmax => some (formVfa 8 .row)
  | .vfmaxS => some (formVfa 8 .g)
  | .vfsgn => some (formVfa 9 .row)
  | .vfsgnS => some (formVfa 9 .g)
  | .vfsqrt => some (formVfu 0)
  | .vfrcp => some (formVfu 1)
  | .vfrsq => some (formVfu 2)
  | .vfexp2 => some (formVfu 3)
  | .vflog2 => some (formVfu 4)
  | .vfsin => some (formVfu 5)
  | .vfcos => some (formVfu 6)
  | .vftanh => some (formVfu 7)
  | .vfsigm => some (formVfu 8)
  | .vfabs => some (formVfu 9)
  | .vfneg => some (formVfu 10)
  | .vfclass => some (formVfu 11)
  | .vfrnd => some (formVfu 12)
  | .vaddi => some (formVimm 0)
  | .vmuli => some (formVimm 1)
  | .vshli => some (formVimm 2)
  | .vshri => some (formVimm 3)
  | .vsrai => some (formVimm 4)
  | .vandi => some (formVimm 5)
  | .vori => some (formVimm 6)
  | .vli => some (formVli)
  | .vcmpEq => some (formVcmp 0 .row)
  | .vcmpEqS => some (formVcmp 0 .g)
  | .vcmpNe => some (formVcmp 1 .row)
  | .vcmpNeS => some (formVcmp 1 .g)
  | .vcmpLt => some (formVcmp 2 .row)
  | .vcmpLtS => some (formVcmp 2 .g)
  | .vcmpGe => some (formVcmp 3 .row)
  | .vcmpGeS => some (formVcmp 3 .g)
  | .vcmpLtu => some (formVcmp 4 .row)
  | .vcmpLtuS => some (formVcmp 4 .g)
  | .vcmpGeu => some (formVcmp 5 .row)
  | .vcmpGeuS => some (formVcmp 5 .g)
  | .vfcmpEq => some (formVfcmp 0)
  | .vfcmpNe => some (formVfcmp 1)
  | .vfcmpLt => some (formVfcmp 2)
  | .vfcmpLe => some (formVfcmp 3)
  | .vfcmpUn => some (formVfcmp 4)
  | .vfcmpOr => some (formVfcmp 5)
  | .vcvt => some (formCvt (fun _ => Fmt.ofCode (hiC (fHi w)).toNat))
  | .vcvtk => some (formCvtk (Fmt.ofCode (hiC (fHi w)).toNat))
  | .vwid => some (formCvt widFmt)
  | .vnar => some (formCvt narFmt)
  | .vxchS => some (formVprm 0)
  | .vxch => some (formVprm 1)
  | .vslup => some (formVprm 2)
  | .vsldn => some (formVprm 3)
  | .vperm => some (formVprm 4)
  | .vbcast => some (formVprm 5)
  | .vins => some (formVprm 7)
  | .vcomp => some (formVprm 8)
  | .vexpd => some (formVprm 9)
  | .viota => some (formVprm 10)
  | .vrev => some (formVprm 11)
  | .turn => some (formVprm 16)
  | .vrsum => some (formVred 0)
  | .vrmin => some (formVred 1)
  | .vrmax => some (formVred 2)
  | .vrminu => some (formVred 3)
  | .vrmaxu => some (formVred 4)
  | .vrand => some (formVred 5)
  | .vror => some (formVred 6)
  | .vrxor => some (formVred 7)
  | .vrfsum => some (formVred 8)
  | .vrfmin => some (formVred 9)
  | .vrfmax => some (formVred 10)
  | .vscanAdd => some (formVred 11)
  | .vfscanAdd => some (formVred 12)
  | .vscanlin => some (formVred 13)
  | _ => none

/-- The kind code of a node (R318): 0 compute, 1 compare, 2 load, 3 gather, 4 store, 5 scatter, 6 reduction, 7 scan, 8 transform,
9 feed; none for a word that no node may hold (R296). -/
def nodeKindOf (r : Row) : Option Nat :=
  match r with
  | .vadd | .vaddS | .vsub | .vsubS | .vrsub | .vrsubS | .vmul | .vmulS => some 0
  | .vmulh | .vmulhS | .vmulhu | .vmulhuS | .vmacc | .vmaccS | .vnmsac | .vnmsacS => some 0
  | .vdiv | .vdivS | .vdivu | .vdivuS | .vrem | .vremS | .vremu | .vremuS => some 0
  | .vsadd | .vsaddS | .vssub | .vssubS | .vabsd | .vabsdS | .vand | .vandS => some 0
  | .vor | .vorS | .vxor | .vxorS | .vandn | .vandnS | .vshl | .vshlS => some 0
  | .vshr | .vshrS | .vsra | .vsraS | .vmin | .vminS | .vmax | .vmaxS => some 0
  | .vminu | .vminuS | .vmaxu | .vmaxuS | .vsel | .vselS | .vmov | .vmovS => some 0
  | .vfadd | .vfaddS | .vfsub | .vfsubS | .vfmul | .vfmulS | .vfma | .vfmaS => some 0
  | .vfms | .vfmsS | .vfnma | .vfnmaS | .vfdiv | .vfdivS | .vfmin | .vfminS => some 0
  | .vfmax | .vfmaxS | .vfsgn | .vfsgnS | .vfsqrt | .vfrcp | .vfrsq | .vfexp2 => some 0
  | .vflog2 | .vfsin | .vfcos | .vftanh | .vfsigm | .vfabs | .vfneg | .vfclass => some 0
  | .vfrnd | .vaddi | .vmuli | .vshli | .vshri | .vsrai | .vandi | .vori => some 0
  | .vli | .vcvt | .vwid | .vnar | .vxchS | .vxch | .vslup | .vsldn => some 0
  | .vperm | .vbcast | .vcomp | .vexpd | .viota | .vrev | .turn => some 0
  | .vcmpEq | .vcmpEqS | .vcmpNe | .vcmpNeS | .vcmpLt | .vcmpLtS | .vcmpGe | .vcmpGeS => some 1
  | .vcmpLtu | .vcmpLtuS | .vcmpGeu | .vcmpGeuS | .vfcmpEq | .vfcmpNe | .vfcmpLt | .vfcmpLe => some 1
  | .vfcmpUn | .vfcmpOr => some 1
  | .vld | .vlds => some 2
  | .vldx => some 3
  | .vst | .vsts => some 4
  | .vstx => some 5
  | .vrsum | .vrmin | .vrmax | .vrminu | .vrmaxu | .vrand | .vror | .vrxor => some 6
  | .vrfsum | .vrfmin | .vrfmax => some 6
  | .vscanAdd | .vfscanAdd | .vscanlin => some 7
  | .mxoa | .mxos => some 8
  | .qpop => some 9
  | _ => none

/-- The words that become a node when captured (R292): majors 0x21 to 0x2D and 0x2F, VLD, VST, MXOA, MXOS, TURN, QPOP. -/
def isNodeWord (w : BitVec 32) (r : Row) : Bool :=
  let op := (fOp w).toNat
  (decide (0x21 ≤ op) && decide (op ≤ 0x2D)) || op == 0x2F || op == 0x30 || op == 0x31 || r == .mxoa || r == .mxos || r == .turn || r == .qpop

end Sys2Proof.Machine
end

