-- ==== Sys2Proof/Machine/Record.lean ====
section
/-! DEFINITION. Physical bytes as the die's own blocks write them, trace records (R424 to R427), MSI-X (R436), and the fault
record queue of a die (R385, R397, R398). -/
namespace Sys2Proof.Machine

/-! ### Bytes -/

/-- n bytes of a number, the lowest first (R6). -/
def leBytes (n v : Nat) : List Byte := (List.range n).map (fun i => BitVec.ofNat 8 (v / pow2 (8 * i)))
/-- The number little-endian bytes stand for. -/
def leNat (l : List Byte) : Nat :=
  match l with
  | [] => 0
  | b :: rest => b.toNat + 256 * leNat rest

/-- Write bytes at consecutive places of a sparse memory. -/
def Memory.setList (m : List (Nat × Byte)) (a : Nat) (l : List Byte) : List (Nat × Byte) :=
  match l with
  | [] => m
  | b :: rest => Memory.setList (Memory.set m a b) (a + 1) rest
/-- Read n consecutive places. -/
def Memory.getList (m : List (Nat × Byte)) (a n : Nat) : List Byte := (List.range n).map (fun i => Memory.get m (a + i))

/-- The size of HBM (R432). -/
def hbmSize : Nat := 0xC000000000
/-- The share of each compute die (R432). -/
def dieBytes : Nat := 0x3000000000
def isHbm (pa n : Nat) : Bool := decide (pa + n ≤ hbmSize)

/-- Write a byte of HBM through a mapping of a key, 0 for none: the key is kept beside it (R445). -/
def State.putByte (s : State) (key pa : Nat) (b : Byte) : State :=
  { s with mem := Memory.set s.mem pa b, encTag := if key = 0 then assocDel s.encTag pa else assocPut s.encTag pa key }

/-- What a byte of HBM reads as through a mapping of a key (R445; log 11). -/
def State.viewByte (s : State) (key pa : Nat) : Byte :=
  let b := Memory.get s.mem pa
  let t := assocGetD s.encTag 0 pa
  if t = key then b else Config.cipherByte t key pa b

def State.putBytes (s : State) (key pa : Nat) (l : List Byte) : State :=
  match l with
  | [] => s
  | b :: rest => (s.putByte key pa b).putBytes key (pa + 1) rest

def State.viewBytes (s : State) (key pa n : Nat) : List Byte := (List.range n).map (fun i => s.viewByte key (pa + i))

/-- The 64-byte lines that a run of bytes touches. -/
def linesOf (pa n : Nat) : List Nat := if n = 0 then [] else (List.range ((pa + n - 1) / 64 + 1 - pa / 64)).map (· + pa / 64)

/-- A line whose read gives an uncorrectable error (R410). -/
def State.lineBad (s : State) (line : Nat) : Bool := s.poison.contains line || s.bad.contains line

/-- The read of a line with an uncorrectable error marks it poisoned (R410). -/
def State.markPoison (s : State) (line : Nat) : State :=
  if s.bad.contains line then { s with bad := s.bad.erase line, poison := if s.poison.contains line then s.poison else line :: s.poison }
  else s

/-- A whole-line write clears the poison, and writes a fresh code (R410). -/
def State.clearPoison (s : State) (line : Nat) : State :=
  { s with poison := s.poison.filter (· != line), bad := s.bad.filter (· != line), soft := s.soft.filter (· != line) }

/-- A read of lines with a correctable error corrects them, and their die counts them (R410). -/
def State.correct (s : State) (lines : List Nat) : State :=
  let hit := s.soft.filter (fun l => lines.contains l)
  if hit.isEmpty then s
  else hit.foldl (fun s l => let n := l * 64 / dieBytes; s.setDie n { s.die n with corrected := (s.die n).corrected + 1 })
    { s with soft := s.soft.filter (fun l => !lines.contains l) }

/-! ### Trace records -/

/-- Trace block kinds (R430's SRC). -/
def srcDrover : Nat := 1
def srcLane : Nat := 2
def srcStream : Nat := 4
def srcCopy : Nat := 5
def srcGather : Nat := 6
def srcCalendar : Nat := 8
def srcSequencer : Nat := 9
def srcQueue : Nat := 11

/-- Whether a record of a class may leave a context: a confidential one needs a running grant (R427, R446, R447). -/
def State.traceAllowed (s : State) (ctx cls : Nat) : Bool :=
  match s.context ctx with
  | none => true
  | some c => !c.conf || (c.grantUntil.isSome && c.grantTren.testBit cls)

/-- Place a record on the port: it goes to the output, and into the carve-out unless capture stopped (R427). -/
def State.capture (s : State) (r : TraceRec) : State :=
  let t := s.trace
  let bytes := leBytes 1 r.typ ++ leBytes 1 r.flg ++ leBytes 1 r.die ++ leBytes 1 r.src ++ leBytes 2 r.inst ++
    leBytes 1 r.slot ++ leBytes 1 0 ++ leBytes 4 r.seq ++ leBytes 4 r.snap ++ leBytes 8 r.cyc ++
    (r.payload ++ List.replicate 40 (0 : Byte)).take 40
  let s := { s with trace := { t with out := t.out ++ [r] } }
  match t.base with
  | none => s
  | some b =>
    if t.stop && 64 * (t.pos + 1) > 0x10000000 then s
    else
      let at_ := b + (64 * t.pos) % 0x10000000
      { (s.putBytes 0 at_ bytes) with trace := { s.trace with pos := t.pos + 1 } }

/-- A number for a source. -/
def traceId (die src inst : Nat) : Nat := (die * 64 + src) * 65536 + inst

/-- Emit a record of a source: its SEQ counts on, LOST is carried when an earlier record was dropped (R424). -/
def State.emitRaw (s : State) (typ flg die src inst slot : Nat) (payload : List Byte) : State :=
  let id := traceId die src inst
  let n := assocGetD s.trace.seqs 0 id
  let lost := s.trace.lost.contains id
  let r : TraceRec := ⟨typ, flg ||| (if lost then 1 else 0), die, src, inst, slot, n % pow2 32, s.mgmt.snapNo % pow2 32, s.cycle, payload⟩
  { s with trace := { s.trace with seqs := assocPut s.trace.seqs id (n + 1), lost := s.trace.lost.filter (· != id) } }.capture r

/-- TREN of a flock, bit `cls` (R418, R424). -/
def State.tren (s : State) (flock cls : Nat) : Bool := (s.debug flock).dctl.getLsbD (32 + cls)

/-- Emit a record of a class for a flock, if the flock emits that class and its context may (R424, R447). -/
def State.emit (s : State) (flock ctx cls typ flg core src slot : Nat) (payload : List Byte) : State :=
  if s.tren flock cls && s.traceAllowed ctx cls then
    let inst := if src = srcDrover then 8 * (core % 64) + slot else core % 64
    s.emitRaw typ flg (dieOfCore core) src inst slot payload
  else s

def clsStrip : Nat := 0
def clsLane : Nat := 1
def clsSample : Nat := 2
def clsCopy : Nat := 3
def clsBarrier : Nat := 4
def clsChain : Nat := 5
def clsBook : Nat := 6
def clsSkip : Nat := 7

/-! ### MSI-X (R436): source 0 to 3 a die's TAIL write, 4 a QFAULT record, 5 command completion, 6 a lockstep divergence
(log 22) -/

/-- A source raises the vector that is mapped to it; an unmapped source raises none. -/
def State.interrupt (s : State) (source : Nat) : State :=
  let vs := (s.mgmt.irqMap.filter (fun e => e.1 == source)).map (fun e => e.2.1)
  { s with mgmt := { s.mgmt with msix := s.mgmt.msix ++ vs } }

/-! ### Fault records -/

/-- Flag bits of a record (R397). -/
def flgWR : Nat := 1
def flgEX : Nat := 2
def flgENG : Nat := 4
def flgCHN : Nat := 8
def flgVRD : Nat := 16
def flgDK : Nat := 32

/-- The 64 bytes of a record with its number n (R397). -/
def FaultRec.bytes (r : FaultRec) (n : Nat) : List Byte :=
  leBytes 1 r.cause ++ leBytes 1 r.sub ++ leBytes 1 r.flg ++ leBytes 1 r.lvl ++ leBytes 1 r.pcore ++ leBytes 1 r.slot ++
  leBytes 1 r.icause ++ leBytes 1 r.bmask ++ leBytes 4 n ++ leBytes 4 r.flock ++ leBytes 8 r.va.toNat ++
  leBytes 8 r.pc.toNat ++ leBytes 8 r.aux.toNat ++ leBytes 8 r.pte.toNat ++ leBytes 8 r.pa.toNat ++ leBytes 8 r.data.toNat

/-- A record of a confidential context shows CAUSE and SUB only (R446). -/
def FaultRec.masked (r : FaultRec) (conf : Bool) : FaultRec :=
  if conf then { r with va := 0, pc := 0, aux := 0, pte := 0, pa := 0, data := 0 } else r

def State.isConf (s : State) (ctx : Nat) : Bool := ((s.context ctx).map (·.conf)).getD false

/-- The die writes a record, then TAIL (R397). The requester, if any, awaits the verdict of this number. -/
def State.writeRecord (s : State) (die ctx : Nat) (r : FaultRec) (who : Option Requester) : State :=
  let d := s.die die
  let n := d.tail % pow2 32
  let base := d.frqb.getD 0
  let s := s.putBytes 0 (base + 64 * (n % 1024)) ((r.masked (s.isConf ctx)).bytes n)
  let s := s.putBytes 0 (base + 65536) (leBytes 8 ((n + 1) % pow2 32))
  let aw := match who with
    | some q => [{ tag := n, ctx := ctx, region := r.va.toNat / 4096, cause := r.cause, sub := r.sub, who := [q] : Awaited }]
    | none => []
  let s := s.setDie die { (s.die die) with tail := (n + 1) % pow2 32, awaited := (s.die die).awaited ++ aw }
  (if r.cause = 0x0C then s.interrupt 4 else s).interrupt die

/-- No room in the ring: 1,024 records posted and not consumed, or no FRQ command has set the ring yet (R397). -/
def Die.ringFull (d : Die) : Bool := d.frqb.isNone || decide ((d.tail + pow2 32 - d.head) % pow2 32 ≥ 1024)

/-- Post a record (R397, R398). With the ring full it waits; a fault that matches an awaited record joins it. -/
def State.post (s : State) (die ctx : Nat) (r : FaultRec) (who : Option Requester) : State :=
  let d := s.die die
  let same := fun (a : Awaited) => a.ctx == ctx && a.region == r.va.toNat / 4096 && a.cause == r.cause && a.sub == r.sub
  let joins := match who with
    | some q => if d.awaited.any same then some q else none
    | none => none
  match joins with
  | some q => s.setDie die { d with awaited := d.awaited.map (fun a => if same a then { a with who := a.who ++ [q] } else a) }
  | none => if d.ringFull then s.setDie die { d with backlog := d.backlog ++ [(r, ctx, who)] } else s.writeRecord die ctx r who

/-- Records that wait for room are written as far as HEAD leaves room (R397). -/
def State.drainBacklog (s : State) (die fuel : Nat) : State :=
  match fuel with
  | 0 => s
  | k + 1 =>
    let d := s.die die
    match d.backlog with
    | [] => s
    | (r, ctx, who) :: rest =>
      if d.ringFull then s else ((s.setDie die { d with backlog := rest }).post die ctx r who).drainBacklog die k

/-- A record of a fault that a drover's instruction took (R397). -/
def State.recordOfDrover (s : State) (key : Nat) (f : FaultInfo) (pc : Word) (elem : Nat) (chn vrd : Bool) : FaultRec :=
  { cause := f.cause, sub := f.sub
    flg := (if f.wr then flgWR else 0) + (if f.ex then flgEX else 0) + (if chn then flgCHN else 0) +
      (if vrd then flgVRD else 0) + (if f.dk then flgDK else 0)
    lvl := f.lvl, pcore := coreOf key, slot := slotOf key, icause := 0, bmask := f.bmask
    flock := (s.drover key).flock, va := f.va, pc := pc, aux := BitVec.ofNat 64 elem, pte := f.pte
    pa := BitVec.ofNat 64 f.pa, data := f.data }

/-- A record of an engine access or a queue record (R224, R397). -/
def engineRecord (f : FaultInfo) (pcore slot flock : Nat) (pc aux : Word) (vrd : Bool) : FaultRec :=
  { cause := f.cause, sub := f.sub
    flg := flgENG + (if f.wr then flgWR else 0) + (if vrd then flgVRD else 0) + (if f.dk then flgDK else 0)
    lvl := f.lvl, pcore := pcore, slot := slot, icause := 0, bmask := f.bmask, flock := flock, va := f.va, pc := pc
    aux := aux, pte := f.pte, pa := BitVec.ofNat 64 f.pa, data := f.data }

/-- A QFAULT record of the queue side (R385). -/
def qfaultRecord (sub icause flock : Nat) (aux pc va : Word) : FaultRec :=
  { cause := 0x0C, sub := sub, flg := flgENG, lvl := 0, pcore := 0xFF, slot := 0xFF, icause := icause, bmask := 0
    flock := flock, va := va, pc := pc, aux := aux, pte := 0, pa := 0, data := 0 }

/-- Post a QFAULT record for a handle on a die (R385). -/
def State.qfault (s : State) (die ctx sub icause flock h : Nat) (pc va : Word) : State :=
  s.post die ctx (qfaultRecord sub icause flock (BitVec.ofNat 64 h) pc va) none

/-- Causes that post a record and suspend: PERM, and XLATE with subcode 1 or 2 (R387). -/
def FaultInfo.suspends (f : FaultInfo) : Bool := f.cause == 7 || (f.cause == 6 && f.sub != 0)
/-- Causes that post a record: those, and MEMUE (R387). -/
def FaultInfo.records (f : FaultInfo) : Bool := f.suspends || f.cause == 8

/-- Cause codes (R387). -/
def cILLOP : Nat := 0x01
def cRESCOMB : Nat := 0x02
def cVNCFG : Nat := 0x03
def cWINOV : Nat := 0x04
def cMISALIGN : Nat := 0x05
def cXLATE : Nat := 0x06
def cPERM : Nat := 0x07
def cMEMUE : Nat := 0x08
def cFPTRAP : Nat := 0x09
def cOVERRUN : Nat := 0x0A
def cCHAINF : Nat := 0x0B
def cTILEST : Nat := 0x0D
def cBRKPT : Nat := 0x0E
def cWATCH : Nat := 0x0F
def cSTEP : Nat := 0x10
def cTRAPI : Nat := 0x11
def cPREEMPT : Nat := 0x12

/-- A fault with a cause and nothing recorded. -/
def FaultInfo.plain (cause : Nat) : FaultInfo :=
  { cause := cause, sub := 0, lvl := 0, va := 0, pte := 0, pa := 0, wr := false, ex := false, dk := false, bmask := 0, data := 0 }

end Sys2Proof.Machine
end

