-- ==== Sys2Proof/Machine/Mem.lean ====
section
/-! DEFINITION. One access to memory: the checks of R135 and R393, the page walk (R392 to R396), watchpoints (R420), the
regions of R432 with their effects (R401, R435, R440), poison (R410 to R412). Every load and store of the model goes
through `State.loadAt` and `State.storeAt`. -/
namespace Sys2Proof.Machine

/-- The outcome of an access: a value, a fault with the state it leaves, or an answer still awaited from the host port or
a peer. -/
inductive Acc (α : Type) where
  | ok (s : State) (v : α)
  | fail (s : State) (f : FaultInfo)
  | wait (s : State)

/-- The value of an access changed. -/
def Acc.map {α β : Type} (a : Acc α) (f : α → β) : Acc β :=
  match a with
  | .ok s v => .ok s (f v)
  | .fail s e => .fail s e
  | .wait s => .wait s

/-- Who makes an access: its context and die, its level, the flock and the drover it acts for; `own` marks a drover's own
access, which watchpoints stop, `eng` an engine's, which they only record: `src` is the block that does, `strip` the run strip of a
chain node (R391, R417, R420). `who` receives the answers of its requests; `l1` says that its core's first-level TLB serves it. -/
structure Agent where
  ctx : Nat
  die : Nat
  sup : Bool
  flock : Nat
  key : Nat
  own : Bool
  eng : Bool
  src : Nat
  strip : Option Nat
  who : Requester
  l1 : Bool
  deriving DecidableEq, Repr

/-- The drover itself. -/
def State.agentOf (s : State) (key : Nat) : Agent :=
  let d := s.drover key
  { ctx := d.ctx, die := dieOf key, sup := d.tr.sup, flock := d.flock, key := key, own := true, eng := false
    src := srcDrover, strip := none, who := .drover key, l1 := true }

/-- A copy engine that carries a transfer of the drover. -/
def State.engineOf (s : State) (key ch id : Nat) (sup : Bool) : Agent :=
  let d := s.drover key
  { ctx := d.ctx, die := dieOf key, sup := sup, flock := d.flock, key := key, own := false, eng := true
    src := srcCopy, strip := none, who := .transfer key ch id, l1 := true }

/-- The stream or gather engine of a node of the drover's run, in a strip of the run. -/
def State.nodeAgent (s : State) (key node strip src : Nat) (sup : Bool) : Agent :=
  let d := s.drover key
  { ctx := d.ctx, die := dieOf key, sup := sup, flock := d.flock, key := key, own := false, eng := true
    src := src, strip := some strip, who := .chain key node, l1 := true }

/-- An agent of a die's queue side, which acts for no core; its accesses fall in a class of keys beyond the drovers'. -/
def sideAgent (ctx die flock key : Nat) (sup : Bool) (who : Requester) : Agent :=
  { ctx := ctx, die := die, sup := sup, flock := flock, key := key, own := false, eng := true
    src := srcQueue, strip := none, who := who, l1 := false }

/-- What an access asks of its page. -/
inductive Want where
  | read
  | write
  | fetch
  /-- an AMO or VAMO; the function is the AtomicOp a host page admits, if any -/
  | amo (atomic : Option Nat)
  deriving DecidableEq, Repr

def Want.writes : Want → Bool
  | .write | .amo _ => true
  | _ => false

/-! ### Addresses -/

/-- An address with bits [63:56] replaced by copies of bit 55 (R135, R391). -/
def canon (a : Word) : Word := (a.extractLsb' 0 56).signExtend 64
def isCanon (a : Word) : Bool := canon a == a

/-! ### The walk (R392 to R394) -/

def pteV (p : Word) : Bool := p.getLsbD 0
def pteR (p : Word) : Bool := p.getLsbD 1
def pteW (p : Word) : Bool := p.getLsbD 2
def pteX (p : Word) : Bool := p.getLsbD 3
def pteOK (p : Word) : Nat := (p.extractLsb' 4 2).toNat
def pteHS (p : Word) : Bool := p.getLsbD 6
def pteBK (p : Word) : Bool := p.getLsbD 7
def pteENC (p : Word) : Bool := p.getLsbD 8
def pteA (p : Word) : Bool := p.getLsbD 9
def pteD (p : Word) : Bool := p.getLsbD 10
def pteSO (p : Word) : Bool := p.getLsbD 11
def ptePPN (p : Word) : Nat := (p.extractLsb' 12 40).toNat
def pteSZ (p : Word) : Nat := (p.extractLsb' 54 2).toNat
def pteAbit : Word := 0x200
def pteDbit : Word := 0x400

/-- The die control pages, the scale-out aperture, the host aperture (R432). -/
def isControl (pa : Nat) : Bool := decide (0x8000000000000 ≤ pa) && decide (pa < 0x8000000004000)
def isScaleOut (pa : Nat) : Bool := decide (0xE000000000000 ≤ pa) && decide (pa < 0xF000000000000)
def isHost (pa : Nat) : Bool := decide (0xF000000000000 ≤ pa) && decide (pa < 0x10000000000000)
def inRegions (pa : Nat) : Bool := isHbm pa 1 || isControl pa || isScaleOut pa || isHost pa

def read8 (s : State) (pa : Nat) : Word := BitVec.ofNat 64 (leNat (s.viewBytes 0 pa 8))
def write8 (s : State) (pa : Nat) (v : Word) : State := s.putBytes 0 pa (leBytes 8 v.toNat)

/-- Why a walk or a check stops: cause, subcode, level, the entry as read; the address of the line in error, for MEMUE (R397). -/
structure WalkFail where
  cause : Nat
  sub : Nat
  lvl : Nat
  pte : Word
  line : Nat
  deriving DecidableEq, Repr

/-- A leaf that a walk found: the entry, its address, its level; `bad` names the level and the line of the first entry that came from a
line in error. -/
structure LeafAt where
  pte : Word
  addr : Nat
  lvl : Nat
  bad : Option (Nat × Nat)
  deriving DecidableEq, Repr

/-- Bit position of the index of a level, and the index of an address in its table (R392). -/
def lvlShift (lvl : Nat) : Nat := 48 - 9 * lvl
def lvlIndex (lvl va : Nat) : Nat := if lvl = 0 then va / pow2 48 % 256 else va / pow2 (lvlShift lvl) % 512

/-- A leaf at L2 or L3 is one with any of R, W, X; at L4 every entry is one (R392). -/
def isLeaf (lvl : Nat) (p : Word) : Bool := lvl == 4 || (decide (2 ≤ lvl) && (pteR p || pteW p || pteX p))

/-- res0 bits of every entry: [63:56] and [53:52]; and of a table pointer: [11:1] and [55:54] (R392). -/
def pteRes0 (p : Word) : Bool := p.extractLsb' 56 8 == 0 && p.extractLsb' 52 2 == 0
def ptrRes0 (p : Word) : Bool := p.extractLsb' 1 11 == 0 && p.extractLsb' 54 2 == 0

/-- An entry apart from A, D and the PPN (R392, R393). -/
def pteAttrs (p : Word) : Word := p &&& ~~~(0x000FFFFFFFFFF600 : Word)

/-- The 16 entries of a 64 KiB group agree and their PPNs are consecutive from an aligned base (R392, R393). -/
def groupOk (s : State) (addr : Nat) (p : Word) : Bool :=
  let base := addr / 128 * 128
  let k := addr / 8 % 16
  decide (k ≤ ptePPN p) && (ptePPN p - k) % 16 == 0 &&
  (List.range 16).all (fun j =>
    let q := read8 s (base + 8 * j)
    pteAttrs q == pteAttrs p && ptePPN q == ptePPN p - k + j)

/-- Bits of the PPN below the page size are zero (R392): 18 at L2, 9 at L3. -/
def ppnAligned (lvl ppn : Nat) : Bool := if lvl = 2 then ppn % pow2 18 == 0 else if lvl = 3 then ppn % pow2 9 == 0 else true

/-- A malformed leaf (R393 step 3, R241, R432, R435). -/
def leafMalformed (s : State) (l : LeafAt) : Bool :=
  let p := l.pte
  let pa := ptePPN p * 4096
  !pteRes0 p || decide (pteSZ p ≥ 2) || (pteSZ p == 1 && l.lvl != 4) || (pteW p && !pteR p) || pteOK p == 3 ||
  !ppnAligned l.lvl (ptePPN p) || (pteSZ p == 1 && !groupOk s l.addr p) || !inRegions pa || (isHost pa && !pteHS p)

/-- The first line in error that an entry, or the 64 KiB group it belongs to, is read from, unless an earlier entry had one. -/
def State.entryBad (s : State) (lvl addr : Nat) (p : Word) (bad : Option (Nat × Nat)) : Option (Nat × Nat) :=
  match bad with
  | some b => some b
  | none => ((if lvl = 4 && pteSZ p == 1 then linesOf (addr / 128 * 128) 128 else [addr / 64]).find? (fun n => s.lineBad n)).map (lvl, ·)

/-- The walk of an address from a table at a level; `fuel` levels are left. An entry of a line in error is read as the line stands; step 7
of R393 decides on it, after steps 2 to 6 (log 24). -/
def walkFrom (s : State) (va : Nat) (lvl base : Nat) (bad : Option (Nat × Nat)) (fuel : Nat) : Except WalkFail LeafAt :=
  match fuel with
  | 0 => .error ⟨cXLATE, 2, lvl, 0, 0⟩
  | k + 1 =>
    let addr := base + 8 * lvlIndex lvl va
    if !isHbm addr 8 then .error ⟨cXLATE, 2, lvl, 0, 0⟩
    else
      let p := read8 s addr
      let bad := s.entryBad lvl addr p bad
      if !pteV p then .error ⟨cXLATE, 1, lvl, p, 0⟩
      else if isLeaf lvl p then
        if leafMalformed s ⟨p, addr, lvl, bad⟩ then .error ⟨cXLATE, 2, lvl, p, 0⟩
        else .ok ⟨p, addr, lvl, bad⟩
      else if !pteRes0 p || !ptrRes0 p then .error ⟨cXLATE, 2, lvl, p, 0⟩
      else walkFrom s va (lvl + 1) (ptePPN p * 4096) bad k

/-- Pages of 4 KiB a leaf maps; an entry of a 64 KiB group counts by itself (R392, R394). -/
def leafPages (lvl : Nat) : Nat := if lvl = 2 then pow2 18 else if lvl = 3 then pow2 9 else 1
/-- Pages of 4 KiB a TLB entry holds: a leaf's, but no more than 16 MiB (R2, R395). -/
def tlbPages (lvl : Nat) : Nat := if lvl = 2 then pow2 12 else if lvl = 3 then pow2 9 else 1
def leafLevel (pages : Nat) : Nat := if pages = pow2 12 then 2 else if pages = pow2 9 then 3 else 4

/-- The stack regions of a flock's task, for R393 step 6. -/
def State.inStack (s : State) (flock va : Nat) : Bool :=
  match s.flock flock with
  | none => false
  | some f => match s.task f.task with
    | some t => match t.stack with
      | some (b, n) => decide (b ≤ va) && decide (va < b + n)
      | none => false
    | none => false

/-- Steps 4 to 8 of R393 on a leaf. -/
def checkLeaf (s : State) (ag : Agent) (want : Want) (va : Nat) (l : LeafAt) : Option WalkFail :=
  let p := l.pte
  let pa := ptePPN p * 4096
  let fail := fun sub => some (⟨cPERM, sub, l.lvl, p, 0⟩ : WalkFail)
  let conf := s.isConf ag.ctx
  let lacks := match want with
    | .read => if pteR p then 0 else 1
    | .write => if pteW p then 0 else 2
    | .fetch => if pteX p then 0 else 3
    | .amo _ => if !pteW p then 2 else if !pteR p then 1 else 0
  let barred := match want with
    | .amo a => isScaleOut pa || (isHost pa && a.isNone)
    | _ => false
  if pteSO p && !ag.sup then fail 4
  else if lacks != 0 then fail lacks
  else if pteENC p && (!conf || pteHS p) then fail 5
  else if !pteENC p && conf && (want == .fetch || s.inStack ag.flock va) then fail 5
  else match l.bad with
    | some b => some ⟨cMEMUE, 3, b.1, 0, b.2 * 64⟩
    | none => if barred then fail 6 else none

/-- Where an access lands: the physical address, the leaf, the key of the mapping (R445). -/
structure Place where
  pa : Nat
  pte : Word
  key : Nat
  deriving DecidableEq, Repr

/-- A leaf after an access: A set, and D before a write (R394, R395). -/
def touched (want : Want) (p : Word) : Word := p ||| pteAbit ||| (if want.writes then pteDbit else 0)

/-- A translation joins a TLB of n entries, in place of one of the same page. -/
def tlbKeep (n : Nat) (e : TlbEntry) (l : List TlbEntry) : List TlbEntry :=
  (e :: l.filter (fun t => !(t.ctx == e.ctx && t.vpn == e.vpn))).take n

/-- Set A and D in the entry in memory, and keep the translation: the die's last-level TLB has 24,576 entries, the first-level TLB
of a core 256 (R394, R395; log 7). -/
def State.useLeaf (s : State) (ag : Agent) (want : Want) (va : Nat) (l : LeafAt) : State :=
  let p := touched want l.pte
  let s := if p = l.pte then s else write8 s l.addr p
  let pages := tlbPages l.lvl
  let e : TlbEntry := ⟨ag.ctx, va / 4096 / pages * pages, pages, ptePPN p, p, l.addr⟩
  let d := s.die ag.die
  s.setDie ag.die { d with
    tlb := tlbKeep 24576 e d.tlb
    tlb1 := if ag.l1 then assocPut d.tlb1 (coreOf ag.key) (tlbKeep 256 e (assocGetD d.tlb1 [] (coreOf ag.key))) else d.tlb1 }

/-- The translation of a page in a TLB. -/
def tlbFind (l : List TlbEntry) (ctx vpn : Nat) : Option TlbEntry :=
  l.find? (fun t => t.ctx == ctx && decide (t.vpn ≤ vpn) && decide (vpn < t.vpn + t.pages))

/-- The translation an agent finds: in its core's first-level TLB, else in the die's last-level one (R395). -/
def Die.lookup (d : Die) (ag : Agent) (vpn : Nat) : Option TlbEntry :=
  match (if ag.l1 then tlbFind (assocGetD d.tlb1 [] (coreOf ag.key)) ag.ctx vpn else none) with
  | some e => some e
  | none => tlbFind d.tlb ag.ctx vpn

/-- The walk from the root of the agent's context. -/
def State.walk (s : State) (ag : Agent) (a : Nat) : Except WalkFail (LeafAt × Bool) :=
  (walkFrom s a 0 (((s.context ag.ctx).map (·.root)).getD 0) none 5).map (·, false)

/-- The leaf that serves an access, and whether it is the cached one as it stands. A cached translation that does not admit
the access is not held: the walk decides (log 7). -/
def State.findLeaf (s : State) (ag : Agent) (want : Want) (a : Nat) : Except WalkFail (LeafAt × Bool) :=
  match (s.die ag.die).lookup ag (a / 4096) with
  | none => s.walk ag a
  | some t =>
    let l : LeafAt := ⟨t.pte, t.pteAddr, leafLevel t.pages, none⟩
    if (checkLeaf s ag want a l).isSome then s.walk ag a
    else if touched want t.pte ≠ t.pte then
      -- the update of A and D reads the entry afresh (R394)
      let p := read8 s t.pteAddr
      let l' : LeafAt := ⟨p, t.pteAddr, l.lvl, s.entryBad l.lvl t.pteAddr p none⟩
      if !pteV p then .error ⟨cXLATE, 1, l.lvl, p, 0⟩
      else if leafMalformed s l' then .error ⟨cXLATE, 2, l.lvl, p, 0⟩
      else .ok (l', false)
    else .ok (l, true)

/-- Where an address lands under a leaf, and the key its page is read through. -/
def State.placeOf (s : State) (ag : Agent) (p : Word) (lvl a : Nat) : Place :=
  { pa := (ptePPN p + (a / 4096) % leafPages lvl) * 4096 + a % 4096
    pte := p
    key := if pteENC p then ((s.context ag.ctx).map (·.key)).getD 0 else 0 }

/-- Translate a canonical address (R393 to R395). A cached leaf that already has its A and D bits changes nothing. -/
def State.translate (s : State) (ag : Agent) (want : Want) (va : Word) : Except WalkFail (State × Place) :=
  let a := (va.extractLsb' 0 56).toNat
  match s.findLeaf ag want a with
  | .error e => .error e
  | .ok (l, hit) =>
    match checkLeaf s ag want a l with
    | some e => .error e
    | none =>
      let p := touched want l.pte
      .ok (if hit then s else s.useLeaf ag want a l, s.placeOf ag p l.lvl a)

/-! ### Watchpoints (R420) -/

/-- Whether a breakpoint or watchpoint control admits the level and the strip (R419, R420). -/
def ctlAdmits (ctl : Word) (sup : Bool) (stro : Nat) : Bool :=
  ctl.getLsbD 63 && (if sup then ctl.getLsbD 62 else ctl.getLsbD 61) &&
  (!ctl.getLsbD 60 || ((ctl.extractLsb' 0 48).toNat == stro && stro != 0xFFFFFFFFFFFF))

/-- The watchpoints that an access of n bytes matches. -/
def watchHits (dbg : Debug) (sup : Bool) (stro : Nat) (engine : Bool) (rd wr : Bool) (va n : Nat) : List Nat :=
  if !dbg.dctl.getLsbD 0 then []
  else (List.range 8).filter (fun i =>
    let c := dbg.wpc.toList.getD i 0
    let base := (dbg.wpa.toList.getD i 0).toNat
    let len := pow2 (c.extractLsb' 52 5).toNat
    ctlAdmits c sup stro && (!engine || c.getLsbD 57) && ((rd && c.getLsbD 58) || (wr && c.getLsbD 59)) &&
    decide (va < base + len) && decide (base < va + n))

/-- Set the WH bits of DSTS (R420). -/
def State.setHits (s : State) (flock : Nat) (wh ih : List Nat) : State :=
  match s.flock flock with
  | none => s
  | some f =>
    let m := wh.foldl (fun a i => a ||| pow2 (8 + i)) 0 ||| ih.foldl (fun a i => a ||| pow2 i) 0
    s.setFlock flock { f with dbg := { f.dbg with dsts := f.dbg.dsts ||| BitVec.ofNat 64 m } }

/-- A watchpoint of a flock that an engine's access matches is set in DSTS and recorded (R420, R424). -/
def State.noteWatch (s : State) (ag : Agent) (want : Want) (va n flock : Nat) : State :=
  let rd := match want with
    | .read | .amo _ => true
    | _ => false
  let hits := watchHits (s.debug flock) ag.sup (ag.strip.getD (s.drover ag.key).stro) true rd want.writes va n
  if hits.isEmpty then s
  else hits.foldl (fun s i => if s.traceAllowed ag.ctx 8 then
    s.emitRaw 0x15 0 ag.die ag.src (if ag.l1 then coreOf ag.key % 64 else 0) 0xFF
      (leBytes 1 i ++ leBytes 1 (if want.writes then 1 else 0) ++ leBytes 8 va ++ leBytes 4 flock) else s) (s.setHits flock hits [])

/-- The flocks whose watchpoints see an engine's access: the agent's own; for a record of a queue, those launched from it (log 25). -/
def State.watchedBy (s : State) (ag : Agent) : List Nat :=
  if ag.flock ≠ 0 then [ag.flock]
  else match ag.who with
    | .record h _ => ((s.flocks.filter (fun e => ((s.task e.2.task).map (·.handle)) == some h))).map (·.1)
    | _ => []

/-- The watchpoint check of an access: a match stops a drover's own access, and is only recorded for an engine's. A match
is ignored while the instruction issues under SKIP1. -/
def State.watchCheck (s : State) (ag : Agent) (want : Want) (va n : Nat) : State × Bool :=
  if want == .fetch then (s, false)
  else if ag.own then
    let d := s.drover ag.key
    let rd := match want with
      | .read | .amo _ => true
      | _ => false
    let hits := watchHits (s.debug ag.flock) ag.sup d.stro false rd want.writes va n
    if hits.isEmpty || d.skip1 then (s, false) else (s.setHits ag.flock hits [], true)
  else if ag.eng then ((s.watchedBy ag).foldl (fun s f => s.noteWatch ag want va n f) s, false)
  else (s, false)

/-! ### Requests through the host port and the scale-out ports (R435, R440; log 12) -/

/-- The answer to a request: of the same asker, address, size and kind. -/
def State.answerOf (s : State) (q : OutReq) : Option OutRep :=
  s.reps.find? (fun r => r.who == q.who && r.flock == q.flock && r.pa == q.pa && r.n == q.n && r.kind == q.kind)

/-- Send requests, each once; when every one has its answer, take the answers: the data of each, or none for a failure. -/
def State.requestAll (s : State) (l : List OutReq) : State × Option (List (Option Nat)) :=
  let rs := l.map (fun q => (q, s.answerOf q))
  if rs.all (fun x => x.2.isSome) then
    ({ s with reps := rs.foldl (fun (a : List OutRep) x => (x.2.map a.erase).getD a) s.reps }, some (rs.map (fun x => x.2.bind (·.data))))
  else ({ s with reqs := s.reqs ++ (rs.filter (fun x => x.2.isNone && !s.reqs.contains x.1)).map (·.1) }, none)

/-- Send a request once, and take its answer when it has come. -/
def State.request (s : State) (ag : Agent) (pa n : Nat) (k : OutKind) : State × Option (Option Nat) :=
  match s.requestAll [⟨ag.who, ag.flock, pa, n, k⟩] with
  | (s, some l) => (s, some (l.headD none))
  | (s, none) => (s, none)

/-- The queue pair of a scale-out address (R432). -/
def qpOf (pa : Nat) : Nat := pa / pow2 36 % 4096

/-- The failure of an access that the host or a peer answered with one (R435, R440). -/
def perm7 (va : Word) (p : Word) (wr : Bool) : FaultInfo :=
  { FaultInfo.plain cPERM with sub := 7, va := va, pte := p, wr := wr }

/-! ### Loads and stores -/

def WalkFail.info (w : WalkFail) (va : Word) (want : Want) : FaultInfo :=
  { FaultInfo.plain w.cause with
    sub := w.sub, lvl := w.lvl, va := va, pte := w.pte, pa := w.line, wr := want.writes, ex := want == .fetch }

/-- Checks 1 to 3 of R135 and the watchpoint: where an aligned access of n bytes lands. -/
def State.locate (s : State) (ag : Agent) (want : Want) (va : Word) (n : Nat) : Except (State × FaultInfo) (State × Place) :=
  if !isCanon va then
    .error (s, { FaultInfo.plain cXLATE with va := canon va, wr := want.writes, ex := want == .fetch })
  else if va.toNat % n != 0 then
    .error (s, { FaultInfo.plain cMISALIGN with va := va, wr := want.writes })
  else match s.translate ag want va with
    | .error w => .error (if w.cause = cMEMUE then s.markPoison (w.line / 64) else s, w.info va want)
    | .ok (s', p) =>
      let (s'', stop) := s'.watchCheck ag want va.toNat n
      if stop then .error (s'', { FaultInfo.plain cWATCH with va := va, wr := want.writes })
      else .ok (s'', p)

/-- A read of a control register as an aligned 8-byte unit through a strongly ordered supervisor mapping; 0 otherwise
(R401). -/
def State.controlRead (s : State) (pa n : Nat) (pte : Word) : Nat :=
  let d := s.die ((pa - 0x8000000000000) / 4096)
  if n = 8 && pteSO pte && pteOK pte == 1 then
    match pa % 4096 with
    | 0x18 => d.invDone
    | 0x20 => d.head
    | _ => 0
  else 0

/-- Read n bytes that lie at a place. Bytes of a poisoned line give MEMUE (R411). -/
def State.readPlace (s : State) (ag : Agent) (p : Place) (va : Word) (n : Nat) (fetch : Bool) : Acc (List Byte) :=
  if isHbm p.pa n then
    match (linesOf p.pa n).find? (fun l => s.lineBad l) with
    | some l => .fail (s.markPoison l) { FaultInfo.plain cMEMUE with
        sub := if fetch then 4 else 1, va := va, pa := l * 64, ex := fetch }
    | none => .ok (s.correct (linesOf p.pa n)) (s.viewBytes p.key p.pa n)
  else if isControl p.pa then .ok s (leBytes n (s.controlRead p.pa n p.pte))
  else if isScaleOut p.pa && s.qpErr.contains (qpOf p.pa) then .fail s (perm7 va p.pte false)
  else
    match s.request ag p.pa n .read with
    | (s', some (some v)) => .ok s' (leBytes n v)
    | (s', some none) => .fail s' (perm7 va p.pte false)
    | (s', none) => .wait s'

/-- A write through the host port or the scale-out ports in requests of at most 8 bytes (R247): it is performed when every one of them
has its answer. -/
def State.sentWrite (s : State) (ag : Agent) (p : Place) (va : Word) (l : List Byte) : Acc Unit :=
  let parts : List OutReq := (List.range ((l.length + 7) / 8)).map (fun i =>
    let b := (l.drop (8 * i)).take 8
    ⟨ag.who, ag.flock, p.pa + 8 * i, b.length, .write (BitVec.ofNat 64 (leNat b))⟩)
  match s.requestAll parts with
  | (s', some rs) =>
    if rs.any (·.isNone) then .fail s' (perm7 va p.pte true)
    else .ok { s' with posted := s'.posted ++ (l.zipIdx.map (fun e => (p.pa + e.2, e.1))) } ()
  | (s', none) => .wait s'

/-- A write to a control register takes effect after those that reached the page before it (R242). -/
def queueControl (agenda : List Turn) (t : Turn) : List Turn :=
  match agenda with
  | .control die off v :: rest => .control die off v :: queueControl rest t
  | l => t :: l

/-- The failure of a partial write to a line in error (R412): of a write of more than 8 bytes, its first element in the line. -/
def partialFault (va : Word) (pa line : Nat) (l : List Byte) : FaultInfo :=
  let b := l.take 8
  { FaultInfo.plain cMEMUE with
    sub := 2, va := va, pa := line * 64, wr := true, dk := true
    bmask := (pow2 b.length - 1) * pow2 (pa % 8), data := BitVec.ofNat 64 (leNat b * pow2 (8 * (pa % 8))) }

/-- Write bytes at a place for an agent. A partial write to a poisoned line gives MEMUE, unless the writes of the
instruction cover the line, listed in `cover` (R410, R412). A store to a strongly ordered scale-out page is performed when the peer has
answered it (R242). -/
def State.writePlace (s : State) (ag : Agent) (p : Place) (va : Word) (l : List Byte) (cover : List Nat) : Acc Unit :=
  let n := l.length
  if isHbm p.pa n then
    let whole := fun ln => cover.contains ln || (n == 64 && p.pa % 64 == 0)
    match (linesOf p.pa n).find? (fun ln => s.lineBad ln && !whole ln) with
    | some ln => .fail (s.markPoison ln) (partialFault va p.pa ln l)
    | none =>
      let s := (linesOf p.pa n).foldl (fun s ln => if whole ln then s.clearPoison ln else s.correct [ln]) s
      .ok (s.putBytes p.key p.pa l) ()
  else if isControl p.pa then
    if n = 8 && pteSO p.pte && pteOK p.pte == 1 then
      .ok { s with agenda := queueControl s.agenda (.control ((p.pa - 0x8000000000000) / 4096) (p.pa % 4096) (BitVec.ofNat 64 (leNat l))) } ()
    else .ok s ()
  else if isScaleOut p.pa && s.qpErr.contains (qpOf p.pa) then .fail s (perm7 va p.pte true)
  else if isScaleOut p.pa && pteOK p.pte != 1 then
    .ok { s with posted := s.posted ++ (l.zipIdx.map (fun e => (p.pa + e.2, e.1))), unacked := s.unacked ++ [(qpOf p.pa, ag.key)] } ()
  else s.sentWrite ag p va l

/-- A load of n bytes. -/
def State.loadAt (s : State) (ag : Agent) (va : Word) (n : Nat) : Acc (List Byte) :=
  match s.locate ag .read va n with
  | .error (s', f) => .fail s' f
  | .ok (s', p) => s'.readPlace ag p va n false

/-- The checks of a load, without its read: an uncorrectable line is found by them too (R135). -/
def State.loadProbe (s : State) (ag : Agent) (va : Word) (n : Nat) : Acc Unit :=
  match s.locate ag .read va n with
  | .error (s', f) => .fail s' f
  | .ok (s', p) =>
    if isHbm p.pa n then
      match s'.readPlace ag p va n false with
      | .fail t f => .fail t f
      | _ => .ok s' ()
    else .ok s' ()

/-- A fetch of the word at an address (R133, R393, R411): the faulting address is the target itself, canonical or not (log 53). -/
def State.fetchAt (s : State) (ag : Agent) (va : Word) : Acc (BitVec 32) :=
  match s.locate ag .fetch va 4 with
  | .error (s', f) => .fail s' { f with ex := true, va := va }
  | .ok (s', p) => match s'.readPlace ag p va 4 true with
    | .ok s'' l => .ok s'' (BitVec.ofNat 32 (leNat l))
    | .fail s'' f => .fail s'' f
    | .wait s'' => .wait s''

/-- A store of bytes; `cover` lists the 64-byte lines of virtual addresses that the whole instruction covers. -/
def State.storeCover (s : State) (ag : Agent) (va : Word) (l : List Byte) (cover : List Nat) : Acc Unit :=
  match s.locate ag .write va l.length with
  | .error (s', f) => .fail s' f
  | .ok (s', p) => s'.writePlace ag p va l (if cover.contains (va.toNat / 64) then [p.pa / 64] else [])

/-- The checks of a store, without its write. -/
def State.storeProbe (s : State) (ag : Agent) (va : Word) (l : List Byte) (cover : List Nat) : Acc Unit :=
  match s.locate ag .write va l.length with
  | .error (s', f) => .fail s' f
  | .ok (s', p) =>
    if isHbm p.pa l.length then
      match s'.writePlace ag p va l (if cover.contains (va.toNat / 64) then [p.pa / 64] else []) with
      | .fail t f => .fail t f
      | _ => .ok s' ()
    else .ok s' ()

def State.storeAt (s : State) (ag : Agent) (va : Word) (l : List Byte) : Acc Unit := s.storeCover ag va l []

/-- One indivisible read and write of n bytes: the new value comes from the old one, none writes nothing (R138, R211,
R372). On a host page it is sent as an AtomicOp, whose answer carries the old value (R261). -/
def State.amoAt (s : State) (ag : Agent) (va : Word) (n : Nat) (atomic : Option (Nat × Word × Word)) (f : Nat → Option Nat) :
    Acc Nat :=
  match s.locate ag (.amo (atomic.map (·.1))) va n with
  | .error (s', e) => .fail s' e
  | .ok (s', p) =>
    if isHost p.pa then
      match atomic with
      | none => .fail s' { FaultInfo.plain cPERM with sub := 6, va := va, pte := p.pte, wr := true }
      | some (fn, v, cmp) =>
        match s'.request ag p.pa n (.atomic fn v cmp) with
        | (s'', some (some old)) => .ok s'' old
        | (s'', some none) => .fail s'' (perm7 va p.pte true)
        | (s'', none) => .wait s''
    else
      match s'.readPlace ag p va n false with
      | .fail s'' e => .fail s'' { e with wr := true }
      | .wait s'' => .wait s''
      | .ok s'' l =>
        let old := leNat l
        match f old with
        | none => .ok s'' old
        | some v => match s''.writePlace ag p va (leBytes n v) [] with
          | .ok t _ => .ok t old
          | .fail t e => .fail t e
          | .wait t => .wait t

/-- A load of a 64-byte or longer block as one access; on a host-shared page outside HBM it goes in 8-byte requests (R247). -/
def State.loadBlock (s : State) (ag : Agent) (va : Word) (n : Nat) : Acc (List Byte) :=
  match s.locate ag .read va n with
  | .error (s', f) => .fail s' f
  | .ok (s', p) =>
    if isHbm p.pa n || isControl p.pa || (isScaleOut p.pa && !pteHS p.pte) then s'.readPlace ag p va n false
    else if isScaleOut p.pa && s'.qpErr.contains (qpOf p.pa) then .fail s' (perm7 va p.pte false)
    else match s'.requestAll ((List.range (n / 8)).map (fun i => ⟨ag.who, ag.flock, p.pa + 8 * i, 8, .read⟩)) with
      | (s'', some rs) =>
        if rs.any (·.isNone) then .fail s'' (perm7 va p.pte false) else .ok s'' (rs.flatMap (fun v => leBytes 8 (v.getD 0)))
      | (s'', none) => .wait s''

/-- One indivisible update of a nibble of a byte, which needs W only (R200, R247). Outside HBM it is one request, which leaves the other
nibble to its holder. -/
def State.storeNibble (s : State) (ag : Agent) (va : Word) (hi : Bool) (v : Nat) (cover : List Nat) : Acc Unit :=
  match s.locate ag .write va 1 with
  | .error (s', f) => .fail s' f
  | .ok (s', p) =>
    if isHbm p.pa 1 then
      let old := (s'.viewByte p.key p.pa).toNat
      let whole := cover.contains (va.toNat / 64)
      -- the record of a failed update holds the element's bits alone (R412)
      if s'.lineBad (p.pa / 64) && !whole then s'.writePlace ag p va (leBytes 1 (if hi then 16 * v else v)) []
      else s'.writePlace ag p va (leBytes 1 (if hi then old % 16 + 16 * v else old / 16 * 16 + v)) (if whole then [p.pa / 64] else [])
    else if isControl p.pa then .ok s' ()
    else if isScaleOut p.pa && s'.qpErr.contains (qpOf p.pa) then .fail s' (perm7 va p.pte true)
    else match s'.request ag p.pa 1 (.nibble hi v) with
      | (s'', some (some _)) => .ok s'' ()
      | (s'', some none) => .fail s'' (perm7 va p.pte true)
      | (s'', none) => .wait s''

end Sys2Proof.Machine
end

