-- ==== Sys2Proof/Machine/Abort.lean ====
section
/-! DEFINITION. The end of a flock: release of what it holds (R37, R383) and the abort of a task with its successors
(R383, R384). -/
namespace Sys2Proof.Machine

/-- A requester that belongs to the drovers of a list. -/
def Requester.ofKeys (q : Requester) (keys : List Nat) : Bool :=
  match q with
  | .drover k | .chain k _ | .ring k _ => keys.contains k
  | .transfer k _ _ => keys.contains k
  | _ => false

/-- Requesters that pass a test stop waiting; a record nobody waits for is dropped from the list (R415). -/
def State.dropRequesters (s : State) (gone : Requester → Bool) : State :=
  { s with dies := s.dies.map (fun e =>
      (e.1, { e.2 with
        awaited := (e.2.awaited.map (fun a => { a with who := a.who.filter (fun q => !gone q) })).filter (fun a => !a.who.isEmpty)
        backlog := e.2.backlog.map (fun b => (b.1, b.2.1, b.2.2.filter (fun q => !gone q))) })) }

/-- A core without what a flock's drovers held on it. -/
def Core.release (c : Core) (flock : Nat) (keys : List Nat) : Core :=
  { c with
    tiles := c.tiles.filter (fun e => e.2.flock != flock)
    transfers := c.transfers.filter (fun t => t.flock != flock)
    slots := c.slots.filter (fun e => !keys.contains e.2)
    srs := match c.srs.owner with
      | some k => if keys.contains k then Srs.reset else c.srs
      | none => c.srs }

/-- What a released booking still has at a quantum: the units of the quantum that has begun, until it ends (R336, R346). -/
def Booking.remnant (b : Booking) (q : Nat) : Option Booking :=
  let es := (b.entries.filter (fun e => e.cls != 7 && decide (e.from_ ≤ q) && decide (q < e.until_))).map (fun e => { e with until_ := q + 1 })
  if es.isEmpty then none else some { b with owner := none, task := none, entries := es }

/-- Nobody's booking: the remnant of a released one. -/
def Booking.ownerless (b : Booking) : Bool := b.owner.isNone && b.task.isNone

/-- Release the bookings that pass a test; their quanta become free at the next boundary (R346). -/
def State.freeBookings (s : State) (gone : Booking → Bool) : State :=
  let cs := (s.bookings.filter gone).map (·.core)
  let s := { s with bookings := s.bookings.filterMap (fun b => if gone b then b.remnant (s.cycle / 8) else some b) }
  cs.foldl (fun s c => s.setCore c { s.core c with freed := true }) s

/-- Release everything a flock holds: drover slots and their state, lane groups, tiles, transfers, template slots, the
sequencer, bookings; an answer that comes later to one of its requests finds nobody (R37, R383, R415). -/
def State.releaseFlock (s : State) (f : Nat) : State :=
  match s.flock f with
  | none => s
  | some fl =>
    let keys := s.flockKeys f
    let s := s.freeBookings (fun b => match b.owner with
      | some k => keys.contains k
      | none => b.task == some fl.task)
    let s := fl.cores.foldl (fun s c => s.setCore c ((s.core c).release f keys)) s
    let s := { s with
      drovers := s.drovers.filter (fun e => !keys.contains e.1), unacked := s.unacked.filter (fun e => !keys.contains e.2)
      reqs := s.reqs.filter (fun r => !r.who.ofKeys keys), reps := s.reps.filter (fun r => !r.who.ofKeys keys) }
    let s := s.dropRequesters (fun q => q.ofKeys keys)
    { s with flocks := assocDel s.flocks f }

/-- The agent of the dispatcher's accesses for a task: its context, the HOME die of its queue. -/
def Task.agent (t : Task) : Agent :=
  sideAgent t.ctx t.die t.flock 2048 t.tcb.sup (.successor t.seq)

/-- The VAs of a successor list up to its first bad word, and that word's address (R374). -/
def State.successorWords (s : State) (ag : Agent) (va : Word) (is : List Nat) : Acc (List Word × Option Word) :=
  match is with
  | [] => .ok s ([], none)
  | i :: rest =>
    let a := va + BitVec.ofNat 64 (8 * (i + 1))
    match s.loadAt ag a 8 with
    | .fail s _ => .ok s ([], some a)
    | .wait s => .wait s
    | .ok s l =>
      let v := leNat l
      if v % 128 = 0 then (s.successorWords ag va rest).map (fun x => (BitVec.ofNat 64 v :: x.1, x.2)) else .ok s ([], some a)

/-- A successor list: its VAs, and the address of the bad word if one ends it (R374). -/
def State.successors (s : State) (ag : Agent) (va : Word) : Acc (List Word × Option Word) :=
  if va = 0 then .ok s ([], none)
  else match s.loadAt ag va 8 with
    | .fail s _ => .ok s ([], some va)
    | .wait s => .wait s
    | .ok s l => if leNat l > 255 then .ok s ([], some va) else s.successorWords ag va (List.range (leNat l))

/-- The stack of an ended task returns to its queue's pool (R379). -/
def State.freeStack (s : State) (h : Nat) (st : Option (Nat × Nat)) : State :=
  match st, s.queue h with
  | some b, some q => s.setQueue h { q with stackBlocks := q.stackBlocks.filter (· != b) }
  | _, _ => s

/-- The live launches of a TCB in a context: accepted, neither completed nor aborted (R384). -/
def State.liveLaunches (s : State) (ctx : Nat) (va : Word) : List Nat :=
  (s.tasks.filter (fun e => e.2.ctx == ctx && e.2.tcbVa == va && e.2.st != .ended && !e.2.aborted)).map (·.1)

/-- A task that has not started (R384). -/
def TaskSt.unstarted (t : TaskSt) : Bool :=
  match t with
  | .armed | .waiting | .ready | .held _ => true
  | _ => false

/-- What an abort does to the task itself: its flock's state is discarded, its bookings and stack go, its ranges retire, and a
QFAULT record with subcode 5 is posted, after the one that names a refusal's subcode (R376, R383). Its successors are still to be handled: FLOCK_COMPLETION goes on from stage 1. -/
def State.endAborted (s : State) (id icause sub : Nat) (va : Word) : State :=
  match s.task id with
  | none => s
  | some t =>
    let s := s.releaseFlock t.flock
    let s := s.freeBookings (fun b => b.task == some id)
    let s := s.freeStack t.handle t.stack
    let s := s.dropRequesters (fun q => q == .profile id)
    let s := s.setTask id { t with st := .ending, ranges := false, stage := 1, stack := none, aborted := true, blocked := false, place := [] }
    let s := if sub = 5 then s else s.qfault t.die t.ctx sub 0 t.flock t.handle t.tcbVa va
    s.qfault t.die t.ctx 5 icause t.flock t.handle t.tcbVa (if sub = 5 then va else 0)

/-- The successors of an aborted task under SUCC = 0 are aborted, each with its own, and the task is at its end; under SUCC = 1
they are left to be decremented (R384). `fuel` bounds the depth. -/
def State.abortSuccessors (s : State) (fuel : Nat) (id : Nat) : State :=
  match fuel, s.task id with
  | k + 1, some t =>
    if t.tcb.succ then s
    else match s.successors t.agent t.tcb.succVa with
      | .wait s => s
      | .fail s _ => s
      | .ok s (vs, bad) =>
        let s := match bad with
          | some a => s.qfault t.die t.ctx 7 0 t.flock t.handle t.tcbVa a
          | none => s
        let s := vs.foldl (fun s v =>
          match s.liveLaunches t.ctx v with
          | [] => { s with marks := if s.marks.contains (t.ctx, v.toNat) then s.marks else (t.ctx, v.toNat) :: s.marks }
          | ns => ns.foldl (fun s n =>
            if ((s.task n).map (fun (x : Task) => x.st.unstarted)).getD false then (s.endAborted n 0 5 0).abortSuccessors k n else s) s) s
        s.setTask id { t with st := .ended }
  | _, _ => s

/-- A depth that covers every chain of successors. -/
def State.abortDepth (s : State) : Nat := s.tasks.length + 1

/-- Abort a task (R383, R384). -/
def State.abortTask (s : State) (id icause sub : Nat) (va : Word) : State :=
  match s.task id with
  | none => s
  | some t =>
    match t.st with
    | .ending | .ended => s
    | _ => (s.endAborted id icause sub va).abortSuccessors s.abortDepth id

/-- Abort a flock (R383): nothing happens once its last drover has exited (R386). -/
def State.abortFlock (s : State) (f icause : Nat) : State :=
  match s.flock f with
  | none => s
  | some fl => if fl.ending then s else s.abortTask fl.task icause 5 0

end Sys2Proof.Machine
end

