-- ==== Sys2Proof/Machine/Ops.lean ====
section
/-! DEFINITION. The shared operations of the instructions: taking a trap and returning from one (R145 to R147),
suspension for the paging supervisor (R399), debug halts (R416), and how an instruction ends. -/
namespace Sys2Proof.Machine

/-- The outcome of an instruction. -/
abbrev Res := Host.Outcome State Fault Refusal

/-- FLT of a trap (R57). -/
def Trap.flt (t : Trap) : Word :=
  BitVec.ofNat 64 (t.cause + t.icause * 256 + (if t.wr then 0x10000 else 0) + (if t.ex then 0x20000 else 0) +
    (if t.posted then 0x40000 else 0))

/-- FEL of a trap: V and ELEM, 0 where no element applies (R57). -/
def Trap.fel (t : Trap) : Word :=
  match t.elem with
  | some e => BitVec.ofNat 64 (pow2 63 + e % pow2 48)
  | none => 0

/-- ESR as a trap writes it (R145): PL [1:0], RST [2], REP [3], CHB [4], SS [5]. -/
def Drover.trapEsr (d : Drover) (t : Trap) : Word :=
  BitVec.ofNat 64 ((if d.tr.sup then 1 else 0) + (if t.partway then 4 else 0) + (if t.rep then 8 else 0) +
    (if t.chb then 16 else 0) + (if d.stepping && t.cause != cSTEP then 32 else 0))

/-- Where a trap enters: TVEC.BASE, or BASE + 64 × cause (R145). -/
def Drover.handler (d : Drover) (cause : Nat) : Word :=
  let base := d.tr.tvec &&& ~~~(3 : Word)
  if d.tr.tvec &&& 3 = 0 then base else base + BitVec.ofNat 64 (64 * cause)

/-- What a capture that ends leaves: the address of its CHCFG, its slot given back (R294). -/
def State.dropCapture (s : State) (key : Nat) : State :=
  let d := s.drover key
  match d.capture with
  | none => s
  | some c =>
    let s := s.setDrover key { d with capture := none, pc := c.cfgPc }
    s.setCore (coreOf key) { (s.core (coreOf key)) with slots := (s.core (coreOf key)).slots.filter (fun e => e.1 != c.slot) }

/-- The drover as a trap leaves it: saved registers, level, pc (R145). -/
def Drover.enter (d : Drover) (t : Trap) : Drover :=
  { d with
    tr := { d.tr with sup := true, epc := t.epc &&& ~~~(3 : Word), esr := d.trapEsr t, flt := t.flt, fva := t.va, fpc := t.fpc, fel := t.fel }
    pc := d.handler t.cause, state := .issuing, wait := none, stall := none, restart := 0, raised := false, resume := false
    viaEret := false, atHandler := true, stepping := false, stepped := false, skip1 := false, again := false, repBack := false, tileUse := none
    reps := { d.reps with go := false }, susp := none, pending := [], answers := [] }

/-- TAKING A TRAP (R145, R146): the saved registers are written, the level becomes supervisor, the pc goes to the
handler. A drover whose TVEC is 0 has no handler: its flock is aborted. A trap during a capture discards it, with EPC at
the CHCFG (R294). -/
def State.takeTrap (s : State) (key : Nat) (t : Trap) : State :=
  let epc := match (s.drover key).capture with
    | some c => c.cfgPc
    | none => t.epc
  let s := s.dropCapture key
  let d := s.drover key
  if d.tr.tvec = 0 then s.abortFlock d.flock t.cause
  else s.setDrover key (d.enter { t with epc := epc })

/-- A trap of the issuing instruction with a cause and no address (R104, R145). -/
def Drover.trapOf (d : Drover) (cause : Nat) : Trap :=
  { cause := cause, icause := 0, va := 0, elem := none, wr := false, ex := false, posted := false, partway := false
    chb := false, rep := d.reps.go, epc := d.pc, fpc := d.iaddr }

/-- A trap at issue with no effect (R104). -/
def State.trapAt (s : State) (key cause : Nat) : State := s.takeTrap key ((s.drover key).trapOf cause)

/-- The trap a fault stands for. -/
def Drover.faultTrap (d : Drover) (f : FaultInfo) (elem : Option Nat) (partway : Bool) : Trap :=
  { d.trapOf f.cause with va := f.va, elem := elem, wr := f.wr, ex := f.ex, posted := f.records, partway := partway }

/-- The drover suspended for the paging supervisor: the fault registers and ESR.RST are written, and it stays TRAPPED
until its records have their verdicts (R399). -/
def Drover.suspend (d : Drover) (t : Trap) (p : List (Nat × FaultInfo)) : Drover :=
  { d with
    state := .trapped, susp := some t, pending := p, answers := [], stall := none, restart := 0
    tr := { d.tr with flt := t.flt, fva := t.va, fpc := t.fpc, fel := t.fel
                      esr := if t.partway then d.tr.esr ||| 4 else d.tr.esr &&& ~~~(4 : Word) } }

/-- Whether the instruction resumes from a restart point (R45, R147). -/
def Drover.resumesPart (d : Drover) : Bool := d.resume && d.tr.esr.getLsbD 2

/-- Whether the instruction at the pc has been executed in part. -/
def Drover.partly (d : Drover) : Bool := d.restart != 0 || d.resumesPart

/-- The REP at the pc goes on where it stood, rather than starting afresh (R155): after a halt, or after ERET under ESR.REP. -/
def Drover.repResumes (d : Drover) : Bool := d.repBack || (d.resume && d.viaEret && d.tr.esr.getLsbD 3)

/-- What a halt writes (R404): EPC the instruction at which the drover goes on, ESR.RST where that instruction is done in part,
ESR.REP and FPC in a REP (R156). A suspended drover keeps what its suspension wrote. What EPC, ESR and FPC held is kept, to stand again
when the drover resumes: in a handler they are still wanted, and results do not depend on halts (R409; DEDUCED, log 15). -/
def Drover.atHalt (d : Drover) (partway : Bool) : Drover :=
  if d.susp.isSome then d
  else
    let rst : Word := if partway || d.partly then 4 else 0
    let rep : Word := if d.reps.go || d.repResumes then 8 else 0
    { d with
      hold := some (d.tr.epc, d.tr.esr, d.tr.fpc)
      tr := { d.tr with epc := d.pc, esr := d.tr.esr &&& ~~~(12 : Word) ||| rst ||| rep, fpc := if d.reps.go then d.iaddr else d.tr.fpc } }

/-- The other way (R409): execution goes on at EPC, with the restart point of ESR.RST and the iteration of ESR.REP. -/
def Drover.unhold (d : Drover) : Drover :=
  match d.hold with
  | none => d
  | some (epc, esr, fpc) =>
    let rst := d.tr.esr.getLsbD 2
    { d with
      hold := none, pc := d.tr.epc, restart := if rst then d.restart else 0, again := d.again || rst
      reps := { d.reps with go := false }, repBack := d.tr.esr.getLsbD 3
      tr := { d.tr with epc := epc, esr := esr, fpc := fpc } }

/-- A halt (R404, R406): HALTED, lane groups released, the parked rectangle staying in place; what the drover waited for is asked again,
but for a barrier it has arrived at. -/
def Drover.halt (d : Drover) (dbg partway : Bool) (e : Nat) : Drover :=
  let d := d.atHalt partway
  { d with
    state := .halted, dbgHalt := d.dbgHalt || dbg, lgm := 0, stall := none, request := none
    restart := if partway then e else d.restart
    wait := match d.wait with
      | some (.barrier c g) => some (.barrier c g)
      | _ => none }

/-- A debug halt at the drover's instruction, or part-way in it (R416, R419 to R421); a capture is discarded (R404). The rest of what a
halt does is done as the cycle passes (`State.settleHalt`). -/
def State.debugHalt (s : State) (key : Nat) (partway : Bool) (e : Nat) : State :=
  let s := s.dropCapture key
  s.setDrover key ((s.drover key).halt true partway e)

/-- Whether a fault's record finds the ring of its die full: the requester waits (R397). -/
def State.ringFull (s : State) (key : Nat) (f : FaultInfo) : Bool :=
  let d := s.die (dieOf key)
  f.records && !f.suspends && d.frqb.isSome && d.ringFull

/-- A fault of the drover's instruction at an element: it suspends and posts a record, or posts and traps, or traps, as
its cause has it (R387, R399). A watchpoint under DCTL.ACT halts for debug instead (R420). -/
def State.raise (s : State) (key : Nat) (f : FaultInfo) (elem : Option Nat) (partway : Bool) : State :=
  let d := s.drover key
  let t := d.faultTrap f elem partway
  if f.cause = cWATCH && (s.debug d.flock).dctl.getLsbD 1 then
    s.debugHalt key partway (elem.getD 0)
  else if s.ringFull key f then
    s.setDrover key { d.stalled 13 with restart := if partway then elem.getD 0 else d.restart }
  else if f.suspends then
    let s := s.setDrover key (d.suspend t [((elem.getD 0), f)])
    s.post (dieOf key) d.ctx (s.recordOfDrover key f d.iaddr (elem.getD 0) false true) (some (.drover key))
  else
    let s := if f.records then s.post (dieOf key) d.ctx (s.recordOfDrover key f d.iaddr (elem.getD 0) false false) none else s
    s.takeTrap key t

/-- A fault of a scalar instruction: no element, nothing done (R135). -/
def State.raiseScalar (s : State) (f : FaultInfo) : State := s.raise s.sel f none false

/-- RETURN FROM A TRAP (R147, R422): level ESR.PL, pc EPC; the instruction returned to resumes under ESR.RST and ESR.REP,
is stepped under ESR.SS, and under DCTL.SKIP1 matches nothing. -/
def Drover.returnFrom (d : Drover) (skip : Bool) : Drover :=
  { d with
    tr := { d.tr with sup := d.tr.esr.getLsbD 0 }, pc := d.tr.epc, resume := true, viaEret := true
    stall := none, restart := 0, raised := false, atHandler := false, repBack := false, again := false, skip1 := skip, stepping := d.tr.esr.getLsbD 5 || d.stepping, stepped := d.stepping }

/-- Write the executing drover and go on. -/
def State.finish (s : State) (d : Drover) : Res := .next (s.setCur d)
/-- The instruction completes: the drover given, moved past it. -/
def State.complete (s : State) (d : Drover) : Res := .next (s.setCur d.retire)
/-- The instruction completes with a value in ga (R39). -/
def State.completeG (s : State) (a : Reg) (v : Word) : Res := s.complete (s.cur.setG a v)
/-- The instruction traps at issue. -/
def State.trapIssue (s : State) (cause : Nat) : Res := .next (s.trapAt s.sel cause)
/-- The instruction is not ready (R17): nothing changes but the reason (R425). -/
def State.notReady (s : State) (reason : Nat) : Res := .next (s.setCur (s.cur.stalled reason))
/-- An access awaits an answer: the instruction is not ready, the request stands. -/
def State.awaitReply (s : State) : Res := s.notReady 4

/-- Run the rest of an instruction with the value of an access; a fault of a scalar access is raised. -/
def Acc.scalar (a : Acc α) (k : State → α → Res) : Res :=
  match a with
  | .ok s v => k s v
  | .fail s f => .next (s.raiseScalar f)
  | .wait s => s.awaitReply

/-- Whether earlier writes of the drover through the scale-out aperture still await their acknowledgement: a release at
SYS scope is performed after them (R440). -/
def State.releasePending (s : State) (key : Nat) : Bool := s.unacked.any (fun e => e.2 == key)

/-- A release at SYS scope before the rest of the instruction: not ready while a write is unacknowledged (R249, R440). -/
def State.released (s : State) (k : Res) : Res := if s.releasePending s.sel then s.notReady 4 else k

end Sys2Proof.Machine
end

