-- ==== Sys2Proof/Machine/Flags.lean ====
section
/-! DEFINITION. The floating-point flags FEF, FEE and FEI as a vector instruction raises them (R53, R76, R77). -/
namespace Sys2Proof.Machine

/-- FEF and FEI while an instruction runs, and whether this execution has raised a flag or resumes (R53). -/
structure FlagAcc where
  fef : BitVec 7
  fei : Vector Fei 7
  raised : Bool
  deriving DecidableEq, Repr

/-- The index an element is recorded under: a run element above 65,535 counts as 65,535 (R306). -/
def feiIndex (i : Nat) : Nat := if i > 65535 then 65535 else i

/-- Flag n at element i: FEIn takes the minimum (R53). -/
def raiseOne (fei : Vector Fei 7) (n i : Nat) : Vector Fei 7 :=
  if h : n < 7 then
    let e := fei[n]
    fei.set n ⟨true, if e.v then Nat.min e.idx (feiIndex i) else feiIndex i⟩
  else fei

/-- The flags of a set, as numbers. -/
def flagList (f : FlagSet) : List Nat := (List.range 7).filter (fun n => f.getLsbD n)

/-- Raise the flags of a set at element i. The first flag of an execution that does not resume clears V everywhere. -/
def FlagAcc.raise (a : FlagAcc) (i : Nat) (f : FlagSet) : FlagAcc :=
  if f = 0 then a
  else
    let fei := if a.raised then a.fei else a.fei.map (fun e => { e with v := false })
    { fef := a.fef ||| f, fei := (flagList f).foldl (fun v n => raiseOne v n i) fei, raised := true }

/-- The flags of a drover as its instruction begins. -/
def Drover.flags (d : Drover) : FlagAcc := { fef := d.fef, fei := d.fei, raised := d.raised || d.resumesPart }

/-- Write the flags back. -/
def Drover.setFlags (d : Drover) (a : FlagAcc) : Drover := { d with fef := a.fef, fei := a.fei, raised := a.raised }

/-- Whether a set holds a flag that FEE enables (R53). -/
def Drover.enabled (d : Drover) (f : FlagSet) : Bool := d.fee &&& f != 0

end Sys2Proof.Machine
end

