-- ==== Sys2Proof/Machine/Operands.lean ====
section
/-! DEFINITION. The operands of vector instructions: rows through the window (R41, R42), elements in rows and row groups (R61,
R189), predicates and scales (R38, R70), bound streams (R222, R231), progress indices and the high-water mark (R43 to R46), register
words in error (R413). -/
namespace Sys2Proof.Machine

/-! ### Elements -/

/-- Element i of width w of a row (R61). -/
def rowElem {n : Nat} (r : BitVec n) (w i : Nat) : Nat := r.toNat / pow2 (i * w) % pow2 w
/-- A row with element i replaced. -/
def setRowElem {n : Nat} (r : BitVec n) (w i v : Nat) : BitVec n :=
  (r &&& ~~~(BitVec.ofNat n ((pow2 w - 1) * pow2 (i * w)))) ||| BitVec.ofNat n (v % pow2 w * pow2 (i * w))

def Vec.row (v : Vec) (n : Nat) : RowBits := if h : n < 256 then v.rows[n] else 0
def Vec.setRow (v : Vec) (n : Nat) (r : RowBits) : Vec := if h : n < 256 then { v with rows := v.rows.set n r } else v
def Vec.acc (v : Vec) (n : Nat) : RowBits := if h : n < 4 then v.accs[n] else 0
def Vec.setAcc (v : Vec) (n : Nat) (r : RowBits) : Vec := if h : n < 4 then { v with accs := v.accs.set n r } else v
def Vec.scale (v : Vec) (n : Nat) : ScaleBits := if h : n < 64 then v.scales[n] else 0
def Vec.setScale (v : Vec) (n : Nat) (r : ScaleBits) : Vec := if h : n < 64 then { v with scales := v.scales.set n r } else v
/-- Predicate n; p0 is all-true (R38). -/
def Vec.pred (v : Vec) (n : Nat) : PredBits := if n = 0 then -1 else if h : n < 16 then v.preds[n] else 0
/-- Write a predicate; p0 is read-only. -/
def Vec.setPred (v : Vec) (n : Nat) (p : PredBits) : Vec :=
  if n = 0 then v else if h : n < 16 then { v with preds := v.preds.set n p } else v
def Vec.pbit (v : Vec) (n i : Nat) : Bool := (v.pred n).getLsbD i
/-- Entry j of scale register n (R70). -/
def Vec.kent (v : Vec) (n j : Nat) : Nat := rowElem (v.scale n) 8 j

/-- Element i of a group of m rows from a physical row on: row base + (i mod m), position i ÷ m (R189). -/
def Vec.elem (v : Vec) (base m w i : Nat) : Nat := rowElem (v.row (base + i % m)) w (i / m)

/-- Write listed elements of a group. -/
def Vec.setElems (v : Vec) (base m w : Nat) (l : List (Nat × Nat)) : Vec :=
  l.foldl (fun v e => v.setRow (base + e.1 % m) (setRowElem (v.row (base + e.1 % m)) w (e.1 / m) e.2)) v

/-- Write listed bits of a predicate. -/
def Vec.setPbits (v : Vec) (n : Nat) (l : List (Nat × Nat)) : Vec :=
  v.setPred n (l.foldl (fun p e => setRowElem p 1 e.1 e.2) (v.pred n))

/-! ### Names, masks, limits -/

/-- The physical row of a vector name (R41). -/
def Drover.phys (d : Drover) (r : Reg) : Nat := d.vec.vwb + r.toNat
/-- m rows from a physical row on. -/
def group (base m : Nat) : List Nat := (List.range m).map (· + base)
/-- Whether a row lies outside the allocation (R41). -/
def Drover.outside (d : Drover) (rows : List Nat) : Bool := rows.any (fun r => decide (r ≥ d.rowsAlloc))

def Drover.vfmt (d : Drover) : Fmt := vtyFmt d.vec.vty
def Drover.vw (d : Drover) : Nat := d.vfmt.width
/-- Whether element i is active (R158). -/
def Drover.act (d : Drover) (m : Bool) (i : Nat) : Bool := !m || d.vec.pbit (vtyPs d.vec.vty) i
/-- Before the first SETVTY with a legal format and the first SETVL (R36). -/
def Drover.unready (d : Drover) : Bool := !(d.typed && d.configured)
/-- A reserved rounding mode (R52). -/
def Drover.rmBad (d : Drover) : Bool := decide (vtyRm d.vec.vty ≥ 5)
/-- The second RESCOMB condition of R70. -/
def Drover.scaleBad (d : Drover) : Bool := decide (d.vec.vl > 0) && decide ((d.vec.vl - 1) / pow2 (vtyBl d.vec.vty) ≥ 512)

/-! ### Progress and the high-water mark -/

def Vec.setPix (v : Vec) (n : Nat) (p : Pix) : Vec := if h : n < 256 then { v with pix := v.pix.set n p } else v
def Vec.pixOf (v : Vec) (n : Nat) : Pix := if h : n < 256 then v.pix[n] else Pix.reset
/-- The progress of written rows: complete at VL, or stopped at e (R43, R45). -/
def Vec.progress (v : Vec) (rows : List Nat) (p : Pix) : Vec := rows.foldl (fun v r => v.setPix r p) v

/-- The rows an instruction writes enter HWM, with the lanes of VL elements (R46). -/
def Vec.mark (v : Vec) (rows : List Nat) (w : Nat) : Vec :=
  if v.vl = 0 then v
  else { v with hwmRows := rows.foldl (fun a r => Nat.max a (r + 1)) v.hwmRows, hwmLanes := Nat.max v.hwmLanes ((v.vl * w + 127) / 128) }
/-- A written scale register enters KTOP, a written accumulator AMSK (R46). -/
def Vec.markK (v : Vec) (n : Nat) : Vec := { v with hwmK := Nat.max v.hwmK (n + 1) }
def Vec.markAcc (v : Vec) (n : Nat) : Vec := { v with hwmAcc := v.hwmAcc ||| BitVec.ofNat 4 (pow2 n) }

def Drover.setPpix (d : Drover) (p : Nat) (x : Pix) : Drover := if h : p < 16 then { d with ppix := d.ppix.set p x } else d
def Drover.ppixOf (d : Drover) (p : Nat) : Pix := if h : p < 16 then d.ppix[p] else Pix.reset

/-- Where an instruction that writes a predicate and no row starts: the core holds the predicate's progress (R45, R164). -/
def Drover.startPred (d : Drover) (p : Nat) : Nat :=
  if d.restart ≠ 0 then d.restart else if d.resumesPart then (d.ppixOf p).idx else 0

/-- Where an instruction starts: the point it stopped at while it waited, the least IDX of the rows it writes when it resumes
under ESR.RST, FEL.ELEM when it writes none, else 0 (R45, R147). -/
def Drover.startAt (d : Drover) (rows : List Nat) : Nat :=
  if d.restart ≠ 0 then d.restart
  else if d.resumesPart then
    match rows with
    | [] => if d.tr.fel.getLsbD 63 then (d.tr.fel.extractLsb' 0 48).toNat else 0
    | r :: rest => rest.foldl (fun a n => Nat.min a (d.vec.pixOf n).idx) (d.vec.pixOf r).idx
  else 0

/-! ### Lanes in use (R426) -/

/-- The classes of the lanes of each held group while an instruction occupies them for a cycle. -/
def Drover.laneUse (d : Drover) (act : Nat → Bool) : List (Nat × LaneCount) :=
  let per := if d.vw = 0 then 1 else 128 / d.vw
  let gs := (List.range 16).filter (fun g => d.lgm.getLsbD g)
  gs.zipIdx.map (fun e =>
    let cls := (List.range 64).map (fun k =>
      let els := ((List.range per).map (fun j => (e.2 * 64 + k) * per + j)).filter (fun i => decide (i < d.vec.vl))
      if els.any act then 0 else if els.isEmpty then 2 else 1)
    (e.1, { c := 1, u := cls.count 0, m := cls.count 1, b := cls.count 2, d := 0, s := 0 }))

def Drover.occupy (d : Drover) (act : Nat → Bool) : Drover := { d with occupied := d.laneUse act }

/-! ### Register words in error (R413) -/

def eccRow : Nat := 0
def eccPred : Nat := 1
def eccScale : Nat := 2
def eccAcc : Nat := 3
def eccQueue : Nat := 4
/-- Whether the word that holds element i of width w of a register is in error. -/
def Drover.eccAt (d : Drover) (kind reg w i : Nat) : Bool := d.ecc.contains ⟨kind, reg, i * w / 64⟩
/-- The words of a register that writes of the listed elements replace whole are sound again. -/
def Drover.eccWritten (d : Drover) (kind reg w : Nat) (els : List Nat) : Drover :=
  if d.ecc.isEmpty || w = 0 then d
  else { d with ecc := d.ecc.filter (fun e =>
    !(e.kind == kind && e.reg == reg && (List.range (64 / w)).all (fun j => els.contains (e.word * (64 / w) + j)))) }
/-- The fault of reading one. -/
def eccFault : FaultInfo := { FaultInfo.plain cMEMUE with sub := 1 }

/-! ### Copy and stream patterns (R222, R223) -/

def Desc.count (d : Desc) (k : Nat) : Nat := d.c.getD k 1
/-- The pattern rows and the elements of a pattern. -/
def Desc.rowsN (d : Desc) : Nat := d.count 1 * d.count 2 * d.count 3
def Desc.total (d : Desc) : Nat := d.count 0 * d.rowsN
/-- j_k of pattern element p. -/
def Desc.j (d : Desc) (p k : Nat) : Nat :=
  match k with
  | 0 => p % d.count 0
  | 1 => p / d.count 0 % d.count 1
  | 2 => p / (d.count 0 * d.count 1) % d.count 2
  | _ => p / (d.count 0 * d.count 1 * d.count 2)
/-- t_k of a pattern element, and whether it is in range. -/
def Desc.t (d : Desc) (p k : Nat) : Int := (d.j p k : Int) + d.i.getD k 0
def Desc.inDim (d : Desc) (p k : Nat) : Bool := decide (0 ≤ d.t p k) && decide (d.t p k < (d.x.getD k 1 : Int))
def Desc.inRange (d : Desc) (p : Nat) : Bool := (List.range 4).all (fun k => d.inDim p k)
/-- The exact address of a pattern element. -/
def Desc.addr (d : Desc) (p : Nat) : Int :=
  (d.base : Int) + (d.esz : Int) * (d.t p 0 + d.s.getD 0 0 * d.t p 1 + d.s.getD 1 0 * d.t p 2 + d.s.getD 2 0 * d.t p 3)

/-- Fields of a 64-byte block. -/
def fieldAt (l : List Byte) (off n : Nat) : Nat := leNat ((l.drop off).take n)
def sfieldAt (l : List Byte) (off n : Nat) : Int := toSigned (8 * n) (fieldAt l off n)
def zerosAt (l : List Byte) (off n : Nat) : Bool := fieldAt l off n == 0

/-- A descriptor as read, or none where a res0 bit is set or a field lies outside its limits (R222, R228). -/
def parseDesc (l : List Byte) (gather : Bool) : Option Desc :=
  let esz := pow2 (fieldAt l 8 1 % 4)
  let nd := fieldAt l 9 1
  let base := fieldAt l 0 8
  let c := (List.range 4).map (fun k => if k < nd then fieldAt l (0x10 + 2 * k) 2 else 1)
  let ok := decide (fieldAt l 8 1 < 4) && decide (1 ≤ nd) && decide (nd ≤ (if gather then 2 else 4)) && base % esz == 0 &&
    zerosAt l 0x0A 6 && zerosAt l 0x3C 4 && (c.take nd).all (· != 0) && (!gather || fieldAt l 0x30 8 % 4 == 0)
  if ok then some
    { base := base, esz := esz, ndim := nd, c := c
      i := (List.range 4).map (fun k => if k < nd then sfieldAt l (0x18 + 2 * k) 2 else 0)
      x := (List.range 4).map (fun k => if k < nd then fieldAt l (0x20 + 4 * k) 4 else 1)
      s := (List.range 3).map (fun k => if k + 1 < nd then sfieldAt l (0x30 + 4 * k) 4 else 0)
      idxVa := if gather then fieldAt l 0x30 8 else 0 }
  else none

/-- An exact address as a word; outside 64 bits it fails as XLATE subcode 0 (R224). -/
def wordOfAddr (a : Int) (wr : Bool) : Except FaultInfo Word :=
  if 0 ≤ a && a < ((pow2 64 : Nat) : Int) then .ok (BitVec.ofInt 64 a)
  else .error { FaultInfo.plain cXLATE with va := canon (BitVec.ofInt 64 a), wr := wr }

/-! ### Element accesses -/

/-- Why an instruction stops at an element: a fault, or an answer still awaited. -/
inductive Stop where
  | fault (f : FaultInfo)
  | wait
  deriving DecidableEq, Repr

/-- Elements read so far, and where reading stopped. -/
structure Reads where
  s : State
  vals : List (Nat × Nat)
  stop : Option (Nat × Stop)

/-- Read listed elements in turn, up to the first that fails. -/
def readElems (rd : State → Nat → Acc Nat) (l : List Nat) (r : Reads) : Reads :=
  match l with
  | [] => r
  | i :: rest =>
    match rd r.s i with
    | .ok s v => readElems rd rest { s := s, vals := assocPut r.vals i v, stop := none }
    | .fail s f => { r with s := s, stop := some (i, .fault f) }
    | .wait s => { r with s := s, stop := some (i, .wait) }

/-- When nothing of a group of accesses may be taken before all are answered: an awaited answer gives back those
already taken. -/
def Reads.keepAnswers (r : Reads) (s0 : State) : Reads :=
  match r.stop with
  | some (_, .wait) => { r with s := { r.s with reps := s0.reps } }
  | _ => r

/-- A load as a number. -/
def State.loadNat (s : State) (ag : Agent) (va : Word) (n : Nat) : Acc Nat :=
  match s.loadAt ag va n with
  | .ok s l => .ok s (leNat l)
  | .fail s f => .fail s f
  | .wait s => .wait s

/-! ### Bound rows (R230, R231) -/

def Drover.stream (d : Drover) (row : Nat) : Option Stream := d.streams.find? (fun t => t.row == row)

/-- Pattern element p of a read stream, for an agent: 0 out of range or past the end. It reads at the pop: of a store after the SBIND to an
element not yet popped the stream gives the stored value, where R256 allows the old one too (DESIGN CHOICE, log 71). -/
def State.popAs (s : State) (ag : Agent) (t : Stream) (p : Nat) : Acc Nat :=
  if p ≥ t.desc.total || !t.desc.inRange p then .ok s 0
  else match wordOfAddr (t.desc.addr p) false with
    | .error f => .fail s f
    | .ok a => s.loadNat ag a t.desc.esz
/-- The same for the executing drover. -/
def State.popElem (s : State) (t : Stream) (p : Nat) : Acc Nat := s.popAs (s.agentOf s.sel) t p

/-- The 64-byte lines that listed bytes cover whole (R410). -/
def coveredLines (bytes : List Nat) : List Nat :=
  ((bytes.map (· / 64)).eraseDups).filter (fun ln => (List.range 64).all (fun k => bytes.contains (64 * ln + k)))

/-- The lines that a push of n elements covers (R410); asked only where a line is in error. -/
def State.pushCover (s : State) (t : Stream) (n : Nat) : List Nat :=
  if s.poison.isEmpty && s.bad.isEmpty then []
  else coveredLines ((List.range n).flatMap (fun i =>
    let p := t.pos + i
    if p ≥ t.desc.total || !t.desc.inRange p then []
    else (List.range t.desc.esz).map (fun (k : Nat) => (t.desc.addr p + (k : Int)).toNat)))

/-- Write pattern element p of a write stream, one of a push of n elements; nothing out of range or past the end. -/
def State.pushAs (s : State) (ag : Agent) (t : Stream) (n p v : Nat) : Acc Unit :=
  if p ≥ t.desc.total || !t.desc.inRange p then .ok s ()
  else match wordOfAddr (t.desc.addr p) true with
    | .error f => .fail s f
    | .ok a => s.storeCover ag a (leBytes t.desc.esz v) (s.pushCover t n)
/-- The same for the executing drover: a push of VL elements. -/
def State.pushElem (s : State) (t : Stream) (p v : Nat) : Acc Unit := s.pushAs (s.agentOf s.sel) t s.cur.vec.vl p v

/-- The checks of a push of one element by the executing drover, without its write. -/
def State.pushProbe (s : State) (t : Stream) (p v : Nat) : Acc Unit :=
  if p ≥ t.desc.total || !t.desc.inRange p then .ok s ()
  else match wordOfAddr (t.desc.addr p) true with
    | .error f => .fail s f
    | .ok a => s.storeProbe (s.agentOf s.sel) a (leBytes t.desc.esz v) (s.pushCover t s.cur.vec.vl)

/-- The checks of writing listed elements, (row, element, value), of those in bound rows; where one fails. -/
def State.probePushes (s : State) (d : Drover) (l : List (Nat × Nat × Nat)) : State × Option (Nat × Stop) :=
  match l with
  | [] => (s, none)
  | (row, i, v) :: rest =>
    match d.stream row with
    | none => s.probePushes d rest
    | some t => match s.pushProbe t (t.pos + i) v with
      | .ok s _ => s.probePushes d rest
      | .fail s f => (s, some (i, .fault f))
      | .wait s => (s, some (i, .wait))

/-- What remains of accesses that an instruction began and takes back: the requests it sent, and after a failure what has left the
package. -/
def State.takeBack (s t : State) (x : Stop) : State :=
  match x with
  | .wait => { s with reqs := t.reqs }
  | .fault _ => { s with reqs := t.reqs, reps := t.reps, posted := t.posted, unacked := t.unacked }

/-- Whether reading or writing a row breaks R231: a write stream read, a read stream written, an element size not of VTY.FMT. -/
def Drover.streamBad (d : Drover) (reads writes : List Nat) : Bool :=
  d.streams.any (fun t =>
    (reads.contains t.row && (t.write || 8 * t.desc.esz != d.vw)) || (writes.contains t.row && (!t.write || 8 * t.desc.esz != d.vw)))

/-- The streams of listed rows move past VL elements (R231). -/
def Drover.advanceStreams (d : Drover) (rows : List Nat) : Drover :=
  { d with streams := d.streams.map (fun t =>
      if rows.contains t.row then { t with lastP := some t.pos, pos := t.pos + d.vec.vl } else t) }

/-- The popped elements of bound source rows: (row, element, value). -/
structure Pops where
  s : State
  vals : List (Nat × List (Nat × Nat))
  stop : Option (Nat × Stop)

/-- Pop the bound rows of a list, each at the listed elements; the lowest failing element is kept. -/
def State.popRows (s : State) (rows : List Nat) (els : Nat → List Nat) : Pops :=
  (rows.eraseDups).foldl (fun (p : Pops) row =>
    match s.cur.stream row with
    | none => p
    | some t =>
      let r := readElems (fun s i => s.popElem t (t.pos + i)) (els row) ⟨p.s, [], none⟩
      { s := r.s, vals := p.vals ++ [(row, r.vals)]
        stop := match p.stop, r.stop with
          | none, x => x
          | x, none => x
          | some x, some y => if y.1 < x.1 then some y else some x }) ⟨s, [], none⟩

/-- Element i of a group of rows, a bound row supplying what it popped. -/
def Vec.elemP (v : Vec) (pops : List (Nat × List (Nat × Nat))) (base m w i : Nat) : Nat :=
  match pops.find? (fun e => e.1 == base + i % m) with
  | some e => assocGetD e.2 0 (i / m)
  | none => v.elem base m w i

end Sys2Proof.Machine
end

