-- ==== Sys2Proof/Machine/Area.lean ====
section
/-! DEFINITION. Chain templates and runs as data: what a node reads and writes (R293), the chain state area (R318), the delivery
of a break and the resumption of a run (R312 to R315, R322), and the instructions a run holds (R307). -/
namespace Sys2Proof.Machine

/-! ### Nodes -/

def Node.row (n : Node) : Option Row :=
  match decodeRow n.word with
  | .ok r => some r
  | .error _ => none
def Node.kind (n : Node) : Nat := (n.row.bind nodeKindOf).getD 255
def Node.form (n : Node) : Option VForm := n.row.bind (fun r => formOf r n.word)
def Node.fa (n : Node) : Nat := n.vwb + (fA n.word).toNat
def Node.fb (n : Node) : Nat := n.vwb + (fB n.word).toNat
def Node.fc (n : Node) : Nat := n.vwb + (hiC (fHi n.word)).toNat
def Node.fmt (n : Node) : Fmt := vtyFmt n.vty
def Node.w (n : Node) : Nat := n.fmt.width
def Node.masked (n : Node) : Bool := fX n.word
/-- The input format and the accumulator of a transform node (R271). -/
def Node.matFmt (n : Node) : Fmt := Fmt.ofCode (fA n.word).toNat
def Node.accNo (n : Node) : Nat := (hiFn (fHi n.word)).toNat % 4
def Node.dstFmt (n : Node) : Fmt := ((n.form).map (fun f => f.dst n.fmt)).getD n.fmt

/-- Rows in a group when one side is `wide` bits and the other `narrow`. -/
def groupSize (wide narrow : Nat) : Nat := if narrow = 0 || wide ≤ narrow then 1 else wide / narrow

/-- A source row of a node: its first physical row, rows in its group, element width. -/
structure SrcRow where
  base : Nat
  m : Nat
  w : Nat
  deriving DecidableEq, Repr

/-- The row read through field b (R293). -/
def Node.srcB (n : Node) : Option SrcRow :=
  match n.form with
  | some f => if f.useB == .row then some ⟨n.fb, groupSize n.w n.dstFmt.width, n.w⟩ else none
  | none => if n.kind = 8 then some ⟨n.fb, 1, n.matFmt.width⟩ else none
/-- The row read through field c. -/
def Node.srcC (n : Node) : Option SrcRow :=
  match n.form with
  | some f => if f.useC == .row || f.useC == .seed then some ⟨n.fc, 1, n.w⟩ else none
  | none => if n.kind = 3 || n.kind = 5 then some ⟨n.fc, groupSize 32 n.w, 32⟩ else none
/-- The row read through field a. -/
def Node.srcA (n : Node) : Option SrcRow :=
  match n.form with
  | some f => if f.readsD then some ⟨n.fa, groupSize n.dstFmt.width n.w, n.dstFmt.width⟩ else none
  | none => if n.kind = 4 || n.kind = 5 then some ⟨n.fa, 1, n.w⟩ else none
/-- The destination group of a node that writes a row through tokens. -/
def Node.dst (n : Node) : Option SrcRow :=
  match n.kind with
  | 0 | 7 => some ⟨n.fa, groupSize n.dstFmt.width n.w, n.dstFmt.width⟩
  | 2 | 3 | 9 => some ⟨n.fa, 1, n.w⟩
  | _ => none
/-- Whether a seed row: read by CHRUN even when an earlier node writes it (R293). -/
def Node.seeded (n : Node) : Bool := n.kind == 6
/-- Whether the node reads p[VTY.PS]: under `.m`, or VSEL. -/
def Node.readsPred (n : Node) : Bool := (n.masked || ((n.form).map (·.usesP)).getD false) && vtyPs n.vty != 0

/-- Whether a node's writes of a row group include a row. -/
def Node.writesRow (n : Node) (row : Nat) : Bool :=
  match n.dst with
  | some d => decide (d.base ≤ row) && decide (row < d.base + d.m)
  | none => false
def Node.writesPred (n : Node) (p : Nat) : Bool := n.kind == 1 && (fA n.word).toNat == p

/-- The latest node before k that passes a test: the queue a source connects to (R293). -/
def latestBefore (ns : List Node) (k : Nat) (test : Node → Bool) : Option Nat :=
  ((List.range k).reverse).find? (fun j => ((ns[j]?).map test).getD false)

def rowQueue (ns : List Node) (k : Nat) (r : Option SrcRow) : Option Nat := r.bind (fun x => latestBefore ns k (fun n => n.writesRow x.base))
def qOfB (ns : List Node) (k : Nat) : Option Nat := (ns[k]?).bind (fun n => rowQueue ns k n.srcB)
def qOfC (ns : List Node) (k : Nat) : Option Nat := (ns[k]?).bind (fun n => if n.seeded then none else rowQueue ns k n.srcC)
def qOfA (ns : List Node) (k : Nat) : Option Nat := (ns[k]?).bind (fun n => rowQueue ns k n.srcA)
def qOfP (ns : List Node) (k : Nat) : Option Nat :=
  (ns[k]?).bind (fun n => if n.readsPred then latestBefore ns k (fun m => m.writesPred (vtyPs n.vty)) else none)

/-- The input queues of node k. -/
def inputs (ns : List Node) (k : Nat) : List Nat := ([qOfB ns k, qOfC ns k, qOfP ns k, qOfA ns k].filterMap id).eraseDups
/-- The nodes queue q feeds. -/
def consumers (ns : List Node) (q : Nat) : List Nat := (List.range ns.length).filter (fun k => (inputs ns k).contains q)
/-- Whether the node's destination row is bound as a write stream: it then makes no token. -/
def streamsOut (d : Drover) (n : Node) : Bool :=
  match n.dst with
  | some x => ((d.stream x.base).map (·.write)).getD false
  | none => false
/-- Whether node k makes tokens (R296). -/
def makesTokens (d : Drover) (n : Node) : Bool := (n.kind == 0 || n.kind == 1 || n.kind == 2 || n.kind == 3 || n.kind == 7 || n.kind == 8 || n.kind == 9) && !streamsOut d n
/-- A tap (R293). -/
def isTap (d : Drover) (ns : List Node) (q : Nat) : Bool := ((ns[q]?).map (makesTokens d)).getD false && (consumers ns q).isEmpty

/-- Operand element size and the accumulator width of a transform node. -/
def afWidth (f : AccFmt) : Nat := if f = .f64 then 64 else 32
/-- The full token length of a node's queue, and the width of its elements (R300, R318). -/
def Node.lq (n : Node) : Nat := if n.kind = 8 then n.tl * n.vl else 64
def Node.tokW (n : Node) (af : AccFmt) : Nat :=
  match n.kind with
  | 0 => n.dstFmt.width
  | 1 => 1
  | 8 => afWidth af
  | _ => n.w

/-- Strips of a run, and input elements of a strip (R300). -/
def stripsOf (count : Nat) : Nat := (count + 63) / 64
def stripLen (count s : Nat) : Nat := Nat.min 64 (count - 64 * s)

/-! ### The area (R318) -/

/-- n bytes: a list cut or filled with zeros. -/
def padTo (n : Nat) (l : List Byte) : List Byte := (l ++ List.replicate (n - l.length) (0 : Byte)).take n
/-- Elements packed under R61. -/
def packElems (w : Nat) (l : List Nat) : Nat := l.zipIdx.foldl (fun a e => a + e.1 % pow2 w * pow2 (w * e.2)) 0
def unpackElems (w n v : Nat) : List Nat := (List.range n).map (fun i => v / pow2 (w * i) % pow2 w)
def log2Of2 (w : Nat) : Nat := w.log2

def kindByte (o : Option Nat) : Nat := o.getD 0xFF

/-- The snapshots of a node in their order: sources b, c, a, then the destination (R318), with widths. -/
def snapsOf (ns : List Node) (k : Nat) (r : NodeRun) : List (Nat × List Nat) :=
  match ns[k]? with
  | none => []
  | some n =>
    let inv := fun (src : Option SrcRow) (q : Option Nat) (l : List Nat) => match src, q with
      | some x, none => [(x.w, l)]
      | _, _ => []
    inv n.srcB (qOfB ns k) r.snapB ++ inv n.srcC (qOfC ns k) r.snapC ++ inv n.srcA (qOfA ns k) r.snapA ++
      (match n.dst with
        | some x => if r.snapD.isEmpty then [] else [(x.w, r.snapD)]
        | none => [])

def snapBytes (l : List (Nat × List Nat)) (t : Nat) : List Byte :=
  match l[t]? with
  | some (w, els) => leBytes 512 (packElems w els)
  | none => List.replicate 512 0

def nodeRecord (ns : List Node) (run : Run) (k : Nat) : List Byte :=
  match ns[k]?, run.nodes[k]? with
  | some n, some r =>
    padTo 128 (leBytes 1 n.kind ++ leBytes 1 n.core ++
      leBytes 1 ((if 0 < r.strip ∧ r.strip ≥ stripsOf run.count then 1 else 0) + (if r.faulted then 2 else 0)) ++ leBytes 1 0 ++
      leBytes 4 n.word.toNat ++ leBytes 8 n.vty.toNat ++ leBytes 8 r.pix ++ leBytes 8 r.base.toNat ++ leBytes 8 r.stride.toNat ++
      leBytes 1 (kindByte (qOfB ns k)) ++ leBytes 1 (kindByte (qOfC ns k)) ++ leBytes 1 (kindByte (qOfP ns k)) ++ leBytes 1 (kindByte (qOfA ns k)) ++
      leBytes 4 0 ++ leBytes 8 r.psnap ++ leBytes 8 r.spos ++ leBytes 8 r.fva.toNat ++ leBytes 2 n.tl ++ leBytes 2 n.kl ++ leBytes 2 n.vl ++
      leBytes 2 0 ++ leBytes 8 r.scal.toNat)
  | _, _ => List.replicate 128 0

def queueRecord (d : Drover) (ns : List Node) (run : Run) (k : Nat) : List Byte :=
  match ns[k]?, run.queues[k]? with
  | some n, some q =>
    if makesTokens d n then
      let w := n.tokW d.vec.af
      padTo 4160 (leBytes 1 q.tokens.length ++ leBytes 1 (log2Of2 w) ++ leBytes 1 n.lq ++ leBytes 5 0 ++ leBytes 8 q.hs ++
        padTo 8 (q.tokens.map (fun t => BitVec.ofNat 8 t.elems.length)) ++ List.replicate 40 0 ++
        q.tokens.flatMap (fun t => leBytes 512 (packElems w t.elems)))
    else List.replicate 4160 0
  | _, _ => List.replicate 4160 0

def stateBlock (ns : List Node) (run : Run) (k : Nat) : List Byte :=
  match ns[k]?, run.nodes[k]? with
  | some n, some r =>
    if n.kind = 6 || n.kind = 7 then
      padTo 8192 (r.entries.flatMap (fun e => leBytes 8 (e.getD 0))) ++
        leBytes 256 (r.entries.zipIdx.foldl (fun a e => if e.1.isSome then a + pow2 e.2 else a) 0)
    else padTo 8448 (snapBytes (snapsOf ns k r) 2 ++ snapBytes (snapsOf ns k r) 3)
  | _, _ => List.replicate 8448 0

/-- IDS of a drover (R49). -/
def Drover.ids (d : Drover) (key : Nat) : Word := BitVec.ofNat 64 (d.flock * pow2 32 + d.fcore * 65536 + coreOf key * 256 + slotOf key)

def feiWord (f : Fei) : Nat := (if f.v then pow2 63 else 0) + f.idx

/-- The bytes of the area (R318). `owed` is FLG bit 2, `kind` the break kind. -/
def areaBytes (d : Drover) (key : Nat) (t : Template) (run : Run) (owed : Bool) : List Byte :=
  let ns := t.nodes
  let b := run.brk
  let header := padTo 256 (leBytes 2 1 ++ leBytes 1 ns.length ++ leBytes 1 (1 + (if t.tf then 2 else 0) + (if owed then 4 else 0)) ++
    leBytes 1 d.cst.icause ++ leBytes 1 ((b.map (·.fnode)).getD 0xFF) ++ leBytes 1 ((b.map (·.kind)).getD 5) ++ leBytes 1 t.slot ++
    leBytes 8 run.count ++ leBytes 8 run.rpc.toNat ++ leBytes 8 run.fef.toNat ++ run.fei.toList.flatMap (fun f => leBytes 8 (feiWord f)) ++
    leBytes 8 (d.ids key).toNat)
  let all := List.range 32
  let tr := ((List.range ns.length).filter (fun k => ((ns[k]?).map (·.kind)) == some 8)).take 4
  header ++ all.flatMap (nodeRecord ns run) ++
    all.flatMap (fun k => match run.nodes[k]? with
      | some r => snapBytes (snapsOf ns k r) 0 ++ snapBytes (snapsOf ns k r) 1
      | none => List.replicate 1024 0) ++
    all.flatMap (queueRecord d ns run) ++ all.flatMap (stateBlock ns run) ++
    (List.range 4).flatMap (fun i => match tr[i]? with
      | some k => match ns[k]?, run.nodes[k]? with
        | some _, some r => leBytes 16384 (packElems (afWidth d.vec.af) r.opnd)
        | _, _ => List.replicate 16384 0
      | none => List.replicate 16384 0)

/-- Bytes of a list from an offset, as a number. -/
def at_ (l : List Byte) (off n : Nat) : Nat := fieldAt l off n

/-- The snapshots of an area, in order: as many as the template's node has. -/
def parseSnaps (ns : List Node) (k : Nat) (hasD : Bool) (l : List Byte) : NodeRun → NodeRun := fun r =>
  match ns[k]? with
  | none => r
  | some n =>
    let get := fun (t w : Nat) =>
      let off := if t < 2 then 0x1100 + 1024 * k + 512 * t else 0x29900 + 8448 * k + 512 * (t - 2)
      unpackElems w 64 (at_ l off 512)
    let hasB := n.srcB.isSome && (qOfB ns k).isNone
    let hasC := n.srcC.isSome && (qOfC ns k).isNone
    let hasA := n.srcA.isSome && (qOfA ns k).isNone
    let tb := 0
    let tc := tb + hasB.toNat
    let ta := tc + hasC.toNat
    let td := ta + hasA.toNat
    { r with
      snapB := if hasB then get tb (((n.srcB).map (·.w)).getD 0) else []
      snapC := if hasC then get tc (((n.srcC).map (·.w)).getD 0) else []
      snapA := if hasA then get ta (((n.srcA).map (·.w)).getD 0) else []
      snapD := if hasD then get td (((n.dst).map (·.w)).getD 0) else [] }

/-- Whether node k has a destination snapshot: `.m` with VTY.MP = 0, unless that row is its invariant field-a source (R298,
R318). -/
def hasDst (ns : List Node) (k : Nat) : Bool :=
  match ns[k]? with
  | some n => n.masked && !vtyMp n.vty && (n.dst).isSome && !(n.srcA.isSome && (qOfA ns k).isNone)
  | none => false

/-- A run read from an area; none where R322 is broken. -/
def parseArea (d : Drover) (t : Template) (l : List Byte) : Option Run :=
  let ns := t.nodes
  let count := at_ l 8 8
  let S := stripsOf count
  let tr := (List.range ns.length).filter (fun k => ((ns[k]?).map (·.kind)) == some 8)
  let nodeOf := fun (k : Nat) (n : Node) =>
    let o := 0x100 + 128 * k
    let pix := at_ l (o + 0x10) 8
    let done := at_ l (o + 2) 1 % 2 == 1
    let lq := if n.lq = 0 then 64 else n.lq
    let blk := (l.drop (0x29900 + 8448 * k)).take 8448
    let entries := if n.kind = 6 || n.kind = 7 then
        (List.range 1024).map (fun p => if at_ blk (8192 + p / 8) 1 / pow2 (p % 8) % 2 = 1 then some (at_ blk (8 * p) 8 % pow2 n.w) else none)
      else []
    parseSnaps ns k (hasDst ns k) l
      { strip := if done then S else pix / lq, pix := pix, entries := entries
        snapB := [], snapC := [], snapA := [], snapD := [], psnap := at_ l (o + 0x30) 8
        base := BitVec.ofNat 64 (at_ l (o + 0x18) 8), stride := BitVec.ofNat 64 (at_ l (o + 0x20) 8), scal := BitVec.ofNat 64 (at_ l (o + 0x50) 8)
        opnd := (match tr.findIdx? (· == k) with
          | some i => unpackElems (afWidth d.vec.af) (n.kl * n.vl) (at_ l (0x6B900 + 16384 * i) 16384)
          | none => [])
        spos := at_ l (o + 0x38) 8, faulted := at_ l (o + 2) 1 / 2 % 2 == 1, fva := BitVec.ofNat 64 (at_ l (o + 0x40) 8), last := 0 }
  let nodesL := ns.zipIdx.map (fun e => nodeOf e.2 e.1)
  let queueOf := fun (k : Nat) (n : Node) =>
    let o := 0x9100 + 4160 * k
    let w := n.tokW d.vec.af
    let hs := at_ l (o + 8) 8
    ({ hs := hs, tokens := (List.range (Nat.min 8 (at_ l o 1))).map (fun i =>
        let len := at_ l (o + 0x10 + i) 1
        { elems := unpackElems w len (at_ l (o + 0x40 + 512 * i) 512)
          whole := decide (hs + i < ((nodesL[k]?).map (fun (r : NodeRun) => r.strip)).getD 0) }) } : Queue)
  let queuesL := ns.zipIdx.map (fun e => queueOf e.2 e.1)
  let okNode := ns.zipIdx.all (fun e =>
    let o := 0x100 + 128 * e.2
    at_ l (o + 4) 4 == e.1.word.toNat && at_ l (o + 8) 8 == e.1.vty.toNat && at_ l (o + 0x48) 2 == e.1.tl && at_ l (o + 0x4A) 2 == e.1.kl &&
      at_ l (o + 0x4C) 2 == e.1.vl)
  let okQueue := ns.zipIdx.all (fun e =>
    let o := 0x9100 + 4160 * e.2
    !makesTokens d e.1 ||
      (decide (at_ l o 1 ≤ 8) && (List.range 8).all (fun i => decide (at_ l (o + 0x10 + i) 1 ≤ e.1.lq))))
  -- the strips agree with R313: a queue holds its producer's strips from the least one a consumer still needs
  let okStrips := ns.zipIdx.all (fun e =>
    match nodesL[e.2]?, queuesL[e.2]? with
    | some r, some q =>
      let partial_ := (q.tokens.filter (fun t => !t.whole)).length
      decide (r.strip ≤ S) && (!makesTokens d e.1 ||
        (q.hs + q.tokens.length == r.strip + partial_ && decide (partial_ ≤ 1) &&
          (consumers ns e.2).all (fun c => ((nodesL[c]?).map (fun x => decide (q.hs ≤ x.strip) && decide (x.strip ≤ r.strip))).getD true)))
    | _, _ => false)
  if at_ l 0 2 = 1 && at_ l 2 1 = ns.length && at_ l 3 1 % 2 = 1 && okNode && okQueue && okStrips then
    let kind := at_ l 6 1
    some { count := count, rpc := BitVec.ofNat 64 (at_ l 0x10 8), nodes := nodesL, queues := queuesL, placed := false, units := [], sup := d.tr.sup, since := 0
           flagged := (List.range 7).any (fun i => at_ l (0x20 + 8 * i) 8 ≥ pow2 63)
           fef := BitVec.ofNat 7 (at_ l 0x18 8)
           fei := Vector.ofFn (fun i => let v := at_ l (0x20 + 8 * i.val) 8; ⟨decide (v ≥ pow2 63), v % 65536⟩)
           brk := if kind = 5 then none else some ⟨kind, at_ l 4 1, at_ l 5 1, 0, none, false⟩
           failing := none, imported := true, area := none, booked := false, seq := false, reuse := false, skips := [], decided := 0, sig := none, stop := none, dropAsked := false }
  else none

def areaSize : Nat := 0x7B900

/-- Write bytes at a 64-byte aligned address as stores of whole lines, in ascending address. -/
def storeLines (s : State) (ag : Agent) (va : Word) (l : List Byte) (fuel : Nat) : Acc Unit :=
  match fuel with
  | 0 => .ok s ()
  | k + 1 =>
    if l.isEmpty then .ok s ()
    else match s.storeAt ag va (l.take 64) with
      | .ok s _ => storeLines s ag (va + 64) (l.drop 64) k
      | .fail s f => .fail s f
      | .wait s => .wait s

/-- Write a whole block of lines: while an answer is awaited, nothing of it is taken as done. -/
def State.storeWhole (s : State) (ag : Agent) (va : Word) (l : List Byte) : Acc Unit :=
  match storeLines s ag va l (l.length / 64 + 1) with
  | .wait t => .wait { s with reqs := t.reqs }
  | r => r

/-- Read n lines of 64 bytes. -/
def loadLines (s : State) (ag : Agent) (va : Word) (n : Nat) : Acc (List Byte) :=
  match n with
  | 0 => .ok s []
  | k + 1 =>
    match s.loadBlock ag va 64 with
    | .ok s l => match loadLines s ag (va + 64) k with
      | .ok s r => .ok s (l ++ r)
      | .fail s f => .fail s f
      | .wait s => .wait s
    | .fail s f => .fail s f
    | .wait s => .wait s

/-- Read a whole block of lines. -/
def State.loadWhole (s : State) (ag : Agent) (va : Word) (n : Nat) : Acc (List Byte) :=
  match loadLines s ag va n with
  | .wait t => .wait { s with reqs := t.reqs }
  | r => r

/-! ### Units (R16, R295, R296) -/

/-- Units of R295: lane groups, stream engines, gather engine, matrix units. -/
def Node.unit (n : Node) : Nat :=
  match n.kind with
  | 2 | 4 => 1
  | 3 | 5 => 2
  | 8 => 3
  | 9 => 4
  | _ => 0
def unitMax (u : Nat) : Nat :=
  match u with
  | 0 => 16
  | 2 => 1
  | _ => 4
/-- The bound row of a node: a source or destination that is a stream (R296). -/
def nodeStream (d : Drover) (n : Node) : Option Stream :=
  d.streams.find? (fun t => [n.srcB, n.srcC, n.srcA, n.dst].any (fun x => (x.map (fun (r : SrcRow) => r.base == t.row)).getD false))

/-- Stream engines of a core that bound rows hold. -/
def State.streamsOn (s : State) (core : Nat) : Nat := (keysOf core).foldl (fun a k => a + (s.drover k).streams.length) 0

/-- Units of a kind that chained runs use on a core; `but` is left out. A node on a bound row uses the stream's engine in place of one
of its own (R296). -/
def State.unitsUsed (s : State) (but : Option Nat) (core u : Nat) : Nat :=
  s.drovers.foldl (fun a (e : Nat × Drover) =>
    match e.2.run, e.2.template with
    | some r, some t =>
      if some e.1 != but && e.2.cst.run && r.placed && !e.2.cst.tmp then
        a + (t.nodes.filter (fun n => n.unit == u && (u != 1 || (nodeStream e.2 n).isNone) && neighbour (coreOf e.1) n.core == some core)).length
      else a
    | _, _ => a) 0

/-! ### The sequencer of a core, as its owner sees it (R350, R354, R361) -/

/-- The sequencer as a drover reads it: 0 for a drover that does not own it (R350). -/
def State.srsOf (s : State) (key : Nat) : Srs :=
  let r := (s.core (coreOf key)).srs
  if r.owner = some key then r else Srs.reset

/-- A change to the sequencer of the drover's core, if the drover owns it. R350 gives only that another drover reads 0: a supervisor
SWR of SRSS or SKM by one completes and changes nothing (DESIGN CHOICE, log 63). -/
def State.setSrs (s : State) (key : Nat) (f : Srs → Srs) : State :=
  let c := s.core (coreOf key)
  if c.srs.owner = some key then s.setCore (coreOf key) { c with srs := f c.srs } else s

/-- Run elements of a tile. -/
def SrsCfg.te (c : SrsCfg) : Nat := pow2 (c.rl + c.cl)

/-- The formats a signature is made of. -/
def signable (f : Fmt) : Bool := f == .f16 || f == .bf16 || f == .f32

def Sig.start (t : Nat) : Sig := ⟨t, 0, 0, 0, false⟩

/-- The tile in progress of a sequenced run whose SNODE faults is not reusable (R361). -/
def State.noReuse (s : State) (key k : Nat) : State :=
  let d := s.drover key
  match (s.srsOf key).cfg, d.run with
  | some c, some r =>
    if r.seq && c.snode = k then
      let t := ((r.nodes[k]?).map (·.strip)).getD 0 * 64 / c.te
      let g := match r.sig with
        | some g => if g.tile = t then g else Sig.start t
        | none => Sig.start t
      (s.setDrover key { d with run := some { r with sig := some { g with nr := true } } }).setSrs key (fun x => { x with nr := true })
    else s
  | _, _ => s

/-! ### Break, delivery, resumption -/

/-- A CHAIN record of the run (R424): event 0 break, 1 resumption. -/
def State.chainRecord (s : State) (key ev : Nat) (run : Run) : State :=
  let d := s.drover key
  let b := run.brk
  s.emit d.flock d.ctx clsChain 0x12 2 (coreOf key) srcDrover (slotOf key)
    (leBytes 1 ev ++ leBytes 1 ((b.map (·.kind)).getD 0) ++ leBytes 1 d.cst.icause ++ leBytes 1 d.cst.tmp.toNat ++
      leBytes 6 ((run.nodes.map (·.strip)).foldl Nat.min (stripsOf run.count)) ++ leBytes 8 ((b.map (·.elem)).getD 0) ++ leBytes 8 run.rpc.toNat)

/-- SRSS.ACT falls with the run of its owner (R356). -/
def State.srsFall (s : State) (key : Nat) : State :=
  let c := s.core (coreOf key)
  if c.srs.owner = some key && c.srs.act then
    (s.setCore (coreOf key) { c with srs := { c.srs with act := false } }).latch key evSrs
  else s

/-- Requests of a run's nodes for firings that a break abandons (R311); what a later answer brings finds nobody. -/
def Requester.ofRun (q : Requester) (key : Nat) : Bool :=
  match q with
  | .chain k _ => k == key
  | _ => false

/-- A break (R311): RUN falls, RS rises, ICAUSE is set; the run's state stays in place. A fault that a node has met comes before another
reason (R349, R415).
Firings in progress are abandoned. -/
def State.breakRun (s : State) (key kind icause fnode elem : Nat) (fault : Option FaultInfo) : State :=
  let d := s.drover key
  match d.run with
  | none => s
  | some run =>
    let b : Break := run.failing.getD ⟨kind, icause, fnode, elem, fault, kind == 1⟩
    let run := { run with brk := some b, failing := none, area := none, placed := false, units := [] }
    let s := { s with reqs := s.reqs.filter (fun r => !r.who.ofRun key), reps := s.reps.filter (fun r => !r.who.ofRun key) }
    let s := s.setDrover key { d with run := some run, cst := { d.cst with run := false, rs := true, icause := b.icause } }
    let s := (s.srsFall key).chainRecord key 0 run
    s.latch key evChn

/-- The trap a fault break is delivered as (R314); FLT.WR is 0, as the notes' FLT = 0x4_060B of a failing store has it. -/
def Drover.chainTrap (d : Drover) (run : Run) (b : Break) (icause : Nat) (va : Word) (posted : Bool) : Trap :=
  { cause := cCHAINF, icause := icause, va := va, elem := some b.elem, wr := false, ex := false, posted := posted
    partway := false, chb := true, rep := d.reps.go, epc := d.pc, fpc := run.rpc }

/-- DELIVERY of a fault break at the drover's instruction (R314): the area is written; then the inner cause suspends the
drover with a record, or enters the handler. -/
def State.deliver (s : State) (key : Nat) : State :=
  let d := s.drover key
  match d.run, d.template with
  | some run, some t =>
    match run.brk with
    | none => s
    | some b =>
      let ag := { s.agentOf key with own := false }
      let paid := { run with brk := some { b with owed := false } }
      let stored := s.storeWhole ag d.cst.csab (areaBytes d key t run true)
      let (s, f, paid) := match stored with
        | .ok s _ => (s, b.fault, { paid with area := some 1 })
        | .fail s f => (s, some f, paid)
        | .wait s => (s, b.fault, run)
      if (match stored with
        | .wait _ => true
        | _ => false) then s
      else if f.any (s.ringFull key) then s.setDrover key ((s.drover key).stalled 13) else
      let d := s.drover key
      let s := s.setDrover key { d with run := some paid }
      match f with
      | none => s.takeTrap key (d.chainTrap run b b.icause 0 false)
      | some f =>
        let t := d.chainTrap run b f.cause f.va f.records
        if f.suspends then
          let d := (s.drover key).suspend t [(b.elem, f)]
          let s := s.setDrover key { d with tr := { d.tr with epc := t.epc, esr := d.tr.esr ||| 0x10 } }
          s.post (dieOf key) d.ctx (s.recordOfDrover key f run.rpc b.elem true true) (some (.chain key b.fnode))
        else
          let s := if f.records then s.post (dieOf key) d.ctx (s.recordOfDrover key f run.rpc b.elem true false) none else s
          s.takeTrap key t
  | _, _ => s

/-- Merge the flags of a run read from an area into the registers (R92). -/
def Drover.mergeFlags (d : Drover) (run : Run) : Drover :=
  { d with
    fef := d.fef ||| run.fef
    fei := Vector.ofFn (fun i => let a := d.fei[i]; let b := run.fei[i]
      if b.v then (if a.v then ⟨true, Nat.min a.idx b.idx⟩ else b) else a) }

/-- The streams of a run's nodes go back to the positions its state records (R315, R318). -/
def Drover.seekStreams (d : Drover) (t : Template) (run : Run) : Drover :=
  (t.nodes.zip run.nodes).foldl (fun (d : Drover) (e : Node × NodeRun) =>
    match nodeStream d e.1 with
    | some x => { d with streams := d.streams.map (fun y => if y.row == x.row then { y with pos := e.2.spos } else y) }
    | none => d) d

/-- A run as its saved state was read: its flags join the registers, its streams stand where it left them (R92, R315). -/
def State.adoptState (s : State) (key : Nat) (t : Template) (run : Run) : State :=
  s.setDrover key (((s.drover key).mergeFlags run).seekStreams t run)

/-- The run continues (R315): RUN 1, RS 0; TMP is 1 after a fault or under TF, else decided by placement (R299). -/
def State.continueRun (s : State) (key : Nat) (run : Run) : State :=
  let d := s.drover key
  let kind := (run.brk.map (·.kind)).getD 5
  let tmp := kind == 1 || ((d.template.map (·.tf)).getD false)
  let keep := kind == 3
  let run' := { run with brk := none, failing := none, area := none, imported := false, placed := false, units := [], since := s.cycle, booked := run.booked && keep
                         nodes := run.nodes.map (fun n => { n with faulted := false }) }
  let s := s.setDrover key { d with run := some run', cst := { d.cst with run := true, rs := false, tmp := tmp } }
  let c := s.core (coreOf key)
  let s := if c.srs.owner = some key && run.seq then s.setCore (coreOf key) { c with srs := { c.srs with act := true } } else s
  s.chainRecord key 1 run'

/-- RESUMPTION by the drover's instruction (R315): a state that was written to memory and changed there is read back
and validated; one that CHLOAD imported is taken as it was read. The tile in progress of a sequenced run is then not reusable (R361). -/
def State.resumeRun (s : State) (key : Nat) : Acc Unit :=
  let d := s.drover key
  match d.run, d.template with
  | some run, some t =>
    match run.area with
    | none => .ok ((if run.imported then s.adoptState key t run else s).continueRun key run) ()
    | some owed =>
      match s.loadWhole (s.agentOf key) d.cst.csab (areaSize / 64) with
      | .fail s f => .fail s f
      | .wait s => .wait s
      | .ok s l =>
        if l == areaBytes d key t { run with brk := run.brk.map (fun b => { b with owed := owed == 1 }) } (owed == 1) then
          .ok (s.continueRun key run) ()
        else match parseArea d t l with
          | none => .fail s (FaultInfo.plain cRESCOMB)
          | some r =>
            let r := { r with seq := run.seq, sup := run.sup, reuse := run.reuse, skips := run.skips, decided := run.decided
                              sig := run.sig.map (fun g => { g with nr := true }) }
            .ok ((s.adoptState key t r).continueRun key r) ()
  | _, _ => .ok (s.setDrover key { d with cst := { d.cst with rs := false } }) ()

/-- What an instruction of R314's set does first: deliver a break that is owed, or resume the run and go on. -/
def State.onBreak (s : State) (k : State → Res) : Res :=
  let d := s.cur
  if d.cst.rs then
    if (d.run.bind (·.brk)).any (·.owed) then .next (s.deliver s.sel)
    else match s.resumeRun s.sel with
      | .ok s _ => k s
      | .fail s f => .next (s.raiseScalar f)
      | .wait s => s.awaitReply
  else k s

/-- An instruction that a run holds (R307): not ready while CST.RUN is 1; a broken run is delivered or resumed
first. The hold and the delivery (R314) come before orders 4 to 8 of R104 of the held instruction itself, which names neither (DESIGN CHOICE,
log 67). -/
def State.held (s : State) (k : State → Res) : Res :=
  if s.cur.cst.run then s.notReady 12
  else s.onBreak (fun s => if s.cur.cst.run then s.notReady 12 else k s)

end Sys2Proof.Machine
end

