-- ==== Sys2Proof/Machine/Trace.lean ====
section
/-! DEFINITION. Records that a drover's own progress emits (R424 to R426): the end of a strip, lane intervals, booking states,
barriers. Also the strip table (R417). -/
namespace Sys2Proof.Machine

def laneBytes (g : Nat) (c : LaneCount) : List Byte :=
  leBytes 1 g ++ leBytes 3 0 ++ leBytes 4 c.c ++ leBytes 6 c.u ++ leBytes 6 c.m ++ leBytes 6 c.b ++ leBytes 6 c.d ++ leBytes 6 c.s

/-- A LANE record for each group that has counted cycles; the intervals start afresh (R426). -/
def State.emitLanes (s : State) (key : Nat) : State :=
  let d := s.drover key
  let s := s.setDrover key { d with lanes := [] }
  d.lanes.foldl (fun s e =>
    if e.2.c = 0 then s
    else if s.tren d.flock clsLane && s.traceAllowed d.ctx clsLane then
      s.emitRaw 0x02 0 (dieOf key) srcLane (16 * (coreOf key % 64) + e.1) (slotOf key) (laneBytes e.1 e.2)
    else s) s

/-- The strip in progress ends (R417, R424, R426). -/
def State.endStrip (s : State) (key : Nat) : State :=
  let d := s.drover key
  if d.inStrip then
    ((s.setDrover key { d with inStrip := false }).emit d.flock d.ctx clsStrip 0x01 0 (coreOf key) srcDrover (slotOf key)
      (leBytes 8 d.strp.toNat ++ leBytes 6 d.stro ++ leBytes 2 d.vec.vl ++ leBytes 1 d.groups ++ leBytes 4 d.flock)).emitLanes key
  else s

/-- The ordinal of a SETVL outside a full table (R417). -/
def noOrdinal : Nat := 0xFFFFFFFFFFFF

/-- The strip table after a SETVL at a PC, with its strip's ordinal (R417). -/
def stripOf (l : List Strip) (pc : Word) : List Strip × Nat :=
  match l.find? (fun e => e.pc == pc) with
  | some e => let n := (e.ord + 1) % pow2 48; (l.map (fun x => if x.pc == pc then { x with ord := n } else x), n)
  | none => if l.length < 32 then (l ++ [⟨pc, 0⟩], 0) else (l, noOrdinal)

/-- A SETVL begins a strip. -/
def Drover.beginStrip (d : Drover) : Drover :=
  let r := stripOf d.strips d.iaddr
  { d with strips := r.1, strp := d.iaddr, stro := r.2, inStrip := true }

/-- BKS.ST changes: the BKG event and a BOOK record (R148, R424). -/
def State.setBks (s : State) (key st ref freed : Nat) : State :=
  let d := s.drover key
  if d.bks.st = st then s.setDrover key { d with bks := { d.bks with ref := ref } }
  else
    let s := s.setDrover key { d with bks := { d.bks with st := st, ref := ref } }
    let s := s.emit d.flock d.ctx clsBook 0x13 0 (coreOf key) srcDrover (slotOf key)
      (leBytes 1 st ++ leBytes 1 ref ++ leBytes 8 d.bks.start.toNat ++ leBytes 2 freed)
    s.latch key evBkg

/-- A BARRIER record (R424): event 0 an arrival, 1 a completed generation. -/
def State.barrierRecord (s : State) (key ev : Nat) (core : Bool) (gen : Nat) : State :=
  let d := s.drover key
  s.emit d.flock d.ctx clsBarrier 0x11 0 (coreOf key) srcDrover (slotOf key)
    (leBytes 1 ev ++ leBytes 1 core.toNat ++ leBytes 4 gen ++ leBytes 4 d.flock)

/-! ### Barriers (R234) -/

/-- The generation of a scope. -/
def Flock.genOf (f : Flock) (core : Option Nat) : Nat :=
  match core with
  | none => f.gen
  | some c => assocGetD f.coreGen 0 c

def Flock.advance (f : Flock) (core : Option Nat) : Flock :=
  match core with
  | none => { f with gen := f.gen + 1 }
  | some c => { f with coreGen := assocPut f.coreGen c (assocGetD f.coreGen 0 c + 1) }

/-- Whether a drover has arrived at the current generation of a scope. -/
def Drover.arrived (d : Drover) (core : Bool) (gen : Nat) : Bool := d.wait == some (.barrier core gen)

/-- The drovers of a scope. -/
def State.scopeKeys (s : State) (flock : Nat) (core : Option Nat) : List Nat :=
  (s.flockKeys flock).filter (fun k => match core with
    | none => true
    | some c => coreOf k == c)

/-- A drover whose barrier generation has completed: it resumes, or it stays halted past its BARW (R234). -/
def State.passBarrier (s : State) (key : Nat) : State :=
  let d := s.drover key
  if d.state = .awaiting then s.wake key
  else s.setDrover key ({ d.unhold with wait := none }.retire.atHalt false)

/-- Complete the generation of a scope when every drover has arrived or exited and at least one has arrived. -/
def State.barrierCheck (s : State) (flock : Nat) (core : Option Nat) : State :=
  match s.flock flock with
  | none => s
  | some f =>
    let gen := f.genOf core
    let keys := s.scopeKeys flock core
    let here := keys.filter (fun k => (s.drover k).arrived core.isSome gen)
    if here.isEmpty || keys.any (fun k => (s.drover k).state != .exited && !(s.drover k).arrived core.isSome gen) then s
    else
      let s := s.setFlock flock (f.advance core)
      let s := match here.getLast? with
        | some k => s.barrierRecord k 1 core.isSome gen
        | none => s
      here.foldl (fun s k => s.passBarrier k) s

end Sys2Proof.Machine
end

