-- ==== Sys2Proof/Machine/Calendar.lean ====
section
/-! DEFINITION. The booking calendars (R325 to R348): profiles, the search, compaction, the start and the end of bookings, the
refresh allowance. All quanta are counted in the one cycle count of the model (log 3). -/
namespace Sys2Proof.Machine

/-! ### Profiles (R330, R331) -/

/-- Class codes of R326. -/
def kLg : Nat := 0
def kMtx : Nat := 1
def kTbank : Nat := 2
def kStrm : Nat := 3
def kLink : Nat := 4
def kHbm : Nat := 5
def kDlink : Nat := 6
def kRange : Nat := 7

/-- One entry of a profile within its limits. -/
def parseEntry (l : List Byte) (lgMin lgMax : Nat) : Option BookEntry :=
  let cls := fieldAt l 0 1
  let start := fieldAt l 4 2
  let dur := fieldAt l 6 2
  let mask := fieldAt l 8 8
  let bytes := fieldAt l 0x10 8
  let timed := decide (1 ≤ dur) && decide (dur ≤ 1024) && decide (start ≤ 1023) && decide (start + dur ≤ 1024)
  let units := fun n => decide (mask ≠ 0) && decide (mask < pow2 n) && bytes == 0 && timed
  let rates := fun n cap => decide (mask ≠ 0) && decide (mask < pow2 n) && decide (1 ≤ bytes) && decide (bytes ≤ dur * cap) && timed
  let ok := zerosAt l 1 3 && zerosAt l 0x18 8 &&
    match cls with
    | 0 => units 16 && decide (lgMin ≤ popcount 16 mask) && decide (popcount 16 mask ≤ lgMax)
    | 1 | 3 | 4 => units 4
    | 2 => units 8
    | 5 => rates 4 10880
    | 6 => rates 8 6656
    | 7 => start == 0 && dur == 0 && isCanon (BitVec.ofNat 64 mask) && decide (1 ≤ bytes) && decide (bytes ≤ pow2 40)
    | _ => false
  if ok then some ⟨cls, start, start + dur, dur, mask, bytes⟩ else none

/-- Two entries that reserve one unit in one quantum. -/
def BookEntry.clash (a b : BookEntry) : Bool :=
  a.cls == b.cls && a.cls != kRange && (a.mask &&& b.mask) != 0 && decide (a.from_ < b.until_) && decide (b.from_ < a.until_)

/-- No two entries of a list clash. -/
def noClash (l : List BookEntry) : Bool :=
  match l with
  | [] => true
  | e :: rest => !rest.any e.clash && noClash rest

/-- The count of entries a header announces, if it is in order. -/
def profileCount (h : List Byte) : Option Nat :=
  let n := fieldAt h 2 2
  if fieldAt h 0 2 = 1 && decide (1 ≤ n) && decide (n ≤ 63) && zerosAt h 4 28 then some n else none

/-- All entries, or none for a malformed profile. -/
def parseEntries (l : List Byte) (n lgMin lgMax : Nat) : Option (List BookEntry) :=
  let es := (List.range n).filterMap (fun i => parseEntry ((l.drop (32 * i)).take 32) lgMin lgMax)
  if es.length = n && noClash es then some es else none

/-- n words of 8 bytes, read in ascending order; all of them or none. -/
def State.loadWords (s : State) (ag : Agent) (va : Word) (n : Nat) : Acc (List Byte) :=
  let r := (readElems (fun s i => s.loadNat ag (va + BitVec.ofNat 64 (8 * i)) 8) (List.range n) ⟨s, [], none⟩).keepAnswers s
  match r.stop with
  | none => .ok r.s (r.vals.flatMap (fun e => leBytes 8 e.2))
  | some (_, .fault f) => .fail r.s f
  | some (_, .wait) => .wait r.s

/-- The profile at an address (R333 step 2, R380): its header and NENT entries are read, then it is none where it is malformed. -/
def State.loadProfile (s : State) (ag : Agent) (va : Word) (lgMin lgMax : Nat) : Acc (Option (List BookEntry)) :=
  if va.toNat % 64 != 0 then .fail s { FaultInfo.plain cMISALIGN with va := va }
  else match s.loadWords ag va 4 with
    | .fail s f => .fail s f
    | .wait s => .wait s
    | .ok s h => match s.loadWords ag (va + 32) (4 * fieldAt h 2 2) with
      | .ok s l => .ok s ((profileCount h).bind (fun n => parseEntries l n lgMin lgMax))
      | .fail s f => .fail s f
      | .wait s => .wait s

/-! ### Fit (R329, R333, R343, R344) -/

/-- Round up to a multiple of 8. -/
def up8 (n : Nat) : Nat := (n + 7) / 8 * 8
/-- Bytes per quantum of an hbm entry in each row, and of a dlink entry on each edge. -/
def BookEntry.rowNeed (e : BookEntry) : Nat := up8 ((e.bytes + 16 * e.dur - 1) / (16 * e.dur))
def BookEntry.edgeNeed (e : BookEntry) : Nat := up8 ((e.bytes + e.dur - 1) / e.dur)
def BookEntry.covers (e : BookEntry) (q : Nat) : Bool := decide (e.from_ ≤ q) && decide (q < e.until_)
def BookEntry.shift (e : BookEntry) (q : Nat) : BookEntry := { e with from_ := e.from_ + q, until_ := e.until_ + q }

/-- A row-quantum reserved for refresh: quantum 73 r of each interval in row r (R344). -/
def refreshRow (q : Nat) : Option Nat := if q % 1170 % 73 = 0 && q % 1170 / 73 < 16 then some (q % 1170 / 73) else none

/-- Bytes that bookings have in a quantum on a die's rows, or on an edge. -/
def usedBytes (bs : List Booking) (cls bit q : Nat) (need : BookEntry → Nat) : Nat :=
  bs.foldl (fun a b => b.entries.foldl (fun a e => if e.cls = cls && e.mask.testBit bit && e.covers q then a + need e else a) a) 0

/-- Whether an entry of a die calendar fits, its quanta absolute (R343, R344). -/
def State.fitsDie (s : State) (others : List Booking) (e : BookEntry) : Bool :=
  let qs := (List.range e.dur).map (· + e.from_)
  if e.cls = kHbm then
    (List.range 4).all (fun n => !e.mask.testBit n || qs.all (fun q =>
      decide (usedBytes others kHbm n q BookEntry.rowNeed + e.rowNeed ≤ 680) &&
        ((refreshRow q).isNone || (s.die n).released.contains q)))
  else if e.cls = kDlink then
    (List.range 8).all (fun n => !e.mask.testBit n || qs.all (fun q =>
      decide (usedBytes others kDlink n q BookEntry.edgeNeed + e.edgeNeed ≤ 6656)))
  else true

/-- Whether an entry of a core calendar fits: no unit of it is taken (R327, R333). -/
def fitsUnits (others : List Booking) (core : Nat) (e : BookEntry) : Bool :=
  decide (e.cls > kLink) || others.all (fun b => b.core != core || b.entries.all (fun x => !x.clash e))

/-- The lane groups the bookings of a list withhold on a core (R328). -/
def withheldBy (bs : List Booking) (core : Nat) : Nat := bs.foldl (fun a b => if b.core = core then a ||| b.withholds else a) 0

/-- R329 for one lg entry: lane groups in the pasture or the booker's own, and enough left for the drovers without
withheld groups, of which `extra` are about to be admitted. -/
def State.fitsLanes (s : State) (others : List Booking) (core key extra : Nat) (e : BookEntry) : Bool :=
  e.cls != kLg ||
  let own := (s.drover key).lgm.toNat
  let free := maskMinus 0xFFFF (maskMinus (s.heldOn core) own)
  let need := (keysOf core).foldl (fun a k =>
    let d := s.drover k
    if k != key && (assocGet s.drovers k).isSome && !(others.any (fun b => b.owner == some k && b.withholds != 0)) then a + d.lgMin else a) extra
  maskMinus e.mask free == 0 && decide (need ≤ 16 - popcount 16 (e.mask ||| withheldBy others core))

/-- Whether a drover's profile fits at a start quantum. -/
def State.fitsAt (s : State) (others : List Booking) (core key extra : Nat) (es : List BookEntry) (q : Nat) : Bool :=
  es.all (fun e => let x := e.shift q
    e.cls == kRange || (fitsUnits others core x && s.fitsDie others x && s.fitsLanes others core key extra x))

/-- The quantum of the present cycle. -/
def State.quantum (s : State) : Nat := s.cycle / 8

/-- The earliest start for a profile that a test accepts, within the horizon (R333 step 5). -/
def earliest (now : Nat) (es : List BookEntry) (fits : Nat → Bool) : Option Nat :=
  ((List.range 1024).map (· + now + 2)).find? (fun q =>
    es.all (fun e => e.cls == kRange || decide (q + e.until_ ≤ now + 1024)) && fits q)

/-- A range page outside the dies named by hbm entries, unmapped, without R or BK, or one whose read would fault in translation gives
code 2 (R333). -/
def State.rangePageBad (s : State) (ag : Agent) (dies : Nat) (va : Nat) : Bool :=
  let root := ((s.context ag.ctx).map (·.root)).getD 0
  decide (va ≥ pow2 64) || !isCanon (BitVec.ofNat 64 va) ||
  match walkFrom s (va % pow2 56) 0 root none 5 with
  | .error _ => true
  | .ok l =>
    let pa := (ptePPN l.pte + (va / 4096) % leafPages l.lvl) * 4096
    (checkLeaf s ag .read (va % pow2 56) l).isSome || !pteBK l.pte || !isHbm pa 4096 || (dies != 0 && !dies.testBit (pa / dieBytes))

def hbmDies (es : List BookEntry) : Nat := es.foldl (fun a e => if e.cls = kHbm then a ||| e.mask else a) 0

def State.rangesBad (s : State) (ag : Agent) (es : List BookEntry) : Bool :=
  es.any (fun e => e.cls == kRange &&
    (List.range ((e.mask % 4096 + e.bytes + 4095) / 4096)).any (fun i =>
      s.rangePageBad ag (hbmDies es) (e.mask / 4096 * 4096 + 4096 * i)))

/-- A link direction off the mesh (R333 code 5): bits x + 1, x − 1, y + 1, y − 1. -/
def linksBad (core : Nat) (es : List BookEntry) : Bool :=
  es.any (fun e => e.cls == kLink && (List.range 4).any (fun i => e.mask.testBit i && (neighbour core (i + 1)).isNone))

/-- The outcome of a search on a core against other bookings: the start quantum, or the refusal code, in the order 1, 2, 5, 3. -/
def State.searchOn (s : State) (ag : Agent) (core key : Nat) (others : List Booking) (es : Option (List BookEntry)) : Except Nat Nat :=
  match es with
  | none => .error 1
  | some es =>
    if s.rangesBad ag es then .error 2
    else if linksBad core es then .error 5
    else match earliest s.quantum es (s.fitsAt others core key 0 es) with
      | some q => .ok q
      | none => .error 3

/-- The outcome of a drover's search. A BKQRY in ST 2 or 3 finds the drover's own booked units taken, as R333's calendars have them
(R334). -/
def State.searchFor (s : State) (key : Nat) (es : Option (List BookEntry)) : Except Nat Nat :=
  s.searchOn { s.agentOf key with own := false } (coreOf key) key s.bookings es

/-- A booking's result in ga: BKST, or the code negated. -/
def searchWord (r : Except Nat Nat) : Word :=
  match r with
  | .ok q => BitVec.ofNat 64 (8 * q)
  | .error c => BitVec.ofInt 64 (-(c : Int))

/-- The search of a drover ends (R333 steps 6 and 7, R334). -/
def State.endSearch (s : State) (key : Nat) : State :=
  let d := s.drover key
  match d.bks.search with
  | none => s
  | some x =>
    let r := s.searchFor key x.entries
    let d := { d with bks := { d.bks with search := none } }.setG x.reg (searchWord r)
    if x.query then s.setDrover key d
    else match r with
      | .error c => (s.setDrover key d).setBks key 0 c 0
      | .ok q =>
        let b : Booking := ⟨coreOf key, some key, none, q, false, false, (x.entries.getD []).map (·.shift q)⟩
        let s := s.setDrover key { d with bks := { d.bks with start := BitVec.ofNat 64 (8 * q) } }
        ({ s with bookings := s.bookings ++ [b] }).setBks key 2 0 0

/-! ### Starts, ends, frees -/

/-- A change to the booking of a drover. -/
def State.mapBooking (s : State) (key : Nat) (f : Booking → Booking) : State :=
  { s with bookings := s.bookings.map (fun b => if b.owner == some key then f b else b) }

/-- The quanta a booking has not begun, for BOOK records. -/
def Booking.left (b : Booking) (q : Nat) : Nat := b.entries.foldl (fun a e => a + (e.until_ - Nat.max e.from_ (q + 1))) 0

/-- The booking of a drover ends in a state of BKS: its remaining quanta are freed (R336, R342, R346, R348). -/
def State.endBooking (s : State) (key st : Nat) : State :=
  let n := ((s.bookingOf key).map (·.left s.quantum)).getD 0
  let s := s.freeBookings (fun b => b.owner == some key)
  s.setBks key st (s.drover key).bks.ref n

/-- A drover that waits for its booked start resumes with its booked lane groups (R335). -/
def State.resumeBooked (s : State) (key : Nat) : State :=
  let d := s.drover key
  if d.state = .awaiting && d.wait == some .booking then
    ((s.setDrover key { d.retire with state := .issuing, wait := none }).grantBooked key).1
  else if d.state = .awaiting && d.wait == some .bookedRun then
    -- the CHRUN that waited issues again (R339)
    ((s.setDrover key { d with state := .issuing, wait := none, stall := none }).grantBooked key).1
  else s

/-- The quantum of BKST begins: ST 2 to 3 (R337). -/
def State.startBooking (s : State) (key : Nat) : State :=
  ((s.mapBooking key (fun b => { b with started := true })).setBks key 3 (s.drover key).bks.ref 0).resumeBooked key

/-- The lowest run element not completed, for the element of an OVERRUN. -/
def Run.front (r : Run) : Nat := r.nodes.foldl (fun a n => Nat.min a n.pix) r.count

/-- Node k waits on queue q for the token of its strip. -/
def Run.waitsFor (r : Run) (k q : Nat) : Bool :=
  match r.queues[q]?, r.nodes[k]? with
  | some y, some x => decide (x.strip ≥ y.hs + y.tokens.length)
  | _, _ => false

/-- OVERRUN (R342): a booked run that still has strips to complete breaks at a node and element as a fault break with inner cause
OVERRUN, and the booking takes ST 4. -/
def State.overrunRun (s : State) (key k elem : Nat) : State :=
  let d := s.drover key
  match d.run with
  | some r =>
    if d.cst.run && r.booked && r.nodes.any (fun n => decide (n.pix < r.count)) then
      (((s.noReuse key k).breakRun key 1 cOVERRUN k elem none).endBooking key 4)
    else s
  | none => s

/-- The node and the element at which a run stands: its least advanced node. -/
def Run.frontNode (r : Run) : Nat := (r.nodes.findIdx? (fun (n : NodeRun) => n.pix == r.front)).getD 0

/-- A home node that has waited more than 1,792 cycles for a token of a node on another core (R342): its queue from that core is
empty, and its last token, or the run's start, lies that far back. -/
def State.starvedNode (s : State) (key : Nat) : Option (Nat × Nat) :=
  let d := s.drover key
  match d.run, d.template with
  | some r, some t =>
    if d.cst.run && r.booked && r.placed then
      ((List.range t.nodes.length).find? (fun k => match t.nodes[k]?, r.nodes[k]? with
        | some n, some x =>
          n.core == 0 && decide (x.pix < r.count) && decide (s.cycle > Nat.max r.since x.last + 1792) &&
          (inputs t.nodes k).any (fun q => ((t.nodes[q]?).map (fun (m : Node) => m.core != 0)).getD false && r.waitsFor k q)
        | _, _ => false)).map (fun k => (k, ((r.nodes[k]?).map (·.pix)).getD 0))
    else none
  | _, _ => none

/-- Whether the last quantum of an lg, mtx or strm entry has ended. -/
def Booking.late (b : Booking) (q : Nat) : Bool :=
  b.entries.any (fun e => (e.cls == kLg || e.cls == kMtx || e.cls == kStrm) && decide (e.until_ ≤ q))
def Booking.over (b : Booking) (q : Nat) : Bool := b.entries.all (fun e => e.cls == kRange || decide (e.until_ ≤ q))

/-- Bookings of drovers whose start has come (R337): at the boundary those of drovers that wait; a drover that is issuing starts after
its issue of that cycle, so that a BKREL in it comes first (R349). -/
def State.startBookings (s : State) (q : Nat) (issuing : Bool) : State :=
  s.bookings.foldl (fun s b => match b.owner with
    | some k => if !b.started && b.start ≤ q && ((s.drover k).state == .issuing) == issuing then s.startBooking k else s
    | none => s) s

/-- Starts and ends of drovers' bookings as quantum q begins (R337, R342). -/
def State.turnBookings (s : State) (q : Nat) : State :=
  let s := s.startBookings q false
  s.bookings.foldl (fun s b => match b.owner with
    | some k =>
      if b.started && b.runStarted && b.late q then
        match (s.drover k).run with
        | some r => s.overrunRun k r.frontNode r.front
        | none => s
      else if b.started && !b.runStarted && b.over q then s.endBooking k 0
      else match s.starvedNode k with
        | some (n, e) => s.overrunRun k n e
        | none => s
    | none => s) s

/-! ### Compaction (R347) -/

/-- The dies whose calendar an entry is on: HBM of each named die, both ends of each named edge. -/
def BookEntry.onDie (e : BookEntry) (n : Nat) : Bool :=
  if e.cls = kHbm then e.mask.testBit n
  else if e.cls = kDlink then
    ([[0, 1], [2, 3], [0, 2], [1, 3], [0], [1], [2], [3]].zipIdx).any (fun x => e.mask.testBit x.2 && x.1.contains n)
  else false

/-- Try to move one unstarted booking to an earlier start. -/
def State.compactOne (s : State) (key : Nat) : State :=
  match s.bookingOf key with
  | none => s
  | some b =>
    let others := s.bookings.filter (fun x => x.owner != some key)
    let rel := b.entries.map (fun e => { e with from_ := e.from_ - b.start, until_ := e.until_ - b.start })
    match earliest s.quantum rel (s.fitsAt others b.core key 0 rel) with
    | some q =>
      if q < b.start then
        let s := s.mapBooking key (fun b => { b with start := q, entries := rel.map (·.shift q) })
        let d := s.drover key
        let s := s.setDrover key { d with bks := { d.bks with start := BitVec.ofNat 64 (8 * q) } }
        s.emit d.flock d.ctx clsBook 0x13 0 (coreOf key) srcDrover (slotOf key)
          (leBytes 1 2 ++ leBytes 1 d.bks.ref ++ leBytes 8 (8 * q) ++ leBytes 2 0)
      else s
    | none => s

/-- Compaction for a core on which quanta were freed: the unstarted bookings of the core and of its die calendar, by start,
then core, then slot. -/
def State.compact (s : State) (core : Nat) : State :=
  let n := dieOfCore core
  let l := s.bookings.filterMap (fun b =>
    match b.owner with
    | some k => if !b.started && (b.core == core || b.entries.any (fun e => e.onDie n)) then some (b.start, k) else none
    | none => none)
  (sortBy (fun a b => a.1 < b.1 || (a.1 == b.1 && a.2 ≤ b.2)) l).foldl (fun s e => s.compactOne e.2) s

def State.compactAll (s : State) : State :=
  let cs := (s.cores.filter (fun e => e.2.freed)).map (·.1)
  let s := { s with cores := s.cores.map (fun e => (e.1, { e.2 with freed := false })) }
  cs.foldl (fun s c => s.compact c) s

/-! ### Refresh (R345) -/

/-- The next reserved quantum of a row after a quantum. -/
def nextReserved (q r : Nat) : Nat :=
  let base := q / 1170 * 1170 + 73 * r
  if base > q then base else base + 1170

/-- The refresh allowance of a die after quantum q has ended, in which its rows carried class 0 bytes or did not. -/
def refreshDie (d : Die) (q : Nat) : Die :=
  let busy := d.class0
  let drawn := match refreshRow q with
    | some r => if d.released.contains q then some r else none
    | none => none
  let allowance := d.allowance.zipIdx.map (fun (e : Nat × Nat) =>
    let a := if drawn = some e.2 then e.1 - 1 else e.1
    if !busy && a < 8 then a + 1 else a)
  let rel := (allowance.zipIdx.filter (fun (e : Nat × Nat) => e.1 ≥ 1)).map (fun e => nextReserved q e.2)
  { d with class0 := false, allowance := allowance, released := (d.released.filter (fun x => decide (x > q)) ++ rel).eraseDups }

/-- A quantum begins (R325): refresh of the quantum that ended on every compute die, freed quanta become free (R346), compaction,
searches, starts and ends. -/
def State.beginQuantum (s : State) : State :=
  let q := s.quantum
  let s := [0, 1, 2, 3].foldl (fun (s : State) n => s.setDie n (refreshDie (s.die n) (q - 1))) s
  let s := { s with bookings := s.bookings.filter (fun b => !b.ownerless) }
  let s := s.compactAll
  let s := s.drovers.foldl (fun (s : State) (e : Nat × Drover) => s.endSearch e.1) s
  s.turnBookings q

end Sys2Proof.Machine
end

