-- ==== Sys2Proof/Machine/Scalar.lean ====
section
/-! DEFINITION. The scalar instructions: register and immediate arithmetic, jumps and branches, loads and stores, atomic
operations, fences (R123 to R141). -/
namespace Sys2Proof.Machine

/-! ### Results of R124 and R125 -/

def shAmount (c : Word) : Nat := (c.extractLsb' 0 6).toNat
/-- High 64 bits of an exact product. -/
def highOf (x : Int) : Word := BitVec.ofInt 64 (x / (pow2 64 : Int))
def divS (b c : Word) : Word := if c = 0 then -1 else BitVec.ofInt 64 (b.toInt.tdiv c.toInt)
def divU (b c : Word) : Word := if c = 0 then -1 else BitVec.ofNat 64 (b.toNat / c.toNat)
def remS (b c : Word) : Word := if c = 0 then b else BitVec.ofInt 64 (b.toInt.tmod c.toInt)
def remU (b c : Word) : Word := if c = 0 then b else BitVec.ofNat 64 (b.toNat % c.toNat)
def flagWord (p : Bool) : Word := if p then 1 else 0
def clz64 (w : Word) : Nat := ((List.range 64).find? (fun i => w.getLsbD (63 - i))).getD 64
def ctz64 (w : Word) : Nat := ((List.range 64).find? (fun i => w.getLsbD i)).getD 64
/-- The low n bits, sign- or zero-extended, 1 ≤ n ≤ 64. -/
def sextN (w : Word) (n : Nat) : Word := (w <<< (64 - n)).sshiftRight (64 - n)
def zextN (w : Word) (n : Nat) : Word := (w <<< (64 - n)) >>> (64 - n)
def bswap (w : Word) : Word :=
  w.extractLsb' 0 8 ++ w.extractLsb' 8 8 ++ w.extractLsb' 16 8 ++ w.extractLsb' 24 8 ++ w.extractLsb' 32 8 ++
    w.extractLsb' 40 8 ++ w.extractLsb' 48 8 ++ w.extractLsb' 56 8

/-- An immediate sign-extended to 64 bits (R98). -/
def sext64 {n : Nat} (i : BitVec n) : Word := i.signExtend 64

/-- A two-source operation on g registers (R124). -/
def intOp (f : Word → Word → Word) (a b c : Reg) (s : State) : Res := s.completeG a (f (s.cur.getG b) (s.cur.getG c))
/-- A one-source operation on a g register (R124). -/
def intOp1 (f : Word → Word) (a b : Reg) (s : State) : Res := s.completeG a (f (s.cur.getG b))
/-- An operation with an immediate (R126, R127). -/
def immOp (f : Word → Word → Word) (a b : Reg) (i : Word) (s : State) : Res := s.completeG a (f (s.cur.getG b) i)

/-- ADD (R124). -/
def execAdd (a b c : Reg) (s : State) : Res := intOp (fun b c => b + c) a b c s
/-- SUB (R124). -/
def execSub (a b c : Reg) (s : State) : Res := intOp (fun b c => b - c) a b c s
/-- MUL (R124). -/
def execMul (a b c : Reg) (s : State) : Res := intOp (fun b c => b * c) a b c s
/-- MULH (R124). -/
def execMulh (a b c : Reg) (s : State) : Res := intOp (fun b c => highOf (b.toInt * c.toInt)) a b c s
/-- MULHU (R124). -/
def execMulhu (a b c : Reg) (s : State) : Res := intOp (fun b c => highOf ((b.toNat : Int) * (c.toNat : Int))) a b c s
/-- MULHSU (R124). -/
def execMulhsu (a b c : Reg) (s : State) : Res := intOp (fun b c => highOf (b.toInt * (c.toNat : Int))) a b c s
/-- DIV (R125). -/
def execDiv (a b c : Reg) (s : State) : Res := intOp (fun b c => divS b c) a b c s
/-- DIVU (R125). -/
def execDivu (a b c : Reg) (s : State) : Res := intOp (fun b c => divU b c) a b c s
/-- REM (R125). -/
def execRem (a b c : Reg) (s : State) : Res := intOp (fun b c => remS b c) a b c s
/-- REMU (R125). -/
def execRemu (a b c : Reg) (s : State) : Res := intOp (fun b c => remU b c) a b c s
/-- AND (R124). -/
def execAnd (a b c : Reg) (s : State) : Res := intOp (fun b c => b &&& c) a b c s
/-- OR (R124). -/
def execOr (a b c : Reg) (s : State) : Res := intOp (fun b c => b ||| c) a b c s
/-- XOR (R124). -/
def execXor (a b c : Reg) (s : State) : Res := intOp (fun b c => b ^^^ c) a b c s
/-- ANDN (R124). -/
def execAndn (a b c : Reg) (s : State) : Res := intOp (fun b c => b &&& ~~~c) a b c s
/-- ORN (R124). -/
def execOrn (a b c : Reg) (s : State) : Res := intOp (fun b c => b ||| ~~~c) a b c s
/-- SHL (R124). -/
def execShl (a b c : Reg) (s : State) : Res := intOp (fun b c => b <<< shAmount c) a b c s
/-- SHR (R124). -/
def execShr (a b c : Reg) (s : State) : Res := intOp (fun b c => b >>> shAmount c) a b c s
/-- SRA (R124). -/
def execSra (a b c : Reg) (s : State) : Res := intOp (fun b c => b.sshiftRight (shAmount c)) a b c s
/-- ROR (R124). -/
def execRor (a b c : Reg) (s : State) : Res := intOp (fun b c => b.rotateRight (shAmount c)) a b c s
/-- SLT (R124). -/
def execSlt (a b c : Reg) (s : State) : Res := intOp (fun b c => flagWord (b.slt c)) a b c s
/-- SLTU (R124). -/
def execSltu (a b c : Reg) (s : State) : Res := intOp (fun b c => flagWord (b.ult c)) a b c s
/-- MIN (R124). -/
def execMin (a b c : Reg) (s : State) : Res := intOp (fun b c => if b.slt c then b else c) a b c s
/-- MAX (R124). -/
def execMax (a b c : Reg) (s : State) : Res := intOp (fun b c => if c.slt b then b else c) a b c s
/-- MINU (R124). -/
def execMinu (a b c : Reg) (s : State) : Res := intOp (fun b c => if b.ult c then b else c) a b c s
/-- MAXU (R124). -/
def execMaxu (a b c : Reg) (s : State) : Res := intOp (fun b c => if c.ult b then b else c) a b c s
/-- EXTS (R124). -/
def execExts (a b c : Reg) (s : State) : Res := intOp (fun b c => sextN b (shAmount c + 1)) a b c s
/-- EXTZ (R124). -/
def execExtz (a b c : Reg) (s : State) : Res := intOp (fun b c => zextN b (shAmount c + 1)) a b c s
/-- CLZ (R124). -/
def execClz (a b : Reg) (s : State) : Res := intOp1 (fun b => BitVec.ofNat 64 (clz64 b)) a b s
/-- CTZ (R124). -/
def execCtz (a b : Reg) (s : State) : Res := intOp1 (fun b => BitVec.ofNat 64 (ctz64 b)) a b s
/-- POPC (R124). -/
def execPopc (a b : Reg) (s : State) : Res := intOp1 (fun b => BitVec.ofNat 64 (popcount 64 b.toNat)) a b s
/-- BSWP (R124). -/
def execBswp (a b : Reg) (s : State) : Res := intOp1 (fun b => bswap b) a b s
/-- SELNZ (R124): ga keeps its value where g_c is 0. -/
def execSelnz (a b c : Reg) (s : State) : Res :=
  s.completeG a (if s.cur.getG c = 0 then s.cur.getG a else s.cur.getG b)

/-- ADDI (R126). -/
def execAddi (a b : Reg) (i : BitVec 11) (s : State) : Res := immOp (fun b c => b + c) a b (sext64 i) s
/-- ANDI (R126). -/
def execAndi (a b : Reg) (i : BitVec 11) (s : State) : Res := immOp (fun b c => b &&& c) a b (sext64 i) s
/-- ORI (R126). -/
def execOri (a b : Reg) (i : BitVec 11) (s : State) : Res := immOp (fun b c => b ||| c) a b (sext64 i) s
/-- XORI (R126). -/
def execXori (a b : Reg) (i : BitVec 11) (s : State) : Res := immOp (fun b c => b ^^^ c) a b (sext64 i) s
/-- SLTI (R126). -/
def execSlti (a b : Reg) (i : BitVec 11) (s : State) : Res := immOp (fun b c => flagWord (b.slt c)) a b (sext64 i) s
/-- SLTIU (R126). -/
def execSltiu (a b : Reg) (i : BitVec 11) (s : State) : Res := immOp (fun b c => flagWord (b.ult c)) a b (sext64 i) s
/-- SHLI (R127). -/
def execShli (a b : Reg) (n : BitVec 6) (s : State) : Res := immOp (fun b c => b <<< c.toNat) a b (n.setWidth 64) s
/-- SHRI (R127). -/
def execShri (a b : Reg) (n : BitVec 6) (s : State) : Res := immOp (fun b c => b >>> c.toNat) a b (n.setWidth 64) s
/-- SRAI (R127). -/
def execSrai (a b : Reg) (n : BitVec 6) (s : State) : Res := immOp (fun b c => b.sshiftRight c.toNat) a b (n.setWidth 64) s
/-- LI (R128). -/
def execLi (a : Reg) (i : BitVec 18) (s : State) : Res := s.completeG a (sext64 i)
/-- LIH (R128). -/
def execLih (a : Reg) (i : BitVec 18) (s : State) : Res := s.completeG a ((s.cur.getG a <<< 18) ||| i.setWidth 64)

/-! ### Jumps and branches (R129 to R133) -/

/-- The target of a word offset from the instruction's own address (R98). -/
def Drover.target {n : Nat} (d : Drover) (i : BitVec n) : Word := d.iaddr + 4 * sext64 i

/-- ADPC (R129). -/
def execAdpc (a : Reg) (i : BitVec 18) (s : State) : Res := s.completeG a (s.cur.target i)

/-- JAL (R130). -/
def execJal (a : Reg) (i : BitVec 18) (s : State) : Res :=
  let d := s.cur
  s.finish ((d.setG a (d.iaddr + 4)).retireTo (d.target i))

/-- JALR (R131): a target that is not a multiple of 4 traps MISALIGN with FVA the target. -/
def execJalr (a b : Reg) (i : BitVec 11) (s : State) : Res :=
  let d := s.cur
  let t := d.getG b + sext64 i
  if t &&& 3 ≠ 0 then .next (s.takeTrap s.sel { d.trapOf cMISALIGN with va := t })
  else s.finish ((d.setG a (d.iaddr + 4)).retireTo t)

/-- A branch (R132). -/
def branch (cond : Word → Word → Bool) (a b : Reg) (i : BitVec 11) (s : State) : Res :=
  let d := s.cur
  if cond (d.getG a) (d.getG b) then s.finish (d.retireTo (d.target i)) else s.complete d

/-- BEQ (R132). -/
def execBeq (a b : Reg) (i : BitVec 11) (s : State) : Res := branch (fun x y => x == y) a b i s
/-- BNE (R132). -/
def execBne (a b : Reg) (i : BitVec 11) (s : State) : Res := branch (fun x y => x != y) a b i s
/-- BLT (R132). -/
def execBlt (a b : Reg) (i : BitVec 11) (s : State) : Res := branch (fun x y => x.slt y) a b i s
/-- BGE (R132). -/
def execBge (a b : Reg) (i : BitVec 11) (s : State) : Res := branch (fun x y => !x.slt y) a b i s
/-- BLTU (R132). -/
def execBltu (a b : Reg) (i : BitVec 11) (s : State) : Res := branch (fun x y => x.ult y) a b i s
/-- BGEU (R132). -/
def execBgeu (a b : Reg) (i : BitVec 11) (s : State) : Res := branch (fun x y => !x.ult y) a b i s

/-! ### Loads and stores (R134 to R136) -/

/-- The address of a scalar load or store (R134). -/
def Drover.ea (d : Drover) (b : Reg) (i : BitVec 11) : Word := d.getG b + sext64 i

/-- The value n bytes give, sign- or zero-extended (R134). -/
def loadValue (n : Nat) (zero : Bool) (l : List Byte) : Word :=
  if zero then BitVec.ofNat 64 (leNat l) else (BitVec.ofNat (8 * n) (leNat l)).signExtend 64

/-- A scalar load of n bytes. -/
def scalarLoad (n : Nat) (zero : Bool) (a b : Reg) (i : BitVec 11) (s : State) : Res :=
  (s.loadAt (s.agentOf s.sel) (s.cur.ea b i) n).scalar (fun s l => s.completeG a (loadValue n zero l))

/-- A scalar store of n bytes; the data register is field a. -/
def scalarStore (n : Nat) (a b : Reg) (i : BitVec 11) (s : State) : Res :=
  (s.storeAt (s.agentOf s.sel) (s.cur.ea b i) (leBytes n (s.cur.getG a).toNat)).scalar (fun s _ => s.complete s.cur)

/-- LDB (R134). -/
def execLdb (a b : Reg) (i : BitVec 11) (s : State) : Res := scalarLoad 1 false a b i s
/-- LDBZ (R134). -/
def execLdbz (a b : Reg) (i : BitVec 11) (s : State) : Res := scalarLoad 1 true a b i s
/-- LDH (R134). -/
def execLdh (a b : Reg) (i : BitVec 11) (s : State) : Res := scalarLoad 2 false a b i s
/-- LDHZ (R134). -/
def execLdhz (a b : Reg) (i : BitVec 11) (s : State) : Res := scalarLoad 2 true a b i s
/-- LDW (R134). -/
def execLdw (a b : Reg) (i : BitVec 11) (s : State) : Res := scalarLoad 4 false a b i s
/-- LDWZ (R134). -/
def execLdwz (a b : Reg) (i : BitVec 11) (s : State) : Res := scalarLoad 4 true a b i s
/-- LDD (R134). -/
def execLdd (a b : Reg) (i : BitVec 11) (s : State) : Res := scalarLoad 8 false a b i s
/-- STB (R134). -/
def execStb (a b : Reg) (i : BitVec 11) (s : State) : Res := scalarStore 1 a b i s
/-- STH (R134). -/
def execSth (a b : Reg) (i : BitVec 11) (s : State) : Res := scalarStore 2 a b i s
/-- STW (R134). -/
def execStw (a b : Reg) (i : BitVec 11) (s : State) : Res := scalarStore 4 a b i s
/-- STD (R134). -/
def execStd (a b : Reg) (i : BitVec 11) (s : State) : Res := scalarStore 8 a b i s

/-! ### Atomic memory operations (R137 to R139, R261) -/

/-- An AMO of function number fn: `f` gives the new value from the old one, none writing nothing; `host` is whether a host
page admits it (R261). With .o it is a release, made after the drover's unacknowledged writes (R139, R440). -/
def amo (fn : Nat) (host : Bool) (f : Word → Word → Word → Option Word) (a b c : Reg) (o : Bool) (s : State) : Res :=
  let d := s.cur
  let v := d.getG c
  let cmp := d.getG a
  let run := (s.amoAt (s.agentOf s.sel) (d.getG b) 8 (if host then some (fn, v, cmp) else none)
    (fun old => (f (BitVec.ofNat 64 old) v cmp).map (·.toNat))).scalar (fun s old => s.completeG a (BitVec.ofNat 64 old))
  if o then s.released run else run

/-- AMOSWP (R137). -/
def execAmoswp (a b c : Reg) (o : Bool) (s : State) : Res := amo 0 true (fun _ v _ => some v) a b c o s
/-- AMOADD (R137). -/
def execAmoadd (a b c : Reg) (o : Bool) (s : State) : Res := amo 1 true (fun old v _ => some (old + v)) a b c o s
/-- AMOAND (R137). -/
def execAmoand (a b c : Reg) (o : Bool) (s : State) : Res := amo 2 false (fun old v _ => some (old &&& v)) a b c o s
/-- AMOOR (R137). -/
def execAmoor (a b c : Reg) (o : Bool) (s : State) : Res := amo 3 false (fun old v _ => some (old ||| v)) a b c o s
/-- AMOXOR (R137). -/
def execAmoxor (a b c : Reg) (o : Bool) (s : State) : Res := amo 4 false (fun old v _ => some (old ^^^ v)) a b c o s
/-- AMOMIN (R137). -/
def execAmomin (a b c : Reg) (o : Bool) (s : State) : Res := amo 5 false (fun old v _ => some (if old.slt v then old else v)) a b c o s
/-- AMOMAX (R137). -/
def execAmomax (a b c : Reg) (o : Bool) (s : State) : Res := amo 6 false (fun old v _ => some (if v.slt old then old else v)) a b c o s
/-- AMOMINU (R137). -/
def execAmominu (a b c : Reg) (o : Bool) (s : State) : Res := amo 7 false (fun old v _ => some (if old.ult v then old else v)) a b c o s
/-- AMOMAXU (R137). -/
def execAmomaxu (a b c : Reg) (o : Bool) (s : State) : Res := amo 8 false (fun old v _ => some (if v.ult old then old else v)) a b c o s
/-- AMOCAS (R137). -/
def execAmocas (a b c : Reg) (o : Bool) (s : State) : Res := amo 9 true (fun old v cmp => if old = cmp then some v else none) a b c o s

/-- FENCE (R140, R141): an ILLOP scope is no instruction; REL, AR and SEQ at SYS scope wait for the acknowledgement of the
drover's writes through the scale-out aperture (R440). Every other access is performed when it issues (log 4). -/
def execFence (k : BitVec 2) (sc : BitVec 3) (s : State) : Res :=
  if sc.toNat ≥ 6 then s.trapIssue cILLOP
  else if sc.toNat = 5 && k != 0 then s.released (s.complete s.cur)
  else s.complete s.cur

end Sys2Proof.Machine
end

