-- ==== Sys2Proof/Machine/Sys.lean ====
section
/-! DEFINITION. The SYS instructions: traps and their return, waiting, state registers, the vector window, REP, EXIT (R142 to
R156), and the state registers they reach (R49 to R58, R418). -/
namespace Sys2Proof.Machine

/-! ### Reading state registers -/

def wordOf (n : Nat) : Word := BitVec.ofNat 64 n

/-- GRT (R49). -/
def Drover.grt (d : Drover) : Word :=
  wordOf (vlmaxOf d.groups 16 * pow2 48 + vlmaxOf d.groups 32 * pow2 32 + d.lgm.toNat * pow2 16 + d.gc.toNat * 256 + d.groups)
/-- HWM (R46). -/
def Vec.hwm (v : Vec) : Word := wordOf (v.hwmAcc.toNat * pow2 40 + v.hwmK * pow2 32 + v.hwmLanes * pow2 16 + v.hwmRows)
def RepState.word (r : RepState) : Word :=
  wordOf (r.act.toNat * pow2 63 + r.fm.toNat * pow2 40 + r.strd.toNat * pow2 32 + r.cnt.toNat)
def Cst.word (c : Cst) : Word :=
  wordOf (c.exp.toNat * 65536 + c.icause * 256 + c.slot * 16 + c.tmp.toNat * 8 + c.rs.toNat * 4 + c.run.toNat * 2 + c.live.toNat)
def Bks.word (b : Bks) : Word := wordOf (b.ref * 256 + b.st)
def Srs.word (r : Srs) : Word :=
  wordOf (r.skips * pow2 32 + r.step * pow2 16 + r.nr.toNat * 4 + r.act.toNat * 2 + r.en.toNat)
def Pix.word (p : Pix) : Word := wordOf ((if p.done then pow2 63 else 0) + p.idx)

/-- A debug register (R418). -/
def Debug.read (g : Debug) (n : Nat) : Word :=
  if n < 0x408 then g.iba.toList.getD (n - 0x400) 0
  else if n < 0x410 then g.ibc.toList.getD (n - 0x408) 0
  else if n < 0x418 then g.wpa.toList.getD (n - 0x410) 0
  else if n < 0x420 then g.wpc.toList.getD (n - 0x418) 0
  else if n = 0x420 then g.dctl
  else if n = 0x421 then g.dsts
  else g.rstp

/-- The value of a state register (R49, R51). -/
def State.srRead (s : State) (key n : Nat) : Word :=
  let d := s.drover key
  match n with
  | 0x000 => wordOf d.vec.vl
  | 0x001 => d.vec.vty
  | 0x002 => wordOf d.vec.tl
  | 0x003 => wordOf d.vec.kl
  | 0x004 => wordOf d.vec.vwb
  | 0x005 => d.grt
  | 0x006 => d.vec.hwm
  | 0x007 => d.fef.setWidth 64
  | 0x008 => d.fee.setWidth 64
  | 0x020 => d.sms
  | 0x030 => d.reps.word
  | 0x060 => d.cst.word
  | 0x061 => d.cst.csab
  | 0x070 => d.bks.word
  | 0x071 => d.bks.start
  | 0x080 => (s.srsOf key).word
  | 0x300 => d.tr.flt
  | 0x301 => d.tr.fva
  | 0x302 => d.tr.fpc
  | 0x303 => d.tr.fel
  | 0x310 => d.ids key
  | 0x320 => d.tr.epc
  | 0x321 => d.tr.esr
  | 0x322 => d.tr.tvec
  | 0x330 => wordOf s.cycle
  | 0x430 => d.strp
  | 0x431 => wordOf d.stro
  | _ =>
    if n < 0x017 then wordOf (feiWord (d.fei.toList.getD (n - 0x010) Fei.reset))
    else if n < 0x044 then wordOf (d.cwm.toList.getD (n - 0x040) 0)
    else if n < 0x04C then wordOf (d.cnx.toList.getD (n - 0x048) 0)
    else if n < 0x180 then (s.srsOf key).skm.extractLsb' (64 * (n - 0x100)) 64
    else if n < 0x300 then (d.vec.pixOf (n - 0x200)).word
    else (s.debug d.flock).read n

/-- Whether a level may read a state register: EPC, ESR, TVEC and the debug registers are the supervisor's (R49). -/
def srReadable (sup : Bool) (n : Nat) : Bool := sup || decide (n < 0x320) || n == 0x330
/-- Whether a level may write it (R49). -/
def srWritable (sup : Bool) (n : Nat) : Bool :=
  [0x004, 0x005, 0x007, 0x008, 0x020, 0x061].contains n ||
  (sup && !(decide (0x200 ≤ n) && decide (n < 0x300)) && !(List.contains [0x310, 0x330, 0x430, 0x431] n))

/-! ### Writing state registers -/

/-- Bits of a value from `lo` on are zero. -/
def topZero (v : Word) (lo : Nat) : Bool := v >>> lo == 0
/-- n bits from `lo` on are zero. -/
def zeroBits (v : Word) (lo n : Nat) : Bool := v.toNat / pow2 lo % pow2 n == 0
def bitsOf (v : Word) (lo n : Nat) : Nat := v.toNat / pow2 lo % pow2 n

/-- A write of VTY clips VL where the new format has a width and the drover holds a grant (R50, R171). -/
def Drover.writeVty (d : Drover) (v : Word) : Drover :=
  let d := { d with vec := { d.vec with vty := v } }
  if (vtyFmt v).legal && d.lgm != 0 then { d with vec := { d.vec with vl := Nat.min d.vec.vl d.vlmax } } else d

/-- The checks of R50 on a debug register (R418). -/
def debugOk (g : Debug) (n : Nat) (v : Word) : Bool :=
  if n < 0x408 then isCanon v && zeroBits v 0 2
  else if n < 0x410 then zeroBits v 48 12
  else if n < 0x418 then isCanon v && v.toNat % pow2 (bitsOf (g.wpc.toList.getD (n - 0x410) 0) 52 5) == 0
  else if n < 0x420 then
    zeroBits v 48 4 && decide (bitsOf v 52 5 ≤ 24) && !(v.getLsbD 63 && bitsOf v 58 2 == 0) &&
      (g.wpa.toList.getD (n - 0x418) 0).toNat % pow2 (bitsOf v 52 5) == 0
  else if n = 0x420 then
    zeroBits v 40 24 && zeroBits v 29 3 && zeroBits v 4 20 &&
      (bitsOf v 24 5 == 0 || (decide (10 ≤ bitsOf v 24 5) && decide (bitsOf v 24 5 ≤ 24)))
  else if n = 0x421 then zeroBits v 16 48
  else zeroBits v 48 15

/-- A debug register written. -/
def Debug.write (g : Debug) (n : Nat) (v : Word) : Debug :=
  let put := fun (l : Vector Word 8) (i : Nat) => if h : i < 8 then l.set i v else l
  if n < 0x408 then { g with iba := put g.iba (n - 0x400) }
  else if n < 0x410 then { g with ibc := put g.ibc (n - 0x408) }
  else if n < 0x418 then { g with wpa := put g.wpa (n - 0x410) }
  else if n < 0x420 then { g with wpc := put g.wpc (n - 0x418) }
  else if n = 0x420 then { g with dctl := v }
  else if n = 0x421 then { g with dsts := g.dsts &&& ~~~v }
  else { g with rstp := v }

/-- The limits of a write (R50, R54, R55). -/
def State.srOk (s : State) (key n : Nat) (v : Word) : Bool :=
  let d := s.drover key
  match n with
  | 0x000 => decide (v.toNat ≤ d.vlmax)
  | 0x001 => topZero v 29
  | 0x002 => decide (v.toNat ≤ 1024)
  | 0x003 => decide (v.toNat ≤ 64)
  | 0x004 => v.toNat % 8 == 0 && decide (v.toNat ≤ 128)
  | 0x005 => zeroBits v 5 3 && zeroBits v 9 7
  | 0x006 => topZero v 44 && zeroBits v 39 1 && decide (bitsOf v 32 7 ≤ 64) && zeroBits v 27 5 &&
      decide (bitsOf v 16 11 ≤ 1024) && zeroBits v 9 7 && decide (bitsOf v 0 9 ≤ 256)
  | 0x007 | 0x008 => topZero v 7
  | 0x020 => topZero v 13
  | 0x030 => zeroBits v 43 20 && zeroBits v 39 1
  | 0x060 => topZero v 17
  | 0x061 => isCanon v && zeroBits v 0 6 && !d.cst.run && !d.cst.rs
  | 0x070 => topZero v 16 && zeroBits v 3 5 && decide (bitsOf v 0 3 ≤ 5)
  | 0x080 => topZero v 48 && zeroBits v 3 13
  | 0x300 => topZero v 19
  | 0x301 => isCanon v
  | 0x303 => zeroBits v 48 15
  | 0x320 => zeroBits v 0 2
  | 0x321 => topZero v 6 && decide (bitsOf v 0 2 ≤ 1)
  | 0x322 => decide (bitsOf v 0 2 ≤ 1)
  | _ =>
    if n < 0x017 then zeroBits v 16 47
    else if n < 0x04C then topZero v 48
    else if n < 0x400 then true
    else debugOk (s.debug d.flock) n v

def vset {α : Type} {n : Nat} (l : Vector α n) (i : Nat) (v : α) : Vector α n := if h : i < n then l.set i v else l

/-- Write a state register that passed its checks. A write of a flag bit that an engine sets is not lost (R51); events of
R148 that the write causes are latched. -/
def State.srWrite (s : State) (key n : Nat) (v : Word) : State :=
  let d := s.drover key
  let put := fun (d : Drover) => s.setDrover key d
  match n with
  | 0x000 => put { d with vec := { d.vec with vl := v.toNat } }
  | 0x001 => put (d.writeVty v)
  | 0x002 => put { d with vec := { d.vec with tl := v.toNat } }
  | 0x003 => put { d with vec := { d.vec with kl := v.toNat } }
  | 0x004 => put { d with vec := { d.vec with vwb := v.toNat } }
  | 0x005 => put { d with gc := d.gc && !v.getLsbD 8 }
  | 0x006 => put { d with vec := { d.vec with
      hwmRows := bitsOf v 0 9, hwmLanes := bitsOf v 16 11, hwmK := bitsOf v 32 7, hwmAcc := v.extractLsb' 40 4 } }
  | 0x007 => put { d with fef := v.setWidth 7 }
  | 0x008 => put { d with fee := v.setWidth 7 }
  | 0x020 => put { d with sms := v }
  | 0x030 => put { d with reps := { d.reps with
      act := v.getLsbD 63, fm := v.extractLsb' 40 3, strd := v.extractLsb' 32 7, cnt := v.extractLsb' 0 32 } }
  | 0x060 =>
    let fell := d.cst.run && !v.getLsbD 1
    let s := put { d with cst := { d.cst with
      exp := v.getLsbD 16, icause := bitsOf v 8 8, slot := bitsOf v 4 4, tmp := v.getLsbD 3, rs := v.getLsbD 2
      run := v.getLsbD 1, live := v.getLsbD 0 } }
    if fell then s.latch key evChn else s
  | 0x061 => put { d with cst := { d.cst with csab := v } }
  | 0x070 => s.setBks key (bitsOf v 0 3) (bitsOf v 8 8) 0
  | 0x071 => put { d with bks := { d.bks with start := v } }
  | 0x080 =>
    let old := s.srsOf key
    let s := s.setSrs key (fun r => { r with
      en := v.getLsbD 0, act := v.getLsbD 1, nr := v.getLsbD 2, step := bitsOf v 16 16, skips := bitsOf v 32 16 })
    if old.act && !v.getLsbD 1 then s.latch key evSrs else s
  | 0x300 => put { d with tr := { d.tr with flt := v } }
  | 0x301 => put { d with tr := { d.tr with fva := v } }
  | 0x302 => put { d with tr := { d.tr with fpc := v } }
  | 0x303 => put { d with tr := { d.tr with fel := v } }
  | 0x320 => put { d with tr := { d.tr with epc := v } }
  | 0x321 => put { d with tr := { d.tr with esr := v } }
  | 0x322 => put { d with tr := { d.tr with tvec := v } }
  | _ =>
    if n < 0x017 then put { d with fei := vset d.fei (n - 0x010) ⟨v.getLsbD 63, bitsOf v 0 16⟩ }
    else if n < 0x044 then
      let s' := put { d with cwm := vset d.cwm (n - 0x040) v.toNat }
      if d.cwm.toList.getD (n - 0x040) 0 = v.toNat then s' else s'.latch key evCpy
    else if n < 0x04C then put { d with cnx := vset d.cnx (n - 0x048) v.toNat }
    else if n < 0x180 then
      let i := 64 * (n - 0x100)
      s.setSrs key (fun r => { r with
        skm := (r.skm &&& ~~~((0xFFFFFFFFFFFFFFFF : BitVec 8192) <<< i)) ||| (v.setWidth 8192 <<< i) })
    else match s.flock d.flock with
      | some f => s.setFlock d.flock { f with dbg := f.dbg.write n v }
      | none => s

/-- NOP (R143). -/
def execNop (s : State) : Res := s.complete s.cur

/-- TRAP, SVC or BRK (R144): the return address is the word after it. -/
def softTrap (cause : Nat) (va : Nat) (s : State) : Res :=
  let d := s.cur
  .next (s.takeTrap s.sel { d.trapOf cause with va := wordOf va, epc := d.iaddr + 4 })
/-- TRAP (R144). -/
def execTrap (n : BitVec 14) (s : State) : Res := softTrap cTRAPI n.toNat s
/-- SVC (R144). -/
def execSvc (n : BitVec 14) (s : State) : Res := softTrap cTRAPI (n.toNat + 0x4000) s
/-- BRK (R144). -/
def execBrk (n : BitVec 14) (s : State) : Res := softTrap cBRKPT (n.toNat + 0x8000) s

/-- The drover's SKIP1 as ERET consumes it (R418). -/
def State.takeSkip (s : State) (flock : Nat) : State × Bool :=
  match s.flock flock with
  | none => (s, false)
  | some f =>
    if f.dbg.dctl.getLsbD 3 then (s.setFlock flock { f with dbg := { f.dbg with dctl := f.dbg.dctl &&& ~~~(8 : Word) } }, true)
    else (s, false)

/-- A grant point, for a drover that has had its first grant (R21). -/
def State.regrant (s : State) (key : Nat) : State := if (s.drover key).granted then (s.grantPoint key).1 else s

/-- ERET (R147): supervisor only; a grant point. -/
def execEret (s : State) : Res :=
  let d := s.cur
  if !d.tr.sup then s.trapIssue cILLOP
  else
    let (s, skip) := s.takeSkip d.flock
    .next ((s.setCur (d.returnFrom skip)).regrant s.sel)

/-- WAIT (R149). -/
def execWait (b : Reg) (s : State) : Res :=
  let d := s.cur
  let m := d.getG b
  let mask := m.setWidth 5
  if !topZero m 5 then s.trapIssue cILLOP
  else if m = 0 then s.complete d
  else if d.latch &&& mask != 0 then s.complete { d with latch := d.latch &&& ~~~mask }
  else s.finish (d.await (.event mask))

/-- A drover that a YIELD holds back: the drovers it named have not all issued (R150). -/
def Drover.yielding (d : Drover) : Bool := d.yieldUntil.isSome && !d.yieldFor.isEmpty

/-- A drover that has an instruction ready to issue, for YIELD's list (R150): the mark that its last attempt at an issue left says so, for the
rule does not say when readiness is tested (DESIGN CHOICE, log 69). -/
def Drover.mayIssue (d : Drover) : Bool := d.state == .issuing && !d.yielding && d.stall.isNone && d.request.isNone

/-- YIELD (R150): not ready until every other ready drover of the core has issued, or 64 cycles have passed. -/
def execYield (s : State) : Res :=
  let others := (keysOf (coreOf s.sel)).filter (fun k => k != s.sel && (s.drover k).mayIssue)
  let d := s.cur
  let s := s.setCur { d.retire with yieldUntil := some (s.cycle + 64), yieldFor := others }
  .next (s.latchSiblings s.sel)

/-- SRD (R152). -/
def execSrd (a : Reg) (n : BitVec 14) (s : State) : Res :=
  if assignedSr n.toNat && srReadable s.cur.tr.sup n.toNat then s.completeG a (s.srRead s.sel n.toNat)
  else s.trapIssue cILLOP

/-- SWR of a register and value. -/
def swr (n : Nat) (v : Word) (s : State) : Res :=
  if assignedSr n && srWritable s.cur.tr.sup n && s.srOk s.sel n v then
    let s := s.srWrite s.sel n v
    s.complete s.cur
  else s.trapIssue cILLOP

/-- SWR (R152); a write of VWB is held by a run (R307). -/
def execSwr (a : Reg) (n : BitVec 14) (s : State) : Res :=
  if n.toNat = 4 then s.held (fun s => swr 4 (s.cur.getG a) s) else swr n.toNat (s.cur.getG a) s

/-- WINB (R153): SWR of VWB from g_b. -/
def execWinb (b : Reg) (s : State) : Res := s.held (fun s => swr 4 (s.cur.getG b) s)

/-- Majors that REP does not repeat: SYS, JAL, JALR, the branches, CHN (R155). -/
def notRepeatable (w : BitVec 32) : Bool :=
  let op := (fOp w).toNat
  op == 0 || (decide (0x0C ≤ op) && decide (op ≤ 0x13)) || op == 0x39

/-- The first five checks of R155 on the repeated word. -/
def repBad (b : Reg) (f : BitVec 3) (n : Word) (w : BitVec 32) : Bool :=
  !topZero n 32 || notRepeatable w ||
  match decodeRow w with
  | .error _ => true
  | .ok r => f &&& ~~~r.vecFields != 0 || (r.writesG && fA w == b) || !r.wf w

/-- The fault on the fetch of a repeated word (R155). -/
def State.repFetchFault (s : State) (resuming : Bool) (f : FaultInfo) : State :=
  let key := s.sel
  let d := s.cur
  let t : Trap := { d.faultTrap f none false with ex := true, rep := resuming, fpc := d.pc + 4 }
  if f.suspends then
    let s := s.setDrover key (d.suspend t [(0, f)])
    s.post (dieOf key) d.ctx (s.recordOfDrover key f (d.pc + 4) 0 false true) (some (.drover key))
  else if s.ringFull key f then s.setDrover key (d.stalled 13)
  else
    let s := if f.records then s.post (dieOf key) d.ctx (s.recordOfDrover key f (d.pc + 4) 0 false false) none else s
    s.takeTrap key t

/-- REP (R154, R155): the next word is fetched and checked, then repeated by the front end. -/
def execRep (b c : Reg) (f : BitVec 3) (s : State) : Res :=
  let d := s.cur
  let resuming := d.repResumes
  match s.fetchAt (s.agentOf s.sel) (d.pc + 4) with
  | .fail s e => .next (s.repFetchFault resuming e)
  | .wait s => s.awaitReply
  | .ok s w =>
    let d := s.cur
    let n := d.getG b
    if repBad b f n w || (resuming && (d.reps.cnt == 0 || decide (d.reps.cnt.toNat > n.toNat))) then s.trapIssue cILLOP
    else
      let cnt := if resuming then d.reps.cnt else n.setWidth 32
      if cnt = 0 then s.finish (d.retireTo (d.pc + 8))
      else
        let d := if resuming then d else d.issued
        s.finish { d with stall := none, repBack := false
                          reps := { act := true, fm := f, strd := c, cnt := cnt, go := true, total := n.toNat, ins := w } }

/-- Every transfer of the drover has completed: CWMn = CNXn − 1 on every channel (R151). -/
def Drover.copiesDone (d : Drover) : Bool := (List.range 4).all (fun n => d.cwm.toList.getD n 0 + 1 == d.cnx.toList.getD n 1)

/-- A template slot given back. -/
def State.freeSlots (s : State) (key : Nat) : State :=
  let c := s.core (coreOf key)
  s.setCore (coreOf key) { c with slots := c.slots.filter (fun e => e.2 != key) }

/-- The sequencer released by its owner (R350, R352). -/
def State.releaseSrs (s : State) (key : Nat) : State :=
  let c := s.core (coreOf key)
  if c.srs.owner = some key then s.setCore (coreOf key) { c with srs := Srs.reset } else s

/-- Template and run discarded, the slot free (R316, R317). -/
def State.discardChain (s : State) (key : Nat) : State :=
  let d := s.drover key
  let fell := d.cst.run
  let s := s.srsFall key
  let d := s.drover key
  let s := (s.setDrover key { d with template := none, run := none, cst := { d.cst with live := false, run := false, rs := false } }).freeSlots key
  if fell then s.latch key evChn else s

/-- Every drover of a flock has arrived in its range release: its declared ranges retire (R371, R376). -/
def State.rangesCheck (s : State) (flock : Nat) : State :=
  match s.flock flock with
  | none => s
  | some f =>
    if (s.flockKeys flock).all (fun k => (s.drover k).tdone) then
      match s.task f.task with
      | some t => s.setTask f.task { t with ranges := false }
      | none => s
    else s

/-- A drover has exited: barriers, range release and the end of its flock follow (R37, R234, R371). -/
def State.afterExit (s : State) (flock core : Nat) : State :=
  let s := (s.barrierCheck flock none).barrierCheck flock (some core)
  let s := s.rangesCheck flock
  match s.flock flock with
  | none => s
  | some f =>
    if (s.flockKeys flock).all (fun k => (s.drover k).state == .exited) then
      let s := s.setFlock flock { f with ending := true }
      match s.task f.task with
      | some t => s.setTask f.task { t with st := .ending, stage := 0 }
      | none => s
    else s

/-- A row bound to a stream is unbound: the engine is free, the row reads as zero and counts as never written (R232). -/
def Drover.unbind (d : Drover) (row : Nat) : Drover :=
  { d with
    streams := d.streams.filter (fun t => t.row != row), vec := (d.vec.setRow row 0).setPix row Pix.reset
    ecc := d.ecc.filter (fun e => !(e.kind == eccRow && e.reg == row)) }

/-- The drover leaves: strip, template, run, streams, sequencer, booking, lane groups (R151, R232, R346, R350). A BOOK or BKQRY search
still under way counts as an instruction that is complete, and its outcome is discarded (DESIGN CHOICE, log 68). -/
def State.exitDrover (s : State) (key : Nat) : State :=
  let flock := (s.drover key).flock
  let s := (s.endStrip key).discardChain key
  let s := s.releaseSrs key
  let s := s.endBooking key 0
  let d := s.drover key
  let d := d.streams.foldl (fun (d : Drover) t => d.unbind t.row) d
  let s := s.setDrover key { d with
    state := .exited, wait := none, lgm := 0, capture := none, tdone := true, stall := none, request := none
    bks := { d.bks with st := 0, search := none }, reps := { d.reps with go := false } }
  (s.latchSiblings key).afterExit flock (coreOf key)

/-- EXIT (R151). As SUNBIND, which it performs on every bound row, it waits until what they pushed is performed (R232). -/
def execExit (s : State) : Res :=
  if !s.cur.copiesDone then s.notReady 8
  else if s.cur.streams.any (·.write) && s.releasePending s.sel then s.notReady 4
  else .next (s.exitDrover s.sel)

end Sys2Proof.Machine
end

