-- ==== Sys2Proof/Machine/Vector.lean ====
section
/-! DEFINITION. How a vector form runs (R157 to R167): the issue checks in the order of R104, the loop of R159 with flags,
streams and restart points, reductions as whole instructions (R165), and the configuration and predicate instructions
(R168 to R173, R199). -/
namespace Sys2Proof.Machine

/-- The fields of a vector word as a form uses them; `imm` is an immediate or encoded distance, `p` the predicate that VSEL
and the like read (VTY.PS unless a field names it). -/
structure VArgs where
  a : Reg
  b : Reg
  c : Reg
  m : Bool
  imm : Word
  p : Option Reg
  deriving DecidableEq, Repr

/-! ### Rows of a form -/

/-- Widths of the two sides, rows of the destination group and of the source group (R189). -/
def VForm.wd (F : VForm) (f : Fmt) : Nat := (F.dst f).width
def VForm.md (F : VForm) (f : Fmt) : Nat := groupSize (F.wd f) f.width
def VForm.mb (F : VForm) (f : Fmt) : Nat := groupSize f.width (F.wd f)

def Drover.rowsB (d : Drover) (F : VForm) (x : VArgs) : List Nat :=
  if F.useB == .row then group (d.phys x.b) (F.mb d.vfmt) else []
def Drover.rowsC (d : Drover) (F : VForm) (x : VArgs) : List Nat :=
  match F.useC with
  | .row | .seed | .carry => [d.phys x.c]
  | _ => []
/-- Rows the form writes. -/
def Drover.rowsD (d : Drover) (F : VForm) (x : VArgs) : List Nat :=
  (if F.dstPred then [] else group (d.phys x.a) (F.md d.vfmt)) ++ (if F.useC == .carry then [d.phys x.c] else [])
/-- Rows the form reads. -/
def Drover.rowsRead (d : Drover) (F : VForm) (x : VArgs) : List Nat :=
  d.rowsB F x ++ d.rowsC F x ++ (if F.readsD then [d.phys x.a] else [])

/-- The scalar operand: g_c in a `.s` or VPRM form, else the immediate (R161, R192). -/
def Drover.scalarOf (d : Drover) (F : VForm) (x : VArgs) : Word :=
  match F.useC with
  | .g => d.getG x.c
  | _ => x.imm

/-! ### Issue checks -/

/-- The RESCOMB conditions of a form (R52, R70, R103, R163, R166, R197, R231). -/
def Drover.formBad (d : Drover) (F : VForm) (x : VArgs) : Bool :=
  let f := d.vfmt
  let vty := d.vec.vty
  let dst := d.rowsD F x
  let lanes := F.cross || F.md f != 1 || F.mb f != 1
  let sources := d.rowsB F x ++ (if F.useC == .row then [d.phys x.c] else [])
  let carryMeets := F.useC == .carry && (d.phys x.c == d.phys x.a || d.phys x.c == d.phys x.b)
  !F.fmt f || (F.rmUsed vty && d.rmBad) || (F.scaled && vtyKa vty && d.scaleBad) ||
    F.bad vty d.vec.vl (d.scalarOf F x) || (lanes && dst.any sources.contains) || carryMeets ||
    d.streamBad (d.rowsRead F x) dst || (F.wd f != f.width && d.streams.any (fun t => dst.contains t.row))

/-- The issue checks of a form after ILLOP: VNCFG, RESCOMB, WINOV (R104). -/
def Drover.formTrap (d : Drover) (F : VForm) (x : VArgs) : Option Nat :=
  if d.unready then some cVNCFG
  else if d.formBad F x then some cRESCOMB
  else if d.outside (d.rowsRead F x ++ d.rowsD F x) then some cWINOV
  else none

/-! ### Operands -/

/-- VTY as the element functions read it. -/
def Drover.mode (d : Drover) (F : VForm) : Mode :=
  let v := d.vec.vty
  { fmt := d.vfmt, dst := F.dst d.vfmt, rm := vtyRm v, sat := vtySat v, ka := vtyKa v, bl := vtyBl v }

/-- The operands of a form, bound rows supplying what they popped. -/
def Drover.env (d : Drover) (F : VForm) (x : VArgs) (pops : List (Nat × List (Nat × Nat))) : Env :=
  let v := d.vec
  let w := d.vw
  let s := d.scalarOf F x
  { m := d.mode F, vl := v.vl, act := d.act x.m
    p := fun i => v.pbit (match x.p with
      | some p => p.toNat
      | none => vtyPs v.vty) i
    b := fun i => v.elemP pops (d.phys x.b) (F.mb d.vfmt) w i
    c := fun i => match F.useC with
      | .g => s.toNat % pow2 w
      | .none | .imm => 0
      | _ => v.elemP pops (d.phys x.c) 1 w i
    d := fun i => v.elem (d.phys x.a) 1 w i
    s := s, t := d.getG x.b
    k := fun i => v.kent (vtyKs v.vty) (i / pow2 (vtyBl v.vty)) }

/-- Whether element i's step reads a register word in error: of its sources, or of the scale entries it uses (R167, R413). A bound row
is no register word. -/
def Drover.eccElem (d : Drover) (F : VForm) (x : VArgs) (e : Env) (i : Nat) : Bool :=
  !d.ecc.isEmpty &&
  let m := F.mb d.vfmt
  let at_ := fun base m j => (d.stream (base + j % m)).isNone && d.eccAt eccRow (base + j % m) d.vw (j / m)
  (F.useB == .row && (F.reads e i).any (at_ (d.phys x.b) m)) ||
    (match F.useC with
      | .row => at_ (d.phys x.c) 1 i
      | .seed | .carry => at_ (d.phys x.c) 1 0
      | _ => false) ||
    (F.readsD && at_ (d.phys x.a) 1 i) ||
    ((F.scaleIn || (F.scaled && vtyKa d.vec.vty)) && d.eccAt eccScale (vtyKs d.vec.vty) 8 (i / pow2 (vtyBl d.vec.vty)))

/-- Whether element i's bit of the predicate that the form reads lies in a word in error (R167, R413). VINS reads one bit. -/
def Drover.eccBit (d : Drover) (F : VForm) (x : VArgs) (e : Env) (i : Nat) : Bool :=
  !d.ecc.isEmpty && (x.m || F.usesP) && (F.body.zeroing || decide (i = e.s.toNat)) &&
  d.eccAt eccPred (match x.p with
      | some p => p.toNat
      | none => vtyPs d.vec.vty) 1 i

/-! ### The loop of R159 -/

/-- Why the loop stopped. -/
inductive Halt where
  | fault (f : FaultInfo)
  | wait
  | fptrap
  deriving DecidableEq, Repr

/-- The loop so far: elements to write, carries of a scan, flags. -/
structure Loop where
  s : State
  out : List (Nat × Nat)
  carries : List (Nat × Nat)
  flags : FlagAcc
  stop : Option (Nat × Halt)

/-- What one element's step needs to know. -/
structure LoopCtx where
  F : VForm
  e : Env
  mp : Bool
  enabled : FlagSet → Bool
  ecc : Nat → Bool
  eccBit : Nat → Bool
  popStop : Option (Nat × Stop)
  push : Option Stream

/-- Give an element's value to a write stream, or to the register. -/
def Loop.put (c : LoopCtx) (l : Loop) (i v : Nat) : Loop :=
  match c.push with
  | none => { l with out := (i, v) :: l.out }
  | some t =>
    match l.s.pushElem t (t.pos + i) v with
    | .ok s _ => { l with s := s }
    | .fail s f => { l with s := s, stop := some (i, .fault f) }
    | .wait s => { l with s := s, stop := some (i, .wait) }

/-- One element's step, whatever it popped. A push that fails or awaits its answer leaves the carries as they were before the element
(R45, R89). -/
def Loop.elemAt (c : LoopCtx) (l : Loop) (i : Nat) : Loop :=
  if c.eccBit i then { l with stop := some (i, .fault eccFault) }
  else if c.F.body.acts c.e i then
    if c.ecc i then { l with stop := some (i, .fault eccFault) }
    else
      let r := c.F.body.step c.e l.carries i
      let fl := l.flags.raise i r.2.1
      if c.enabled r.2.1 then { l with flags := fl, stop := some (i, .fptrap) }
      else
        let l' := Loop.put c { l with flags := fl } i r.1
        if l'.stop.isSome then l' else { l' with carries := r.2.2 }
  else if c.F.body.zeroing && c.mp then Loop.put c l i 0
  else l

def Stop.halt : Stop → Halt
  | .fault f => .fault f
  | .wait => .wait

/-- One element: a failed pop of it stops the loop. -/
def Loop.elem (c : LoopCtx) (l : Loop) (i : Nat) : Loop :=
  match c.popStop with
  | some (j, x) => if i = j then { l with stop := some (i, x.halt) } else l.elemAt c i
  | none => l.elemAt c i

/-- Elements of a list in turn, up to the first that stops. -/
def Loop.run (c : LoopCtx) (l : Loop) (els : List Nat) : Loop :=
  match els with
  | [] => l
  | i :: rest => match l.stop with
    | some _ => l
    | none => (Loop.elem c l i).run c rest

/-! ### Reductions (R86, R87, R196) -/

/-- A reduction's partials and flags; `stop` is the index an enabled flag is attributed to. -/
structure FoldAcc (α : Type) where
  part : List (Option α)
  flags : FlagAcc
  stop : Option Nat

/-- Raise flags at an index, stopping there if one is enabled. -/
def FoldAcc.flag {α : Type} (a : FoldAcc α) (enabled : FlagSet → Bool) (i : Nat) (f : FlagSet) : FoldAcc α :=
  { a with flags := a.flags.raise i f, stop := if enabled f then some i else none }

/-- The active elements enter their partials. -/
def foldElems {α : Type} (op : α → α → α × FlagSet) (fw : Nat) (enabled : FlagSet → Bool) (x : Nat → α) (a : FoldAcc α) (els : List Nat) :
    FoldAcc α :=
  match els with
  | [] => a
  | i :: rest => match a.stop with
    | some _ => a
    | none =>
      let r := foldIn op fw a.part i (x i)
      foldElems op fw enabled x (FoldAcc.flag { a with part := r.1 } enabled i r.2) rest

/-- Flags of the fold and seed steps, all at one index. -/
def FoldAcc.flagAll {α : Type} (a : FoldAcc α) (enabled : FlagSet → Bool) (i : Nat) (l : List FlagSet) : FoldAcc α :=
  match l with
  | [] => a
  | f :: rest => match a.stop with
    | some _ => a
    | none => (a.flag enabled i f).flagAll enabled i rest

/-- A whole fold: the accumulator at its end, and the result unless no element was active. -/
def foldAll {α : Type} (op : α → α → α × FlagSet) (fwl : Nat) (enabled : FlagSet → Bool) (x : Nat → α) (seed : α) (vl : Nat)
    (els : List Nat) (flags : FlagAcc) : FoldAcc α × Option α :=
  let a := foldElems op (pow2 fwl) enabled x ⟨List.replicate (pow2 fwl) none, flags, none⟩ els
  match a.stop with
  | some _ => (a, none)
  | none =>
    let r := foldOut op fwl a.part seed
    (a.flagAll enabled vl r.2, r.1)

/-- The reduction of a form: its result in element 0, or the trap of an enabled flag. -/
def reduce (F : VForm) (e : Env) (fwl : Nat) (enabled : FlagSet → Bool) (els : List Nat) (l : Loop) : Loop :=
  let done := fun (flags : FlagAcc) (stop : Option Nat) (code : Nat) =>
    match stop with
    | some i => { l with flags := flags, stop := some (i, .fptrap) }
    | none => { l with flags := flags, out := [(0, code)] }
  match F.body, e.m.ka with
  | .ffold which, true =>
    let r := foldAll (redFloat which e.m) fwl enabled e.opB (floatOperand e.m.fmt e.m.fmt (e.c 0)) e.vl els l.flags
    match r.2 with
    | some o =>
      let q := roundValue e.m.fmt e.m.rm o.nan o.val
      let a := r.1.flagAll enabled e.vl [q.2]
      done a.flags a.stop q.1
    | none => done r.1.flags r.1.stop (e.c 0)
  | _, _ =>
    let r := foldAll (F.body.codeOp e.m) fwl enabled e.b (e.c 0) e.vl els l.flags
    done r.1.flags r.1.stop (r.2.getD (e.c 0))

/-! ### Running a form -/

/-- The elements of a bound source row that the instruction pops. -/
def Drover.popElems (d : Drover) (F : VForm) (x : VArgs) (e0 row : Nat) : List Nat :=
  let vl := d.vec.vl
  let m := F.mb d.vfmt
  let act := F.body.acts (d.env F x [])
  if F.useC == .seed && row == d.phys x.c && !(d.rowsB F x).contains row then [0]
  else if m != 1 then List.range ((vl - (row - d.phys x.b) + m - 1) / m)
  else if F.cross || F.whole then List.range vl
  else (List.range vl).filter (fun i => decide (e0 ≤ i) && act i)

/-- Write what the loop produced: elements, carries, progress, the high-water mark, flags, and at completion the streams'
positions (R43, R45, R46, R231). -/
def Drover.commit (d : Drover) (F : VForm) (x : VArgs) (l : Loop) (done : Bool) (e : Nat) : Drover :=
  let dst := d.rowsD F x
  let v := if F.dstPred then d.vec.setPbits x.a.toNat l.out else d.vec.setElems (d.phys x.a) (F.md d.vfmt) (F.wd d.vfmt) l.out
  let v := if F.useC == .carry then v.setElems (d.phys x.c) 1 d.vw l.carries else v
  let v := (v.progress dst ⟨done, e⟩).mark dst d.vw
  let d := { d with vec := v }.setFlags l.flags
  let d := if F.dstPred then d.setPpix x.a.toNat ⟨done, e⟩ else d
  let els := l.out.map (·.1)
  let d := if F.dstPred then d.eccWritten eccPred x.a.toNat 1 els
    else (group (d.phys x.a) (F.md d.vfmt)).foldl (fun d r =>
      d.eccWritten eccRow r (F.wd d.vfmt) ((els.filter (fun i => d.phys x.a + i % F.md d.vfmt == r)).map (· / F.md d.vfmt))) d
  let d := if done then d.advanceStreams (d.rowsRead F x ++ dst) else d
  d.occupy (d.act x.m)

/-- A vector instruction stops at an element: a fault, FPTRAP, or an answer still awaited (R45, R201). -/
def State.haltForm (s : State) (d : Drover) (i : Nat) (h : Halt) : Res :=
  match h with
  | .fault f => .next ((s.setCur d).raise s.sel f (some i) true)
  | .fptrap => .next ((s.setCur d).raise s.sel (FaultInfo.plain cFPTRAP) (some i) true)
  | .wait => s.finish ({ d with restart := i }.stalled 4)

/-- Push listed elements into a stream, in turn. -/
def State.pushList (s : State) (t : Stream) (l : List (Nat × Nat)) : State × Option (Nat × Stop) :=
  match l with
  | [] => (s, none)
  | (i, v) :: rest => match s.pushElem t (t.pos + i) v with
    | .ok s _ => s.pushList t rest
    | .fail s f => (s, some (i, .fault f))
    | .wait s => (s, some (i, .wait))

/-- The pushes of a whole instruction into the stream bound to a row, if one is: none is made unless every one passes its checks (R165,
R231). -/
def State.pushWhole (s : State) (d : Drover) (row : Nat) (l : List (Nat × Nat)) : State × Option (Nat × Stop) :=
  match d.stream row with
  | none => (s, none)
  | some t => match s.probePushes d (l.map (fun e => (row, e.1, e.2))) with
    | (s, some x) => (s, some x)
    | (s, none) => match s.pushList t l with
      | (t, none) => (t, none)
      | (t, some x) => (s.takeBack t x.2, some x)

/-- The answers that the pops of elements at and above i took go back: the instruction pops those when it resumes there (R231, R242). -/
def State.unpop (s t : State) (rows : List Nat) (els : Nat → List Nat) (i : Nat) : State :=
  if s.reps.isEmpty then t
  else
    let all := (s.popRows rows els).s.reps
    let kept := (s.popRows rows (fun r => (els r).filter (fun j => decide (j < i)))).s.reps
    { t with reps := t.reps ++ all.foldl (fun (a : List OutRep) r => a.erase r) kept }

/-- Where a form starts (R45): a whole one at 0. -/
def Drover.formStart (d : Drover) (F : VForm) (x : VArgs) : Nat :=
  if F.whole then 0 else if F.dstPred then d.startPred x.a.toNat else d.startAt (d.rowsD F x)

/-- The effect of a form that passed its checks. A whole instruction that stops has written nothing but flags (R165); another keeps the
elements below the one it stops at (R45). -/
def State.effectForm (s : State) (F : VForm) (x : VArgs) : Res :=
  let d := s.cur
  let vl := d.vec.vl
  let e0 := d.formStart F x
  let pops := s.popRows (d.rowsRead F x) (d.popElems F x e0)
  let l0 : Loop := { s := pops.s, out := [], carries := [], flags := d.flags, stop := none }
  let lanes := F.cross || F.whole || F.mb d.vfmt != 1
  match (if lanes then pops.stop else none) with
  | some (_, .wait) => ({ s with reqs := pops.s.reqs }).haltForm d e0 .wait
  | some (j, x') => pops.s.haltForm (pops.s.cur.commit F x l0 false e0) j x'.halt
  | none =>
    let e := d.env F x pops.vals
    let ctx : LoopCtx :=
      { F := F, e := e, mp := vtyMp d.vec.vty, enabled := d.enabled, ecc := fun i => d.eccElem F x e i, eccBit := fun i => d.eccBit F x e i
        popStop := pops.stop, push := if F.dstPred || F.whole then none else d.stream (d.phys x.a) }
    let back := fun (t : State) (i : Nat) => s.unpop t (d.rowsRead F x) (d.popElems F x e0) i
    if F.whole then
      let l := if F.useC == .seed then
          match (List.range vl).find? (fun i => ctx.eccBit i || (e.act i && ctx.ecc i)) with
          | some i => { l0 with stop := some (i, .fault eccFault) }
          | none => if vl = 0 then l0 else reduce F e (vtyFwl d.vec.vty) d.enabled ((List.range vl).filter e.act) l0
        else l0.run ctx (List.range vl)
      match l.stop with
      | some (i, h) => (back l.s 0).haltForm (l.s.cur.commit F x { l with out := [] } false 0) i h
      | none => match l.s.pushWhole d (d.phys x.a) (if F.dstPred then [] else l.out.reverse) with
        | (t, some (_, .wait)) => (back t 0).haltForm (t.cur.commit F x { l with out := [] } false 0) 0 .wait
        | (t, some (i, x')) => (back t 0).haltForm (t.cur.commit F x { l with out := [] } false 0) i x'.halt
        | (t, none) => t.complete (t.cur.commit F x (if (d.stream (d.phys x.a)).isSome then { l with out := [] } else l) true vl)
    else
      let l := l0.run ctx ((List.range vl).filter (fun i => decide (e0 ≤ i)))
      match l.stop with
      | some (i, h) => (back l.s (if lanes then 0 else i)).haltForm (l.s.cur.commit F x l false i) i h
      | none => l.s.complete (l.s.cur.commit F x l true vl)

/-- A vector instruction (R157 to R167): held by a run, checked at issue in the order of R104, then run. -/
def runForm (F : VForm) (x : VArgs) (s : State) : Res :=
  s.held (fun s =>
    if F.dstPred && !writesPred x.a then s.trapIssue cILLOP
    else match s.cur.formTrap F x with
      | some c => s.trapIssue c
      | none => s.effectForm F x)

/-- The fields of a three-register word. -/
def args3 (a b c : Reg) (m : Bool) : VArgs := ⟨a, b, c, m, 0, none⟩
/-- The fields of a word with an immediate. -/
def argsImm (a b : Reg) (i : Word) (m : Bool) : VArgs := ⟨a, b, 0, m, i, none⟩

/-! ### Configuration (R168 to R173) -/

/-- The clearing of the first SETVL (R36, R46). -/
def Vec.cleared (v : Vec) : Vec :=
  { v with rows := Vector.replicate 256 0, preds := Vector.replicate 16 0, scales := Vector.replicate 64 0
           hwmRows := 0, hwmLanes := 0, hwmK := 0, hwmAcc := 0 }

/-- The grant of a SETVL (R169, R170): a length of 0 keeps the grant held, or takes the minimum. -/
def State.setvlGrant (s : State) (key : Nat) (n : Word) : State × Bool :=
  let d := s.drover key
  if n = 0 then (if d.lgm != 0 then (s, true) else s.grantTo key d.lgMin) else s.grantPoint key

/-- SETVL after its grant. -/
def Drover.setvl (d : Drover) (a : Reg) (n : Word) : Drover :=
  let d := if d.configured then d else { d with configured := true, vec := d.vec.cleared }
  let l := Nat.min n.toNat d.vlmax
  ({ d with vec := { d.vec with vl := l } }.beginStrip).setG a (wordOf l)

/-- SETVL (R169): a grant point; the first one clears the vector state. -/
def execSetvl (a b : Reg) (s : State) : Res :=
  s.held (fun s =>
    let d := s.cur
    let n := d.getG b
    if d.vfmt == .ill then s.trapIssue cVNCFG
    else if !d.vfmt.legal then s.trapIssue cRESCOMB
    else match s.setvlGrant s.sel n with
      | (s, false) => s.notReady 6
      | (s, true) => (s.endStrip s.sel).complete ((s.endStrip s.sel).cur.setvl a n))

/-- SETVTY (R171). -/
def execSetvty (a b : Reg) (s : State) : Res :=
  s.held (fun s =>
    let d := s.cur
    let v := d.getG b
    if !topZero v 29 then s.trapIssue cILLOP
    else
      let d := { d.writeVty v with typed := d.typed || (vtyFmt v).legal }
      s.complete (d.setG a (if d.vfmt.legal then wordOf d.vlmax else 0)))

/-- SETTL (R168, R172). -/
def execSettl (a b : Reg) (s : State) : Res :=
  s.held (fun s =>
    let d := s.cur
    let t := Nat.min (d.getG b).toNat 1024
    s.complete ({ d with vec := { d.vec with tl := t } }.setG a (wordOf t)))

/-- GETG (R173). -/
def execGetg (a : Reg) (s : State) : Res := s.held (fun s => s.completeG a s.cur.grt)

/-! ### VEXTR (R192) -/

/-- x(v) of R192: sign-extended for I formats. -/
def extend (f : Fmt) (v : Nat) : Word := BitVec.ofInt 64 (f.intOf v)

/-- VEXTR: element g_c of vb, 0 at or above VL. -/
def execVextr (a b c : Reg) (s : State) : Res :=
  s.held (fun s =>
    let d := s.cur
    let row := d.phys b
    if d.unready then s.trapIssue cVNCFG
    else if !d.vfmt.legal || d.streamBad [row] [] then s.trapIssue cRESCOMB
    else if d.outside [row] then s.trapIssue cWINOV
    else
      let i := (d.getG c).toNat
      if i ≥ d.vec.vl then s.complete ((d.advanceStreams [row]).setG a 0)
      else if d.eccAt eccRow row d.vw i then s.haltForm d i (.fault eccFault)
      else
        let pops := s.popRows [row] (fun _ => [i])
        match pops.stop with
        | some (j, x) => pops.s.haltForm pops.s.cur j x.halt
        | none =>
          let d := pops.s.cur
          pops.s.complete ((d.advanceStreams [row]).setG a (extend d.vfmt (d.vec.elemP pops.vals row 1 d.vw i))))

/-! ### Predicates (R199) -/

/-- A predicate operation over bits 0 to VL − 1. -/
def predOp (dst : Option Reg) (srcs : List Reg) (k : State → Drover → Res) (s : State) : Res :=
  s.held (fun s =>
    let d := s.cur
    if !(srcs.all isPred && dst.all writesPred) then s.trapIssue cILLOP
    else if d.unready then s.trapIssue cVNCFG
    else match (List.range d.vec.vl).find? (fun i => !d.ecc.isEmpty && srcs.any (fun p => d.eccAt eccPred p.toNat 1 i)) with
      | some i => s.haltForm d i (.fault eccFault)
      | none => k s d)

/-- A predicate result: bit i from f. -/
def Drover.writePred (d : Drover) (a : Reg) (f : Nat → Bool) : Drover :=
  let v := d.vec.setPbits a.toNat ((List.range d.vec.vl).map (fun i => (i, (f i).toNat)))
  ({ d with vec := v.mark [] d.vw }.setPpix a.toNat ⟨true, d.vec.vl⟩).eccWritten eccPred a.toNat 1 (List.range d.vec.vl)

/-- A logical operation on two predicates. -/
def pred2 (f : Bool → Bool → Bool) (a b c : Reg) (s : State) : Res :=
  predOp (some a) [b, c] (fun s d => s.complete (d.writePred a (fun i => f (d.vec.pbit b.toNat i) (d.vec.pbit c.toNat i)))) s
def pred1 (f : Bool → Bool) (a b : Reg) (s : State) : Res :=
  predOp (some a) [b] (fun s d => s.complete (d.writePred a (fun i => f (d.vec.pbit b.toNat i)))) s
def pred0 (v : Bool) (a : Reg) (s : State) : Res := predOp (some a) [] (fun s d => s.complete (d.writePred a (fun _ => v))) s

/-- PAND (R199). -/
def execPand (a b c : Reg) (s : State) : Res := pred2 (fun x y => x && y) a b c s
/-- POR (R199). -/
def execPor (a b c : Reg) (s : State) : Res := pred2 (fun x y => x || y) a b c s
/-- PXOR (R199). -/
def execPxor (a b c : Reg) (s : State) : Res := pred2 (fun x y => x != y) a b c s
/-- PANDN (R199). -/
def execPandn (a b c : Reg) (s : State) : Res := pred2 (fun x y => x && !y) a b c s
/-- PNOT (R199). -/
def execPnot (a b : Reg) (s : State) : Res := pred1 (fun x => !x) a b s
/-- PMOV (R199). -/
def execPmov (a b : Reg) (s : State) : Res := pred1 (fun x => x) a b s
/-- PSET (R199). -/
def execPset (a : Reg) (s : State) : Res := pred0 true a s
/-- PCLR (R199). -/
def execPclr (a : Reg) (s : State) : Res := pred0 false a s
/-- PCNT (R199). -/
def execPcnt (a b : Reg) (s : State) : Res :=
  predOp none [b] (fun s d => s.completeG a (wordOf ((List.range d.vec.vl).filter (fun i => d.vec.pbit b.toNat i)).length)) s
/-- PFIRST (R199): all ones where no bit is set. -/
def execPfirst (a b : Reg) (s : State) : Res :=
  predOp none [b] (fun s d => s.completeG a (match (List.range d.vec.vl).find? (fun i => d.vec.pbit b.toNat i) with
    | some i => wordOf i
    | none => -1)) s

/-- PFROMV: 1 where the element is not 0; every element counts as active. -/
def formPfromv : VForm :=
  { VForm.base .none anyFmt (.map (fun _ _ => true) true (fun e i => ((e.b i != 0).toNat, flNone))) with dstPred := true }
/-- PTOV: 1 where bit i of the named predicate is set. -/
def formPtov : VForm :=
  { VForm.base .none Fmt.isInt8 (.map (fun _ _ => true) true (fun e i => ((e.p i).toNat, flNone))) with useB := .none, usesP := true }

/-- PFROMV (R199). -/
def execPfromv (a b : Reg) (s : State) : Res := runForm formPfromv (args3 a b 0 false) s
/-- PTOV (R199). -/
def execPtov (a b : Reg) (s : State) : Res :=
  if isPred b then runForm formPtov ⟨a, 0, 0, false, 0, some b⟩ s else s.held (fun s => s.trapIssue cILLOP)

/-- VADD (R174). -/
def execVadd (a : Reg) (b : Reg) (c : Reg) (m : Bool) (s : State) : Res := runForm (formVia 0 .row) (args3 a b c m) s
/-- VADD_S (R174). -/
def execVaddS (a : Reg) (b : Reg) (c : Reg) (m : Bool) (s : State) : Res := runForm (formVia 0 .g) (args3 a b c m) s
/-- VSUB (R174). -/
def execVsub (a : Reg) (b : Reg) (c : Reg) (m : Bool) (s : State) : Res := runForm (formVia 1 .row) (args3 a b c m) s
/-- VSUB_S (R174). -/
def execVsubS (a : Reg) (b : Reg) (c : Reg) (m : Bool) (s : State) : Res := runForm (formVia 1 .g) (args3 a b c m) s
/-- VRSUB (R174). -/
def execVrsub (a : Reg) (b : Reg) (c : Reg) (m : Bool) (s : State) : Res := runForm (formVia 2 .row) (args3 a b c m) s
/-- VRSUB_S (R174). -/
def execVrsubS (a : Reg) (b : Reg) (c : Reg) (m : Bool) (s : State) : Res := runForm (formVia 2 .g) (args3 a b c m) s
/-- VMUL (R174). -/
def execVmul (a : Reg) (b : Reg) (c : Reg) (m : Bool) (s : State) : Res := runForm (formVia 3 .row) (args3 a b c m) s
/-- VMUL_S (R174). -/
def execVmulS (a : Reg) (b : Reg) (c : Reg) (m : Bool) (s : State) : Res := runForm (formVia 3 .g) (args3 a b c m) s
/-- VMULH (R174). -/
def execVmulh (a : Reg) (b : Reg) (c : Reg) (m : Bool) (s : State) : Res := runForm (formVia 4 .row) (args3 a b c m) s
/-- VMULH_S (R174). -/
def execVmulhS (a : Reg) (b : Reg) (c : Reg) (m : Bool) (s : State) : Res := runForm (formVia 4 .g) (args3 a b c m) s
/-- VMULHU (R174). -/
def execVmulhu (a : Reg) (b : Reg) (c : Reg) (m : Bool) (s : State) : Res := runForm (formVia 5 .row) (args3 a b c m) s
/-- VMULHU_S (R174). -/
def execVmulhuS (a : Reg) (b : Reg) (c : Reg) (m : Bool) (s : State) : Res := runForm (formVia 5 .g) (args3 a b c m) s
/-- VMACC (R174). -/
def execVmacc (a : Reg) (b : Reg) (c : Reg) (m : Bool) (s : State) : Res := runForm (formVia 6 .row) (args3 a b c m) s
/-- VMACC_S (R174). -/
def execVmaccS (a : Reg) (b : Reg) (c : Reg) (m : Bool) (s : State) : Res := runForm (formVia 6 .g) (args3 a b c m) s
/-- VNMSAC (R174). -/
def execVnmsac (a : Reg) (b : Reg) (c : Reg) (m : Bool) (s : State) : Res := runForm (formVia 7 .row) (args3 a b c m) s
/-- VNMSAC_S (R174). -/
def execVnmsacS (a : Reg) (b : Reg) (c : Reg) (m : Bool) (s : State) : Res := runForm (formVia 7 .g) (args3 a b c m) s
/-- VDIV (R175). -/
def execVdiv (a : Reg) (b : Reg) (c : Reg) (m : Bool) (s : State) : Res := runForm (formVia 8 .row) (args3 a b c m) s
/-- VDIV_S (R175). -/
def execVdivS (a : Reg) (b : Reg) (c : Reg) (m : Bool) (s : State) : Res := runForm (formVia 8 .g) (args3 a b c m) s
/-- VDIVU (R175). -/
def execVdivu (a : Reg) (b : Reg) (c : Reg) (m : Bool) (s : State) : Res := runForm (formVia 9 .row) (args3 a b c m) s
/-- VDIVU_S (R175). -/
def execVdivuS (a : Reg) (b : Reg) (c : Reg) (m : Bool) (s : State) : Res := runForm (formVia 9 .g) (args3 a b c m) s
/-- VREM (R175). -/
def execVrem (a : Reg) (b : Reg) (c : Reg) (m : Bool) (s : State) : Res := runForm (formVia 10 .row) (args3 a b c m) s
/-- VREM_S (R175). -/
def execVremS (a : Reg) (b : Reg) (c : Reg) (m : Bool) (s : State) : Res := runForm (formVia 10 .g) (args3 a b c m) s
/-- VREMU (R175). -/
def execVremu (a : Reg) (b : Reg) (c : Reg) (m : Bool) (s : State) : Res := runForm (formVia 11 .row) (args3 a b c m) s
/-- VREMU_S (R175). -/
def execVremuS (a : Reg) (b : Reg) (c : Reg) (m : Bool) (s : State) : Res := runForm (formVia 11 .g) (args3 a b c m) s
/-- VSADD (R174). -/
def execVsadd (a : Reg) (b : Reg) (c : Reg) (m : Bool) (s : State) : Res := runForm (formVia 12 .row) (args3 a b c m) s
/-- VSADD_S (R174). -/
def execVsaddS (a : Reg) (b : Reg) (c : Reg) (m : Bool) (s : State) : Res := runForm (formVia 12 .g) (args3 a b c m) s
/-- VSSUB (R174). -/
def execVssub (a : Reg) (b : Reg) (c : Reg) (m : Bool) (s : State) : Res := runForm (formVia 13 .row) (args3 a b c m) s
/-- VSSUB_S (R174). -/
def execVssubS (a : Reg) (b : Reg) (c : Reg) (m : Bool) (s : State) : Res := runForm (formVia 13 .g) (args3 a b c m) s
/-- VABSD (R174). -/
def execVabsd (a : Reg) (b : Reg) (c : Reg) (m : Bool) (s : State) : Res := runForm (formVia 14 .row) (args3 a b c m) s
/-- VABSD_S (R174). -/
def execVabsdS (a : Reg) (b : Reg) (c : Reg) (m : Bool) (s : State) : Res := runForm (formVia 14 .g) (args3 a b c m) s
/-- VAND (R176). -/
def execVand (a : Reg) (b : Reg) (c : Reg) (m : Bool) (s : State) : Res := runForm (formVib 0 .row) (args3 a b c m) s
/-- VAND_S (R176). -/
def execVandS (a : Reg) (b : Reg) (c : Reg) (m : Bool) (s : State) : Res := runForm (formVib 0 .g) (args3 a b c m) s
/-- VOR (R176). -/
def execVor (a : Reg) (b : Reg) (c : Reg) (m : Bool) (s : State) : Res := runForm (formVib 1 .row) (args3 a b c m) s
/-- VOR_S (R176). -/
def execVorS (a : Reg) (b : Reg) (c : Reg) (m : Bool) (s : State) : Res := runForm (formVib 1 .g) (args3 a b c m) s
/-- VXOR (R176). -/
def execVxor (a : Reg) (b : Reg) (c : Reg) (m : Bool) (s : State) : Res := runForm (formVib 2 .row) (args3 a b c m) s
/-- VXOR_S (R176). -/
def execVxorS (a : Reg) (b : Reg) (c : Reg) (m : Bool) (s : State) : Res := runForm (formVib 2 .g) (args3 a b c m) s
/-- VANDN (R176). -/
def execVandn (a : Reg) (b : Reg) (c : Reg) (m : Bool) (s : State) : Res := runForm (formVib 3 .row) (args3 a b c m) s
/-- VANDN_S (R176). -/
def execVandnS (a : Reg) (b : Reg) (c : Reg) (m : Bool) (s : State) : Res := runForm (formVib 3 .g) (args3 a b c m) s
/-- VSHL (R176). -/
def execVshl (a : Reg) (b : Reg) (c : Reg) (m : Bool) (s : State) : Res := runForm (formVib 4 .row) (args3 a b c m) s
/-- VSHL_S (R176). -/
def execVshlS (a : Reg) (b : Reg) (c : Reg) (m : Bool) (s : State) : Res := runForm (formVib 4 .g) (args3 a b c m) s
/-- VSHR (R176). -/
def execVshr (a : Reg) (b : Reg) (c : Reg) (m : Bool) (s : State) : Res := runForm (formVib 5 .row) (args3 a b c m) s
/-- VSHR_S (R176). -/
def execVshrS (a : Reg) (b : Reg) (c : Reg) (m : Bool) (s : State) : Res := runForm (formVib 5 .g) (args3 a b c m) s
/-- VSRA (R176). -/
def execVsra (a : Reg) (b : Reg) (c : Reg) (m : Bool) (s : State) : Res := runForm (formVib 6 .row) (args3 a b c m) s
/-- VSRA_S (R176). -/
def execVsraS (a : Reg) (b : Reg) (c : Reg) (m : Bool) (s : State) : Res := runForm (formVib 6 .g) (args3 a b c m) s
/-- VMIN (R176). -/
def execVmin (a : Reg) (b : Reg) (c : Reg) (m : Bool) (s : State) : Res := runForm (formVib 7 .row) (args3 a b c m) s
/-- VMIN_S (R176). -/
def execVminS (a : Reg) (b : Reg) (c : Reg) (m : Bool) (s : State) : Res := runForm (formVib 7 .g) (args3 a b c m) s
/-- VMAX (R176). -/
def execVmax (a : Reg) (b : Reg) (c : Reg) (m : Bool) (s : State) : Res := runForm (formVib 8 .row) (args3 a b c m) s
/-- VMAX_S (R176). -/
def execVmaxS (a : Reg) (b : Reg) (c : Reg) (m : Bool) (s : State) : Res := runForm (formVib 8 .g) (args3 a b c m) s
/-- VMINU (R176). -/
def execVminu (a : Reg) (b : Reg) (c : Reg) (m : Bool) (s : State) : Res := runForm (formVib 9 .row) (args3 a b c m) s
/-- VMINU_S (R176). -/
def execVminuS (a : Reg) (b : Reg) (c : Reg) (m : Bool) (s : State) : Res := runForm (formVib 9 .g) (args3 a b c m) s
/-- VMAXU (R176). -/
def execVmaxu (a : Reg) (b : Reg) (c : Reg) (m : Bool) (s : State) : Res := runForm (formVib 10 .row) (args3 a b c m) s
/-- VMAXU_S (R176). -/
def execVmaxuS (a : Reg) (b : Reg) (c : Reg) (m : Bool) (s : State) : Res := runForm (formVib 10 .g) (args3 a b c m) s
/-- VSEL (R177). -/
def execVsel (a : Reg) (b : Reg) (c : Reg) (s : State) : Res := runForm (formVsel .row) (args3 a b c false) s
/-- VSEL_S (R177). -/
def execVselS (a : Reg) (b : Reg) (c : Reg) (s : State) : Res := runForm (formVsel .g) (args3 a b c false) s
/-- VMOV (R177). -/
def execVmov (a : Reg) (c : Reg) (m : Bool) (s : State) : Res := runForm (formVib 12 .row) (args3 a 0 c m) s
/-- VMOV_S (R177). -/
def execVmovS (a : Reg) (c : Reg) (m : Bool) (s : State) : Res := runForm (formVib 12 .g) (args3 a 0 c m) s
/-- VFADD (R180). -/
def execVfadd (a : Reg) (b : Reg) (c : Reg) (m : Bool) (s : State) : Res := runForm (formVfa 0 .row) (args3 a b c m) s
/-- VFADD_S (R180). -/
def execVfaddS (a : Reg) (b : Reg) (c : Reg) (m : Bool) (s : State) : Res := runForm (formVfa 0 .g) (args3 a b c m) s
/-- VFSUB (R180). -/
def execVfsub (a : Reg) (b : Reg) (c : Reg) (m : Bool) (s : State) : Res := runForm (formVfa 1 .row) (args3 a b c m) s
/-- VFSUB_S (R180). -/
def execVfsubS (a : Reg) (b : Reg) (c : Reg) (m : Bool) (s : State) : Res := runForm (formVfa 1 .g) (args3 a b c m) s
/-- VFMUL (R180). -/
def execVfmul (a : Reg) (b : Reg) (c : Reg) (m : Bool) (s : State) : Res := runForm (formVfa 2 .row) (args3 a b c m) s
/-- VFMUL_S (R180). -/
def execVfmulS (a : Reg) (b : Reg) (c : Reg) (m : Bool) (s : State) : Res := runForm (formVfa 2 .g) (args3 a b c m) s
/-- VFMA (R180). -/
def execVfma (a : Reg) (b : Reg) (c : Reg) (m : Bool) (s : State) : Res := runForm (formVfa 3 .row) (args3 a b c m) s
/-- VFMA_S (R180). -/
def execVfmaS (a : Reg) (b : Reg) (c : Reg) (m : Bool) (s : State) : Res := runForm (formVfa 3 .g) (args3 a b c m) s
/-- VFMS (R180). -/
def execVfms (a : Reg) (b : Reg) (c : Reg) (m : Bool) (s : State) : Res := runForm (formVfa 4 .row) (args3 a b c m) s
/-- VFMS_S (R180). -/
def execVfmsS (a : Reg) (b : Reg) (c : Reg) (m : Bool) (s : State) : Res := runForm (formVfa 4 .g) (args3 a b c m) s
/-- VFNMA (R180). -/
def execVfnma (a : Reg) (b : Reg) (c : Reg) (m : Bool) (s : State) : Res := runForm (formVfa 5 .row) (args3 a b c m) s
/-- VFNMA_S (R180). -/
def execVfnmaS (a : Reg) (b : Reg) (c : Reg) (m : Bool) (s : State) : Res := runForm (formVfa 5 .g) (args3 a b c m) s
/-- VFDIV (R180). -/
def execVfdiv (a : Reg) (b : Reg) (c : Reg) (m : Bool) (s : State) : Res := runForm (formVfa 6 .row) (args3 a b c m) s
/-- VFDIV_S (R180). -/
def execVfdivS (a : Reg) (b : Reg) (c : Reg) (m : Bool) (s : State) : Res := runForm (formVfa 6 .g) (args3 a b c m) s
/-- VFMIN (R181). -/
def execVfmin (a : Reg) (b : Reg) (c : Reg) (m : Bool) (s : State) : Res := runForm (formVfa 7 .row) (args3 a b c m) s
/-- VFMIN_S (R181). -/
def execVfminS (a : Reg) (b : Reg) (c : Reg) (m : Bool) (s : State) : Res := runForm (formVfa 7 .g) (args3 a b c m) s
/-- VFMAX (R181). -/
def execVfmax (a : Reg) (b : Reg) (c : Reg) (m : Bool) (s : State) : Res := runForm (formVfa 8 .row) (args3 a b c m) s
/-- VFMAX_S (R181). -/
def execVfmaxS (a : Reg) (b : Reg) (c : Reg) (m : Bool) (s : State) : Res := runForm (formVfa 8 .g) (args3 a b c m) s
/-- VFSGN (R181). -/
def execVfsgn (a : Reg) (b : Reg) (c : Reg) (m : Bool) (s : State) : Res := runForm (formVfa 9 .row) (args3 a b c m) s
/-- VFSGN_S (R181). -/
def execVfsgnS (a : Reg) (b : Reg) (c : Reg) (m : Bool) (s : State) : Res := runForm (formVfa 9 .g) (args3 a b c m) s
/-- VFSQRT (R183). -/
def execVfsqrt (a : Reg) (b : Reg) (m : Bool) (s : State) : Res := runForm (formVfu 0) (args3 a b 0 m) s
/-- VFRCP (R183). -/
def execVfrcp (a : Reg) (b : Reg) (m : Bool) (s : State) : Res := runForm (formVfu 1) (args3 a b 0 m) s
/-- VFRSQ (R183). -/
def execVfrsq (a : Reg) (b : Reg) (m : Bool) (s : State) : Res := runForm (formVfu 2) (args3 a b 0 m) s
/-- VFEXP2 (R183). -/
def execVfexp2 (a : Reg) (b : Reg) (m : Bool) (s : State) : Res := runForm (formVfu 3) (args3 a b 0 m) s
/-- VFLOG2 (R183). -/
def execVflog2 (a : Reg) (b : Reg) (m : Bool) (s : State) : Res := runForm (formVfu 4) (args3 a b 0 m) s
/-- VFSIN (R183). -/
def execVfsin (a : Reg) (b : Reg) (m : Bool) (s : State) : Res := runForm (formVfu 5) (args3 a b 0 m) s
/-- VFCOS (R183). -/
def execVfcos (a : Reg) (b : Reg) (m : Bool) (s : State) : Res := runForm (formVfu 6) (args3 a b 0 m) s
/-- VFTANH (R183). -/
def execVftanh (a : Reg) (b : Reg) (m : Bool) (s : State) : Res := runForm (formVfu 7) (args3 a b 0 m) s
/-- VFSIGM (R183). -/
def execVfsigm (a : Reg) (b : Reg) (m : Bool) (s : State) : Res := runForm (formVfu 8) (args3 a b 0 m) s
/-- VFABS (R185). -/
def execVfabs (a : Reg) (b : Reg) (m : Bool) (s : State) : Res := runForm (formVfu 9) (args3 a b 0 m) s
/-- VFNEG (R185). -/
def execVfneg (a : Reg) (b : Reg) (m : Bool) (s : State) : Res := runForm (formVfu 10) (args3 a b 0 m) s
/-- VFCLASS (R185). -/
def execVfclass (a : Reg) (b : Reg) (m : Bool) (s : State) : Res := runForm (formVfu 11) (args3 a b 0 m) s
/-- VFRND (R185). -/
def execVfrnd (a : Reg) (b : Reg) (m : Bool) (s : State) : Res := runForm (formVfu 12) (args3 a b 0 m) s
/-- VADDI (R178). -/
def execVaddi (a : Reg) (b : Reg) (i : BitVec 8) (m : Bool) (s : State) : Res := runForm (formVimm 0) (argsImm a b (i.setWidth 64) m) s
/-- VMULI (R178). -/
def execVmuli (a : Reg) (b : Reg) (i : BitVec 8) (m : Bool) (s : State) : Res := runForm (formVimm 1) (argsImm a b (i.setWidth 64) m) s
/-- VSHLI (R179). -/
def execVshli (a : Reg) (b : Reg) (i : BitVec 8) (m : Bool) (s : State) : Res := runForm (formVimm 2) (argsImm a b (i.setWidth 64) m) s
/-- VSHRI (R179). -/
def execVshri (a : Reg) (b : Reg) (i : BitVec 8) (m : Bool) (s : State) : Res := runForm (formVimm 3) (argsImm a b (i.setWidth 64) m) s
/-- VSRAI (R179). -/
def execVsrai (a : Reg) (b : Reg) (i : BitVec 8) (m : Bool) (s : State) : Res := runForm (formVimm 4) (argsImm a b (i.setWidth 64) m) s
/-- VANDI (R178). -/
def execVandi (a : Reg) (b : Reg) (i : BitVec 8) (m : Bool) (s : State) : Res := runForm (formVimm 5) (argsImm a b (i.setWidth 64) m) s
/-- VORI (R178). -/
def execVori (a : Reg) (b : Reg) (i : BitVec 8) (m : Bool) (s : State) : Res := runForm (formVimm 6) (argsImm a b (i.setWidth 64) m) s
/-- VLI (R179). -/
def execVli (a : Reg) (i : BitVec 8) (m : Bool) (s : State) : Res := runForm (formVli) (argsImm a 0 (i.setWidth 64) m) s
/-- VCMP_EQ (R186). -/
def execVcmpEq (a : Reg) (b : Reg) (c : Reg) (m : Bool) (s : State) : Res := runForm (formVcmp 0 .row) (args3 a b c m) s
/-- VCMP_EQ_S (R186). -/
def execVcmpEqS (a : Reg) (b : Reg) (c : Reg) (m : Bool) (s : State) : Res := runForm (formVcmp 0 .g) (args3 a b c m) s
/-- VCMP_NE (R186). -/
def execVcmpNe (a : Reg) (b : Reg) (c : Reg) (m : Bool) (s : State) : Res := runForm (formVcmp 1 .row) (args3 a b c m) s
/-- VCMP_NE_S (R186). -/
def execVcmpNeS (a : Reg) (b : Reg) (c : Reg) (m : Bool) (s : State) : Res := runForm (formVcmp 1 .g) (args3 a b c m) s
/-- VCMP_LT (R186). -/
def execVcmpLt (a : Reg) (b : Reg) (c : Reg) (m : Bool) (s : State) : Res := runForm (formVcmp 2 .row) (args3 a b c m) s
/-- VCMP_LT_S (R186). -/
def execVcmpLtS (a : Reg) (b : Reg) (c : Reg) (m : Bool) (s : State) : Res := runForm (formVcmp 2 .g) (args3 a b c m) s
/-- VCMP_GE (R186). -/
def execVcmpGe (a : Reg) (b : Reg) (c : Reg) (m : Bool) (s : State) : Res := runForm (formVcmp 3 .row) (args3 a b c m) s
/-- VCMP_GE_S (R186). -/
def execVcmpGeS (a : Reg) (b : Reg) (c : Reg) (m : Bool) (s : State) : Res := runForm (formVcmp 3 .g) (args3 a b c m) s
/-- VCMP_LTU (R186). -/
def execVcmpLtu (a : Reg) (b : Reg) (c : Reg) (m : Bool) (s : State) : Res := runForm (formVcmp 4 .row) (args3 a b c m) s
/-- VCMP_LTU_S (R186). -/
def execVcmpLtuS (a : Reg) (b : Reg) (c : Reg) (m : Bool) (s : State) : Res := runForm (formVcmp 4 .g) (args3 a b c m) s
/-- VCMP_GEU (R186). -/
def execVcmpGeu (a : Reg) (b : Reg) (c : Reg) (m : Bool) (s : State) : Res := runForm (formVcmp 5 .row) (args3 a b c m) s
/-- VCMP_GEU_S (R186). -/
def execVcmpGeuS (a : Reg) (b : Reg) (c : Reg) (m : Bool) (s : State) : Res := runForm (formVcmp 5 .g) (args3 a b c m) s
/-- VFCMP_EQ (R187). -/
def execVfcmpEq (a : Reg) (b : Reg) (c : Reg) (m : Bool) (s : State) : Res := runForm (formVfcmp 0) (args3 a b c m) s
/-- VFCMP_NE (R187). -/
def execVfcmpNe (a : Reg) (b : Reg) (c : Reg) (m : Bool) (s : State) : Res := runForm (formVfcmp 1) (args3 a b c m) s
/-- VFCMP_LT (R187). -/
def execVfcmpLt (a : Reg) (b : Reg) (c : Reg) (m : Bool) (s : State) : Res := runForm (formVfcmp 2) (args3 a b c m) s
/-- VFCMP_LE (R187). -/
def execVfcmpLe (a : Reg) (b : Reg) (c : Reg) (m : Bool) (s : State) : Res := runForm (formVfcmp 3) (args3 a b c m) s
/-- VFCMP_UN (R187). -/
def execVfcmpUn (a : Reg) (b : Reg) (c : Reg) (m : Bool) (s : State) : Res := runForm (formVfcmp 4) (args3 a b c m) s
/-- VFCMP_OR (R187). -/
def execVfcmpOr (a : Reg) (b : Reg) (c : Reg) (m : Bool) (s : State) : Res := runForm (formVfcmp 5) (args3 a b c m) s
/-- VCVT (R189). -/
def execVcvt (a : Reg) (b : Reg) (c : BitVec 5) (m : Bool) (s : State) : Res := runForm (formCvt (fun _ => Fmt.ofCode c.toNat)) (args3 a b 0 m) s
/-- VCVTK (R190). -/
def execVcvtk (a : Reg) (b : Reg) (c : BitVec 5) (m : Bool) (s : State) : Res := runForm (formCvtk (Fmt.ofCode c.toNat)) (args3 a b 0 m) s
/-- VWID (R191). -/
def execVwid (a : Reg) (b : Reg) (m : Bool) (s : State) : Res := runForm (formCvt widFmt) (args3 a b 0 m) s
/-- VNAR (R191). -/
def execVnar (a : Reg) (b : Reg) (m : Bool) (s : State) : Res := runForm (formCvt narFmt) (args3 a b 0 m) s
/-- VXCH_S (R192). -/
def execVxchS (a : Reg) (b : Reg) (c : Reg) (m : Bool) (s : State) : Res := runForm (formVprm 0) (args3 a b c m) s
/-- VXCH (R192). -/
def execVxch (a : Reg) (b : Reg) (c : Reg) (m : Bool) (s : State) : Res :=
  if c.toNat < 15 then runForm (formVprm 1) (argsImm a b (wordOf (pow2 c.toNat)) m) s else s.held (fun s => s.trapIssue cILLOP)
/-- VSLUP (R192). -/
def execVslup (a : Reg) (b : Reg) (c : Reg) (m : Bool) (s : State) : Res := runForm (formVprm 2) (args3 a b c m) s
/-- VSLDN (R192). -/
def execVsldn (a : Reg) (b : Reg) (c : Reg) (m : Bool) (s : State) : Res := runForm (formVprm 3) (args3 a b c m) s
/-- VPERM (R192). -/
def execVperm (a : Reg) (b : Reg) (c : Reg) (m : Bool) (s : State) : Res := runForm (formVprm 4) (args3 a b c m) s
/-- VBCAST (R192). -/
def execVbcast (a : Reg) (b : Reg) (c : Reg) (m : Bool) (s : State) : Res := runForm (formVprm 5) (args3 a b c m) s
/-- VINS (R192). -/
def execVins (a : Reg) (b : Reg) (c : Reg) (m : Bool) (s : State) : Res := runForm (formVprm 7) (args3 a b c m) s
/-- VCOMP (R193). -/
def execVcomp (a : Reg) (b : Reg) (m : Bool) (s : State) : Res := runForm (formVprm 8) (args3 a b 0 m) s
/-- VEXPD (R193). -/
def execVexpd (a : Reg) (b : Reg) (m : Bool) (s : State) : Res := runForm (formVprm 9) (args3 a b 0 m) s
/-- VIOTA (R193). -/
def execViota (a : Reg) (m : Bool) (s : State) : Res := runForm (formVprm 10) (args3 a 0 0 m) s
/-- VREV (R192). -/
def execVrev (a : Reg) (b : Reg) (m : Bool) (s : State) : Res := runForm (formVprm 11) (args3 a b 0 m) s
/-- VRSUM (R196). -/
def execVrsum (a : Reg) (b : Reg) (c : Reg) (m : Bool) (s : State) : Res := runForm (formVred 0) (args3 a b c m) s
/-- VRMIN (R196). -/
def execVrmin (a : Reg) (b : Reg) (c : Reg) (m : Bool) (s : State) : Res := runForm (formVred 1) (args3 a b c m) s
/-- VRMAX (R196). -/
def execVrmax (a : Reg) (b : Reg) (c : Reg) (m : Bool) (s : State) : Res := runForm (formVred 2) (args3 a b c m) s
/-- VRMINU (R196). -/
def execVrminu (a : Reg) (b : Reg) (c : Reg) (m : Bool) (s : State) : Res := runForm (formVred 3) (args3 a b c m) s
/-- VRMAXU (R196). -/
def execVrmaxu (a : Reg) (b : Reg) (c : Reg) (m : Bool) (s : State) : Res := runForm (formVred 4) (args3 a b c m) s
/-- VRAND (R196). -/
def execVrand (a : Reg) (b : Reg) (c : Reg) (m : Bool) (s : State) : Res := runForm (formVred 5) (args3 a b c m) s
/-- VROR (R196). -/
def execVror (a : Reg) (b : Reg) (c : Reg) (m : Bool) (s : State) : Res := runForm (formVred 6) (args3 a b c m) s
/-- VRXOR (R196). -/
def execVrxor (a : Reg) (b : Reg) (c : Reg) (m : Bool) (s : State) : Res := runForm (formVred 7) (args3 a b c m) s
/-- VRFSUM (R196). -/
def execVrfsum (a : Reg) (b : Reg) (c : Reg) (m : Bool) (s : State) : Res := runForm (formVred 8) (args3 a b c m) s
/-- VRFMIN (R196). -/
def execVrfmin (a : Reg) (b : Reg) (c : Reg) (m : Bool) (s : State) : Res := runForm (formVred 9) (args3 a b c m) s
/-- VRFMAX (R196). -/
def execVrfmax (a : Reg) (b : Reg) (c : Reg) (m : Bool) (s : State) : Res := runForm (formVred 10) (args3 a b c m) s
/-- VSCAN_ADD (R197). -/
def execVscanAdd (a : Reg) (b : Reg) (c : Reg) (m : Bool) (s : State) : Res := runForm (formVred 11) (args3 a b c m) s
/-- VFSCAN_ADD (R197). -/
def execVfscanAdd (a : Reg) (b : Reg) (c : Reg) (m : Bool) (s : State) : Res := runForm (formVred 12) (args3 a b c m) s
/-- VSCANLIN (R90). -/
def execVscanlin (a : Reg) (b : Reg) (c : Reg) (m : Bool) (s : State) : Res := runForm (formVred 13) (args3 a b c m) s

end Sys2Proof.Machine
end

