-- ==== Sys2Proof/Machine/Memory.lean ====
section
/-! DEFINITION. Vector memory instructions: unit, strided, segment and indexed loads and stores (R200 to R208), described blocks (R67
to R69, R209, R210), vector atomics (R211) and the scale-register instructions (R212). -/
namespace Sys2Proof.Machine

/-! ### The element loop (R201 to R205) -/

/-- The loop so far: elements to write, by index in their group; the byte read last; flags; where it stopped. -/
structure MemLoop where
  s : State
  out : List (Nat × Nat)
  last : Nat
  flags : FlagAcc
  stop : Option (Nat × Halt)

/-- What one element's step needs: the drover at issue, its data row and the rows of its group, the element width. -/
structure MemCtx where
  d : Drover
  base : Nat
  n : Nat
  w : Nat
  m : Bool
  zero : Bool
  eccBit : Nat → Bool
  ecc : Nat → Bool
  one : MemLoop → Nat → MemLoop

def MemCtx.act (c : MemCtx) (i : Nat) : Bool := c.d.act c.m i

/-- Go on with the value of an access for element i, or stop there; an awaited answer gives back those taken. -/
def MemLoop.access {α : Type} (l : MemLoop) (i : Nat) (a : Acc α) (k : State → α → MemLoop) : MemLoop :=
  match a with
  | .ok s v => k s v
  | .fail s f => { l with s := s, stop := some (i, .fault f) }
  | .wait s => { l with s := { s with reps := l.s.reps }, stop := some (i, .wait) }

/-- Element `x.1` of the group takes a value: in its row, or through the write stream bound to it. -/
def MemLoop.put (d : Drover) (base n : Nat) (l : MemLoop) (x : Nat × Nat) : MemLoop :=
  if l.stop.isSome then l
  else match d.stream (base + x.1 % n) with
    | none => { l with out := x :: l.out }
    | some t => l.access (x.1 / n) (l.s.pushElem t (t.pos + x.1 / n) x.2) (fun s _ => { l with s := s })

/-- A loop that goes on from `r`, or where that stopped goes back to `l`: nothing of what it began is written. -/
def MemLoop.orBack (l r : MemLoop) : MemLoop :=
  match r.stop with
  | none => r
  | some (i, .fault f) => { l with s := l.s.takeBack r.s (.fault f), stop := some (i, .fault f) }
  | some (i, h) => { l with s := l.s.takeBack r.s .wait, stop := some (i, h) }

/-- A loop that goes on from `r`, or where that awaits an answer goes back to `l`. -/
def MemLoop.orWait (l r : MemLoop) : MemLoop :=
  match r.stop with
  | some (i, .wait) => { l with s := l.s.takeBack r.s .wait, stop := some (i, .wait) }
  | _ => r

/-- Elements of a group take their values together: none is written unless every push among them passes its checks (R45, R205). -/
def MemLoop.putAll (d : Drover) (base n : Nat) (l : MemLoop) (xs : List (Nat × Nat)) : MemLoop :=
  if l.stop.isSome then l
  else if d.streams.isEmpty then { l with out := xs.reverse ++ l.out }
  else match l.s.probePushes d (xs.map (fun x => (base + x.1 % n, x.1 / n, x.2))) with
    | (s, some (i, .fault f)) => { l with s := s, stop := some (i, .fault f) }
    | (s, some (i, .wait)) => { l with s := s, stop := some (i, .wait) }
    | (s, none) => MemLoop.orBack { l with s := s } (xs.foldl (fun l x => l.put d base n x) { l with s := s })

/-- Whether the governing predicate's bit for element i lies in a word in error (R167, R413): the bit is read whatever it says. -/
def Drover.govError (d : Drover) (m : Bool) (i : Nat) : Bool := !d.ecc.isEmpty && m && d.eccAt eccPred (vtyPs d.vec.vty) 1 i

/-- One element of the loop. -/
def MemLoop.elem (c : MemCtx) (l : MemLoop) (i : Nat) : MemLoop :=
  if c.eccBit i then { l with stop := some (i, .fault eccFault) }
  else if c.act i then
    if c.ecc i then { l with stop := some (i, .fault eccFault) } else c.one l i
  else if c.zero then l.putAll c.d c.base c.n ((List.range c.n).map (fun j => (i * c.n + j, 0)))
  else l

/-- Elements in turn, up to the first that stops. -/
def MemLoop.run (c : MemCtx) (l : MemLoop) (els : List Nat) : MemLoop :=
  match els with
  | [] => l
  | i :: rest => match l.stop with
    | some _ => l
    | none => (l.elem c i).run c rest

/-- Values of listed numbers by a read, all of them or none. -/
def readAll (rd : State → Nat → Acc Nat) (l : List Nat) (s : State) : Acc (List Nat) :=
  let r := (readElems rd l ⟨s, [], none⟩).keepAnswers s
  match r.stop with
  | none => .ok r.s (r.vals.map (·.2))
  | some (_, .fault f) => .fail r.s f
  | some (_, .wait) => .wait r.s

/-- Element i of a group of rows that the instruction reads, a bound row popping it. -/
def State.readEl (s : State) (d : Drover) (base m w i : Nat) : Acc Nat :=
  match d.stream (base + i % m) with
  | none => .ok s (d.vec.elem base m w i)
  | some t => s.popElem t (t.pos + i / m)

/-- The address of element i, field 0. -/
abbrev EaFn := State → Nat → Acc Word

def wordSum (b : Word) (x : Int) : Word := b + BitVec.ofInt 64 x

/-- Bytes at an address: n of them for each of `k` fields in turn. -/
def fieldAddr (a : Word) (n j : Nat) : Word := a + BitVec.ofNat 64 (j * n)

/-- The checks of the fields of a segment, before any of them is read (R205, R242). -/
def probeFields (ag : Agent) (a : Word) (n k : Nat) (s : State) : Acc (List Nat) :=
  if k ≤ 1 then .ok s []
  else readAll (fun s j => (s.loadProbe ag (fieldAddr a n j) n).map (fun _ => 0)) (List.range k) s

/-- A load of element i: every field is checked before any is read or written (R205, R242). -/
def loadEl (c : MemCtx) (ag : Agent) (ea : EaFn) (l : MemLoop) (i : Nat) : MemLoop :=
  l.access i (ea l.s i) (fun s a =>
    l.access i (probeFields ag a (c.w / 8) c.n s) (fun s _ =>
      l.access i (readAll (fun s j => s.loadNat ag (fieldAddr a (c.w / 8) j) (c.w / 8)) (List.range c.n) s) (fun s vs =>
        MemLoop.putAll c.d c.base c.n { l with s := s } ((vs.zipIdx).map (fun v => (i * c.n + v.2, v.1))))))

/-- A 4-bit element of a unit load: the byte of a pair is checked and read once (R200). -/
def loadNib (c : MemCtx) (ag : Agent) (e0 : Nat) (g : Word) (l : MemLoop) (i : Nat) : MemLoop :=
  let nib := fun (b : Nat) => b / pow2 (4 * (i % 2)) % 16
  if i % 2 = 1 && decide (e0 < i) && c.act (i - 1) then l.put c.d c.base 1 (i, nib l.last)
  else l.access i (l.s.loadNat ag (fieldAddr g 1 (i / 2)) 1) (fun s b =>
    ({ l with s := s, last := b }).put c.d c.base 1 (i, nib b))

/-- Listed accesses in turn, up to the first that fails or waits: which of them it is. -/
def storeEach (f : State → Word × List Byte → Acc Unit) (l : List (Word × List Byte)) (j : Nat) (s : State) : State × Option (Nat × Stop) :=
  match l with
  | [] => (s, none)
  | x :: rest => match f s x with
    | .ok s _ => storeEach f rest (j + 1) s
    | .fail s e => (s, some (j, .fault e))
    | .wait s => (s, some (j, .wait))

/-- The checks, then the writes, of listed fields: none is written unless all pass, and none where one fails as it is sent (R205, R212,
R277). -/
def storeFields (s : State) (ag : Agent) (cover : List Nat) (l : List (Word × List Byte)) : State × Option (Nat × Stop) :=
  match storeEach (fun s x => s.storeProbe ag x.1 x.2 cover) l 0 s with
  | (s, some x) => (s, some x)
  | (s, none) => match storeEach (fun s x => s.storeCover ag x.1 x.2 cover) l 0 s with
    | (t, none) => (t, none)
    | (t, some x) => (s.takeBack t x.2, some x)

/-- A store of element i. -/
def storeEl (c : MemCtx) (ag : Agent) (ea : EaFn) (cover : List Nat) (l : MemLoop) (i : Nat) : MemLoop :=
  l.access i (ea l.s i) (fun s a =>
    l.access i (readAll (fun s j => s.readEl c.d c.base c.n c.w (i * c.n + j)) (List.range c.n) s) (fun s vs =>
      match storeFields s ag cover ((vs.zipIdx).map (fun v => (fieldAddr a (c.w / 8) v.2, leBytes (c.w / 8) v.1))) with
      | (s, none) => { l with s := s }
      | (s, some (_, .fault f)) => { l with s := s, stop := some (i, .fault f) }
      | (s, some (_, .wait)) => { l with s := { s with reps := l.s.reps }, stop := some (i, .wait) }))

/-- A 4-bit element of a unit store: both of a pair are written together, or one nibble alone (R200). -/
def storeNib (c : MemCtx) (ag : Agent) (e0 : Nat) (g : Word) (cover : List Nat) (l : MemLoop) (i : Nat) : MemLoop :=
  let on := fun k => decide (e0 ≤ k) && decide (k < c.d.vec.vl) && c.act k
  let v := fun k => c.d.vec.elem c.base 1 4 k
  let a := fieldAddr g 1 (i / 2)
  if i % 2 = 1 && on (i - 1) then l
  else if i % 2 = 0 && on (i + 1) then
    l.access i (l.s.storeCover ag a (leBytes 1 (v i + 16 * v (i + 1))) cover) (fun s _ => { l with s := s })
  else l.access i (l.s.storeNibble ag a (i % 2 = 1) (v i) []) (fun s _ => { l with s := s })

/-! ### The index group (R207) -/

def indexRows (w : Nat) : Nat := if w ≥ 32 then 1 else 32 / w
/-- The address of an indexed element. -/
def eaIndexed (d : Drover) (b c : Reg) : EaFn := fun s i =>
  match s.readEl d (d.phys c) (indexRows d.vw) 32 i with
  | .ok s x => .ok s (wordSum (d.getG b) (toSigned 32 (x % pow2 32)))
  | .fail s f => .fail s f
  | .wait s => .wait s
/-- Unit, strided and segment addresses (R204, R205). -/
def eaStep (g : Word) (step : Int) : EaFn := fun s i => .ok s (wordSum g ((i : Int) * step))

/-! ### Running a load or a store -/

/-- A memory instruction: its data row and the rows of its group, its index row, whether it stores, whether it is a
unit access (which admits 4-bit elements), `.ff`, `.m`, and how it runs one element. -/
structure MemForm where
  a : Reg
  n : Nat
  idx : Option Reg
  store : Bool
  unit : Bool
  ff : Bool
  m : Bool
  step : Int
  b : Reg

def MemForm.data (x : MemForm) (d : Drover) : List Nat := group (d.phys x.a) x.n
def MemForm.idxRows (x : MemForm) (d : Drover) : List Nat :=
  match x.idx with
  | some c => group (d.phys c) (indexRows d.vw)
  | none => []
def MemForm.reads (x : MemForm) (d : Drover) : List Nat := x.idxRows d ++ (if x.store then x.data d else [])
def MemForm.writes (x : MemForm) (d : Drover) : List Nat := if x.store then [] else x.data d

/-- The RESCOMB conditions of R200, R207 and R231. -/
def MemForm.bad (x : MemForm) (d : Drover) : Bool :=
  !d.vfmt.legal || (d.vw == 4 && !x.unit) || (x.writes d).any (x.idxRows d).contains || d.streamBad (x.reads d) (x.writes d)

/-- The issue checks after ILLOP (R104). -/
def MemForm.trap (x : MemForm) (d : Drover) : Option Nat :=
  if d.unready then some cVNCFG
  else if x.bad d then some cRESCOMB
  else if d.outside (x.reads d ++ x.writes d) then some cWINOV
  else none

/-- The address of an element's first field. -/
def MemForm.ea (x : MemForm) (d : Drover) : EaFn :=
  match x.idx with
  | some c => eaIndexed d x.b c
  | none => eaStep (d.getG x.b) x.step

/-- Whether element i reads a register word in error (R413). -/
def MemForm.ecc (x : MemForm) (d : Drover) (i : Nat) : Bool :=
  !d.ecc.isEmpty &&
  ((match x.idx with
      | some c => let m := indexRows d.vw; d.eccAt eccRow (d.phys c + i % m) 32 (i / m)
      | none => false) ||
    (x.store && (x.data d).any (fun r => d.eccAt eccRow r d.vw i)))

/-- The bytes a store's active elements write, for the lines they cover; asked only where a line is in error. -/
def MemForm.cover (x : MemForm) (d : Drover) (s : State) (els : List Nat) : List Nat :=
  if s.poison.isEmpty && s.bad.isEmpty then []
  else
    let on := els.filter (d.act x.m)
    if d.vw = 4 then
      coveredLines ((on.filter (fun i => i % 2 = 0 && on.contains (i + 1))).map (fun i => (fieldAddr (d.getG x.b) 1 (i / 2)).toNat))
    else coveredLines (on.flatMap (fun i => match x.ea d s i with
      | .ok _ a => (List.range (x.n * (d.vw / 8))).map (fun k => (fieldAddr a 1 k).toNat)
      | _ => []))

/-- Write what a memory instruction produced (R43, R45, R46, R231). HWM rises by the rows the instruction names, also where it stops at
element 0 and has written none of them (DESIGN CHOICE, log 65). -/
def Drover.commitMem (d : Drover) (base n : Nat) (rows streams : List Nat) (l : MemLoop) (done : Bool) (e : Nat) (m : Bool) : Drover :=
  let w := d.vw
  let v := (d.vec.setElems base n w l.out).progress rows ⟨done, e⟩
  let v := if rows.isEmpty then v else v.mark rows w
  let d := ({ d with vec := v }).setFlags l.flags
  let els := l.out.map (·.1)
  let d := (List.range n).foldl (fun (d : Drover) j => d.eccWritten eccRow (base + j) w ((els.filter (fun i => i % n == j)).map (· / n))) d
  let d := if done then d.advanceStreams streams else d
  d.occupy (d.act m)

/-- Whether `.ff` turns a stop into a shorter VL (R203); a watchpoint stops under R201 (R420). -/
def ffEnds (ff : Bool) (i : Nat) (h : Halt) : Bool :=
  ff && decide (0 < i) && match h with
    | .fault f => f.cause != cWATCH
    | _ => false

/-- The end of a memory instruction. -/
def State.endMem (base n : Nat) (rows streams : List Nat) (ff m : Bool) (l : MemLoop) : Res :=
  let d := l.s.cur
  match l.stop with
  | none => l.s.complete (d.commitMem base n rows streams l true d.vec.vl m)
  | some (i, h) =>
    if ffEnds ff i h then
      l.s.complete (({ d with vec := { d.vec with vl := i } }).commitMem base n rows streams l true i m)
    else l.s.haltForm (d.commitMem base n rows streams l false i m) i h

/-- The loop of a memory instruction that passed its checks. -/
def MemForm.effect (x : MemForm) (s : State) : Res :=
  let d := s.cur
  let rows := x.writes d
  let e0 := d.startAt rows
  let els := (List.range d.vec.vl).filter (fun i => decide (e0 ≤ i))
  let ag := s.agentOf s.sel
  let g := d.getG x.b
  let cover := x.cover d s els
  let c0 : MemCtx :=
    { d := d, base := d.phys x.a, n := x.n, w := d.vw, m := x.m, zero := !x.store && vtyMp d.vec.vty, eccBit := d.govError x.m, ecc := x.ecc d, one := fun l _ => l }
  let c : MemCtx :=
    { c0 with one := fun l i =>
        if x.store then (if d.vw = 4 then storeNib c0 ag e0 g cover l i else storeEl c0 ag (x.ea d) cover l i)
        else if d.vw = 4 then loadNib c0 ag e0 g l i else loadEl c0 ag (x.ea d) l i }
  let l0 : MemLoop := { s := s, out := [], last := 0, flags := d.flags, stop := none }
  State.endMem (d.phys x.a) x.n rows (x.reads d ++ rows) x.ff x.m (l0.run c els)

/-- A load or store: held by a run, checked at issue, then run. -/
def runMem (x : State → MemForm) (s : State) : Res :=
  s.held (fun s => match (x s).trap s.cur with
    | some c => s.trapIssue c
    | none => (x s).effect s)

/-- The forms of R204. -/
def unitForm (store ff : Bool) (a b : Reg) (m : Bool) (s : State) : MemForm :=
  { a := a, n := 1, idx := none, store := store, unit := true, ff := ff, m := m, step := ((s.cur.vw / 8 : Nat) : Int), b := b }
def strideForm (store ff : Bool) (a b c : Reg) (m : Bool) (s : State) : MemForm :=
  { a := a, n := 1, idx := none, store := store, unit := false, ff := ff, m := m, step := (s.cur.getG c).toInt, b := b }
def segmentForm (store : Bool) (a b c : Reg) (m : Bool) (s : State) : MemForm :=
  { a := a, n := c.toNat, idx := none, store := store, unit := false, ff := false, m := m
    step := ((c.toNat * (s.cur.vw / 8) : Nat) : Int), b := b }
def indexForm (store ff : Bool) (a b c : Reg) (m : Bool) (_ : State) : MemForm :=
  { a := a, n := 1, idx := some c, store := store, unit := false, ff := ff, m := m, step := 0, b := b }

/-- VLD (R204). -/
def execVld (a b : Reg) (m : Bool) (s : State) : Res := runMem (unitForm false false a b m) s
/-- VLD.FF (R203). -/
def execVldFf (a b : Reg) (m : Bool) (s : State) : Res := runMem (unitForm false true a b m) s
/-- VLDS (R204). -/
def execVlds (a b c : Reg) (m : Bool) (s : State) : Res := runMem (strideForm false false a b c m) s
/-- VLDS.FF (R203). -/
def execVldsFf (a b c : Reg) (m : Bool) (s : State) : Res := runMem (strideForm false true a b c m) s
/-- A count of segments outside 2 to 8 is no instruction (R205). -/
def segments (store : Bool) (a b c : Reg) (m : Bool) (s : State) : Res :=
  if c.toNat < 2 || c.toNat > 8 then s.trapIssue cILLOP else runMem (segmentForm store a b c m) s
/-- VLDG (R205). -/
def execVldg (a b c : Reg) (m : Bool) (s : State) : Res := segments false a b c m s
/-- VLDX.FF (R207). -/
def execVldxFf (a b c : Reg) (m : Bool) (s : State) : Res := runMem (indexForm false true a b c m) s
/-- VPFD (R206): it may be dropped, and writes no state. -/
def execVpfd (_b _c : Reg) (s : State) : Res := s.held (fun s => s.complete s.cur)
/-- VST (R204). -/
def execVst (a b : Reg) (m : Bool) (s : State) : Res := runMem (unitForm true false a b m) s
/-- VSTS (R204). -/
def execVsts (a b c : Reg) (m : Bool) (s : State) : Res := runMem (strideForm true false a b c m) s
/-- VSTG (R205). -/
def execVstg (a b c : Reg) (m : Bool) (s : State) : Res := segments true a b c m s
/-- VSTX (R207). -/
def execVstx (a b c : Reg) (m : Bool) (s : State) : Res := runMem (indexForm true false a b c m) s

/-! ### VLDX (R208, R400) -/

/-- SMS.PF (R49). -/
def Drover.pf (d : Drover) : Nat := (d.sms.toNat / 512) % 16

/-- The accesses of a VLDX so far: elements loaded, elements that failed, whether an answer is awaited. -/
structure Gathered where
  s : State
  out : List (Nat × Nat)
  done : List Nat
  failed : List (Nat × FaultInfo)
  wait : Bool

/-- Whether some listed element of a gather lies on a strongly ordered page (R245). -/
def State.gatherStrong (s : State) (ag : Agent) (ea : EaFn) (w : Nat) (els : List Nat) : Bool :=
  els.any (fun i => match ea s i with
    | .ok s a => match s.locate ag .read a (w / 8) with
      | .ok (_, p) => pteSO p.pte
      | .error _ => false
    | _ => false)

/-- One element: its index, its load, its place. Where a page is strongly ordered, no access is made while an earlier one awaits its
answer (R242, R245). -/
def gatherEl (c : MemCtx) (ag : Agent) (ea : EaFn) (strong : Bool) (g : Gathered) (i : Nat) : Gathered :=
  if strong && g.wait then g
  else
  let l := MemLoop.elem { c with zero := false, one := loadEl c ag ea } { s := g.s, out := [], last := 0, flags := c.d.flags, stop := none } i
  match l.stop with
  | none => { g with s := l.s, out := l.out ++ g.out, done := g.done ++ [i] }
  | some (_, .fault f) => { g with s := l.s, failed := g.failed ++ [(i, f)] }
  | some _ => { g with s := l.s, wait := true }

/-- Bits of the failure predicate: after a first run that failed, 0 for the failed elements and 1 for the others; a
replay sets the bits of those it completes. -/
def pfBits (vl : Nat) (replay : Bool) (g : Gathered) : List (Nat × Nat) :=
  if replay then g.done.map (fun i => (i, 1))
  else if g.failed.isEmpty then []
  else (List.range vl).map (fun i => (i, if g.failed.any (fun e => e.1 == i) then 0 else 1))

/-- Failing elements of distinct 4 KiB regions whose cause suspends, in ascending element order (R400). -/
def regionFaults (l : List (Nat × FaultInfo)) : List (Nat × FaultInfo) :=
  (l.filter (fun e => e.2.suspends)).foldl (fun acc e =>
    if acc.any (fun x => x.2.va.toNat / 4096 == e.2.va.toNat / 4096) then acc else acc ++ [e]) []

/-- A VLDX with failed elements: the lowest decides (R400). -/
def State.gatherStop (s : State) (e i0 : Nat) (f0 : FaultInfo) (failed : List (Nat × FaultInfo)) : State :=
  if f0.suspends then
    let key := s.sel
    let d := s.cur
    let rs := regionFaults failed
    let s := s.setDrover key (d.suspend (d.faultTrap f0 (some e) true) rs)
    rs.foldl (fun s r => s.post (dieOf key) d.ctx (s.recordOfDrover key r.2 d.iaddr r.1 false true) (some (.drover key))) s
  else
    let d := s.cur
    if s.ringFull s.sel f0 then s.setCur { d.stalled 13 with restart := e }
    else if f0.records then
      (s.post (dieOf s.sel) d.ctx (s.recordOfDrover s.sel f0 d.iaddr i0 false false) none).takeTrap s.sel (d.faultTrap f0 (some e) true)
    else s.raise s.sel f0 (some e) true

/-- VLDX (R207, R208). -/
def execVldx (a b c : Reg) (m : Bool) (s : State) : Res :=
  s.held (fun s =>
    let x := indexForm false false a b c m s
    let d := s.cur
    if d.unready then s.trapIssue cVNCFG
    else if x.bad d || d.pf == 0 || (m && d.pf == vtyPs d.vec.vty) then s.trapIssue cRESCOMB
    else if d.outside (x.reads d ++ x.writes d) then s.trapIssue cWINOV
    else
      let vl := d.vec.vl
      let replay := d.resumesPart || d.restart != 0
      let base := d.phys a
      let ctx : MemCtx :=
        { d := d, base := base, n := 1, w := d.vw, m := m, zero := false, eccBit := d.govError m, ecc := x.ecc d, one := fun l _ => l }
      let todo := (List.range vl).filter (fun i => (d.govError m i || d.act m i) && !(replay && d.vec.pbit d.pf i))
      let ag := s.agentOf s.sel
      let g := todo.foldl (gatherEl ctx ag (x.ea d) (s.gatherStrong ag (x.ea d) d.vw todo)) ⟨s, [], [], [], false⟩
      if g.wait then ({ g.s with reps := s.reps }).notReady 4
      else
        let zeros := if vtyMp d.vec.vty && !replay then (List.range vl).filter (fun i => !d.act m i) else []
        let l : MemLoop := zeros.foldl (fun l i => l.put d base 1 (i, 0))
          { s := g.s, out := g.out, last := 0, flags := d.flags, stop := none }
        let fixPf := fun (d' : Drover) => { d' with vec := d'.vec.setPbits d.pf (pfBits vl replay g) }
        match g.failed with
        | [] => l.s.complete (fixPf (l.s.cur.commitMem base 1 [base] (x.reads d ++ [base]) l true vl m))
        | (i0, f0) :: _ =>
          let d1 := fixPf l.s.cur
          let e := ((List.range vl).find? (fun i => !d1.vec.pbit d.pf i)).getD i0
          .next ((l.s.setCur (d1.commitMem base 1 [base] [] l false e m)).gatherStop e i0 f0 g.failed))

/-! ### Described blocks (R67 to R69, R209, R210) -/

/-- Payload elements of a block format; 0 for a format no block has (R67). -/
def blockCount (f : Fmt) : Nat :=
  match f with
  | .i4 | .i4x => 124
  | .i8 | .n8 | .h8 | .g8 => 62
  | .f16 | .bf16 => 31
  | _ => 0

/-- Register formats a block format converts into exactly (R69). -/
def blockExact (src dst : Fmt) : Bool :=
  match src with
  | .i4 => [Fmt.i16, .i32, .h8, .f16, .bf16, .f32].contains dst
  | .i4x => [Fmt.h8, .f16, .bf16, .f32].contains dst
  | .i8 | .n8 => [Fmt.i16, .i32, .f16, .bf16, .f32].contains dst
  | .h8 => [Fmt.h8, .f16, .bf16, .f32].contains dst
  | .g8 => [Fmt.f16, .bf16, .f32].contains dst
  | .f16 => [Fmt.f16, .f32].contains dst
  | .bf16 => [Fmt.bf16, .f32].contains dst
  | _ => false

def blockReg (f : Fmt) : Bool := [Fmt.h8, .f16, .bf16, .f32, .i16, .i32].contains f

/-- A block as read: its payload count, its scale entry, whether FE is raised at the span's first element, and the
code and flags of payload element t. -/
structure Block where
  n : Nat
  scale : Nat
  fe : Bool
  val : Nat → Nat × FlagSet

/-- Element t of a payload. -/
def payload (l : List Byte) (w t : Nat) : Nat := leNat (l.drop 2) / pow2 (w * t) % pow2 w

/-- A block decoded for a register format and a span of S elements (R66 to R69). A malformed block counts the positions
its FMT gives, at most S, as payload. -/
def decodeBlock (dst : Fmt) (S : Nat) (l : List Byte) : Block :=
  let b0 := fieldAt l 0 1
  let e := fieldAt l 1 1
  let f := Fmt.ofCode (b0 % 32)
  let n := blockCount f
  let bad := b0 / 64 != 0 || n == 0 || decide (n > S) || !blockExact f dst
  let none_ : Nat × FlagSet := (if dst.isInt then 0 else defaultNaN dst, flNone)
  if bad then ⟨if n = 0 then S else Nat.min n S, 0xFF, true, fun _ => none_⟩
  else if e = 0xFF then ⟨n, 0xFF, dst.isInt, fun _ => none_⟩
  else if b0 / 32 % 2 = 1 then ⟨n, e, false, fun _ => (0, flNone)⟩
  else if f == .i4x then
    ⟨n, e, false, fun t => let g := t / 4 * 4
      (decodeSlot (payload l 4 g) (payload l 4 (g + 1)) (payload l 4 (g + 2)) (payload l 4 (g + 3)) (t % 4)).convert dst rmRNE⟩
  else ⟨n, e, false, fun t => convertElem f dst rmRNE false (payload l f.width t)⟩

/-- A VLDB so far: the loop, the pad predicate's bits, scale entries, the block read last. -/
structure BlockLoop where
  l : MemLoop
  pad : List (Nat × Nat)
  scales : List (Nat × Nat)
  block : Block

/-- A flag at element i, which stops there when it is enabled. -/
def MemLoop.flag (d : Drover) (l : MemLoop) (i : Nat) (f : FlagSet) : MemLoop :=
  { l with flags := l.flags.raise i f, stop := if d.enabled f then some (i, .fptrap) else l.stop }

/-- One element of VLDB: the first element met of a span reads the block (R209). FE of a malformed block belongs to the span's first
element; R77 raises it only where that element is active (DEDUCED, log 74). -/
def vldbEl (d : Drover) (ag : Agent) (g : Word) (base e0 : Nat) (m : Bool) (x : BlockLoop) (i : Nat) : BlockLoop :=
  if x.l.stop.isSome then x
  else
    let S := pow2 (vtyBl d.vec.vty)
    let j := i / S
    let x := if i % S = 0 || i = e0 then
        let l' := x.l.access (j * S) (x.l.s.loadBlock ag (fieldAddr g 64 j) 64) (fun s bytes =>
          { x.l with s := s, last := leNat bytes })
        let b := decodeBlock d.vfmt S (leBytes 64 l'.last)
        let l' := if l'.stop.isNone && b.fe && i % S = 0 && d.act m i then l'.flag d i flFE else l'
        { x with l := l', block := b, scales := if l'.stop.isNone then (j, b.scale) :: x.scales else x.scales }
      else x
    if x.l.stop.isSome then x
    else
      let t := i % S
      let put := fun (x : BlockLoop) v p =>
        let l := x.l.put d base 1 (i, v)
        { x with l := l, pad := if l.stop.isSome then x.pad else (i, p) :: x.pad }
      if d.govError m i then { x with l := { x.l with stop := some (i, .fault eccFault) } }
      else if d.act m i then
        if t < x.block.n then
          let v := x.block.val t
          let l' := x.l.flag d i v.2
          if l'.stop.isSome then { x with l := l' } else put { x with l := l' } v.1 1
        else put x 0 0
      else if vtyMp d.vec.vty then put x 0 0
      else x

/-- VLDB and VLDB.FF (R209). -/
def blockLoad (ff : Bool) (a b c : Reg) (m : Bool) (s : State) : Res :=
  s.held (fun s =>
    let d := s.cur
    let base := d.phys a
    let ks := vtyKs d.vec.vty
    if !writesPred c then s.trapIssue cILLOP
    else if d.unready then s.trapIssue cVNCFG
    else if !(decide (5 ≤ vtyBl d.vec.vty) && decide (vtyBl d.vec.vty ≤ 7)) || !blockReg d.vfmt || d.streamBad [] [base] then s.trapIssue cRESCOMB
    else if d.outside [base] then s.trapIssue cWINOV
    else
      let vl := d.vec.vl
      let e0 := d.startAt [base]
      let x := ((List.range vl).filter (fun i => decide (e0 ≤ i))).foldl (vldbEl d (s.agentOf s.sel) (d.getG b) base e0 m)
        { l := { s := s, out := [], last := 0, flags := d.flags, stop := none }, pad := [], scales := [], block := ⟨0, 0, false, fun _ => (0, flNone)⟩ }
      let d1 := x.l.s.cur
      let v := d1.vec.setPbits c.toNat x.pad
      let v := if x.scales.isEmpty then v
        else (x.scales.foldl (fun (v : Vec) (e : Nat × Nat) => v.setScale ks (setRowElem (v.scale ks) 8 e.1 e.2)) v).markK ks
      let d1 := { d1 with vec := v }
      let d1 := (d1.eccWritten eccPred c.toNat 1 (x.pad.map (·.1))).eccWritten eccScale ks 8 (x.scales.map (·.1))
      State.endMem base 1 [base] [base] ff m { x.l with s := x.l.s.setCur d1 })

/-- VLDB (R209). -/
def execVldb (a b c : Reg) (m : Bool) (s : State) : Res := blockLoad false a b c m s
/-- VLDB.FF (R209). -/
def execVldbFf (a b c : Reg) (m : Bool) (s : State) : Res := blockLoad true a b c m s

/-- Formats a block may be stored in (R210). -/
def blockStores (f : Fmt) : Bool := [Fmt.i4, .i8, .n8, .h8, .g8, .f16, .bf16].contains f

/-- One payload element of a stored block (R210): exact division by the scale with one rounding, or a conversion. -/
def blockElem (src dst : Fmt) (rm : Nat) (sat : Bool) (e code : Nat) : Nat × FlagSet :=
  if src.isFloat then
    let o := match floatValue src code with
      | .fin n m x => Value.fin n m (x + 127 - (e : Int))
      | v => v
    if dst.isInt then valueToInt dst rm o else roundValue dst rm (convertNaN src dst code) o
  else convertElem src dst rm sat code

/-- One block of VSTB: built element by element, stored whole (R210). -/
def vstbBlock (d : Drover) (ag : Agent) (g : Word) (base : Nat) (f : Fmt) (m : Bool) (e0 : Nat) (l : MemLoop) (j : Nat) : MemLoop :=
  let v := d.vec.vty
  let S := pow2 (vtyBl v)
  let n := blockCount f
  let on := fun t => decide (j * S + t < d.vec.vl) && d.act m (j * S + t)
  let E := d.vec.kent (vtyKs v) j
  let bits := (List.range n).any (fun t => decide (j * S + t < d.vec.vl) && d.govError m (j * S + t))
  if l.stop.isSome || !((List.range n).any on || bits) then l
  else
    -- the elements in turn: (loop, payload); below e0 their flags have been raised
    let r := (List.range n).foldl (fun (x : MemLoop × List Nat) t =>
      let i := j * S + t
      if x.1.stop.isSome then x
      else if i < d.vec.vl && d.govError m i then ({ x.1 with stop := some (j * S, .fault eccFault) }, x.2)
      else if !on t then (x.1, x.2 ++ [0])
      else if !d.ecc.isEmpty && (d.eccAt eccRow base d.vw i || d.eccAt eccScale (vtyKs v) 8 j) then
        ({ x.1 with stop := some (j * S, .fault eccFault) }, x.2)
      else if E = 0xFF then (x.1, x.2 ++ [0])
      else
        let l' := x.1.access (j * S) (x.1.s.readEl d base 1 d.vw i) (fun s c => { x.1 with s := s, last := c })
        if l'.stop.isSome then (l', x.2)
        else
          let q := blockElem d.vfmt f (vtyRm v) (vtySat v) E l'.last
          (if i < e0 then l' else l'.flag d i q.2, x.2 ++ [q.1])) (l, [])
    if r.1.stop.isSome then l.orWait r.1
    else
      let bytes := leBytes 1 f.code ++ leBytes 1 E ++ leBytes 62 (packElems f.width r.2)
      l.orWait (r.1.access (j * S) (r.1.s.storeAt ag (fieldAddr g 64 j) bytes) (fun s _ => { r.1 with s := s }))

/-- VSTB (R210). -/
def execVstb (a b : Reg) (c : BitVec 5) (m : Bool) (s : State) : Res :=
  s.held (fun s =>
    let d := s.cur
    let base := d.phys a
    let v := d.vec.vty
    let f := Fmt.ofCode c.toNat
    let usesRm := d.vfmt.isFloat || cvtUsesRm d.vfmt f
    if d.unready then s.trapIssue cVNCFG
    else if !(decide (5 ≤ vtyBl v) && decide (vtyBl v ≤ 7)) || !blockReg d.vfmt || !blockStores f || d.scaleBad || (vtyKa v && d.vfmt.isInt) ||
        (usesRm && d.rmBad) || d.streamBad [base] [] then s.trapIssue cRESCOMB
    else if d.outside [base] then s.trapIssue cWINOV
    else
      let S := pow2 (vtyBl v)
      let e0 := d.startAt []
      let js := (List.range ((d.vec.vl + S - 1) / S)).filter (fun j => decide (e0 / S ≤ j))
      let l := js.foldl (vstbBlock d (s.agentOf s.sel) (d.getG b) base f m e0)
        { s := s, out := [], last := 0, flags := d.flags, stop := none }
      State.endMem base 1 [] [base] false m l)

/-! ### Vector atomics (R211) -/

/-- A VAMO: its formats, whether it uses VTY.RM, and the new value and flags from format, rounding mode, old value and
operand. -/
structure VamoOp where
  fmt : Fmt → Bool
  rm : Bool
  op : Fmt → Nat → Nat → Nat → Nat × FlagSet

def vamoInt (f : Fmt) : Bool := f == .i32 || f == .n32 || f == .i64 || f == .n64

/-- One element: the flags come before the access; the old value goes to d[i]. -/
def vamoEl (o : VamoOp) (c : MemCtx) (ag : Agent) (ea : EaFn) (l : MemLoop) (i : Nat) : MemLoop :=
  let f := c.d.vfmt
  let v := c.d.vec.elem c.base 1 c.w i
  let new := fun old => o.op f (vtyRm c.d.vec.vty) old v
  l.access i (ea l.s i) (fun s a =>
    match s.amoAt ag a (c.w / 8) none (fun _ => none) with
    | .ok _ old =>
      let l := l.flag c.d i (new old).2
      if l.stop.isSome then l
      else l.access i (s.amoAt ag a (c.w / 8) none (fun old => some (new old).1)) (fun s old =>
        ({ l with s := s }).put c.d c.base 1 (i, old))
    | .fail s f => { l with s := s, stop := some (i, .fault f) }
    | .wait s => { l with s := { s with reps := l.s.reps }, stop := some (i, .wait) })

/-- A VAMO (R207, R211). -/
def runVamo (o : VamoOp) (a b c : Reg) (m : Bool) (s : State) : Res :=
  s.held (fun s =>
    let x := indexForm false false a b c m s
    let d := s.cur
    let base := d.phys a
    if d.unready then s.trapIssue cVNCFG
    else if !o.fmt d.vfmt || (o.rm && d.rmBad) || (x.idxRows d).contains base || d.streamBad (base :: x.idxRows d) [base] then s.trapIssue cRESCOMB
    else if d.outside (base :: x.idxRows d) then s.trapIssue cWINOV
    else
      let e0 := d.startAt [base]
      let c0 : MemCtx :=
        { d := d, base := base, n := 1, w := d.vw, m := m, zero := vtyMp d.vec.vty, eccBit := d.govError m
          ecc := fun i => x.ecc d i || (!d.ecc.isEmpty && d.eccAt eccRow base d.vw i), one := fun l _ => l }
      let l := MemLoop.run { c0 with one := vamoEl o c0 (s.agentOf s.sel) (x.ea d) }
        { s := s, out := [], last := 0, flags := d.flags, stop := none } ((List.range d.vec.vl).filter (fun i => decide (e0 ≤ i)))
      State.endMem base 1 [base] (x.idxRows d) false m l)

/-- VAMOADD (R211). -/
def execVamoadd (a b c : Reg) (m : Bool) (s : State) : Res :=
  runVamo ⟨vamoInt, false, fun f _ old v => (wrapTo f.width ((old : Int) + v), flNone)⟩ a b c m s
/-- VAMOMIN (R211). -/
def execVamomin (a b c : Reg) (m : Bool) (s : State) : Res :=
  runVamo ⟨vamoInt, false, fun f _ old v => (if f.intOf v < f.intOf old then v else old, flNone)⟩ a b c m s
/-- VAMOMAX (R211). -/
def execVamomax (a b c : Reg) (m : Bool) (s : State) : Res :=
  runVamo ⟨vamoInt, false, fun f _ old v => (if f.intOf v > f.intOf old then v else old, flNone)⟩ a b c m s
/-- VAMOSWP (R211). -/
def execVamoswp (a b c : Reg) (m : Bool) (s : State) : Res :=
  runVamo ⟨fun f => vamoInt f || f == .f32 || f == .f64, false, fun _ _ _ v => (v, flNone)⟩ a b c m s
/-- VAMOFADD (R211): operand order old, then d[i]. -/
def execVamofadd (a b c : Reg) (m : Bool) (s : State) : Res :=
  runVamo ⟨fun f => f == .f32 || f == .f64, true, fun f rm old v => fAdd f rm (floatOperand f f old) (floatOperand f f v)⟩ a b c m s

/-! ### Scale registers (R212) -/

/-- ns: the entries of VL elements. -/
def Drover.ns (d : Drover) : Nat := (d.vec.vl + pow2 (vtyBl d.vec.vty) - 1) / pow2 (vtyBl d.vec.vty)

/-- Scale register names 64 to 127 are no names (R39). -/
def isScale (r : Reg) : Bool := decide (r.toNat < 64)

/-- The whole write of a scale register. -/
def Drover.writeScale (d : Drover) (k : Nat) (v : ScaleBits) (els : List Nat) : Drover :=
  ({ d with vec := (d.vec.setScale k v).markK k }).eccWritten eccScale k 8 els

/-- KLD and KST: every address is checked in ascending order before any byte moves. Like every instruction of the chapter that needs the
vector configuration, but for VLD, VST, TLD and TST, they trap RESCOMB with 4-bit elements (R200, log 70). -/
def scaleMem (store : Bool) (a b c : Reg) (s : State) : Res :=
  s.held (fun s =>
    let d := s.cur
    let k := a.toNat
    let ns := d.ns
    let ag := s.agentOf s.sel
    let at_ := fun (j : Nat) => wordSum (d.getG b) ((j : Int) * (d.getG c).toInt)
    let elem := fun j => j * pow2 (vtyBl d.vec.vty)
    if !isScale a then s.trapIssue cILLOP
    else if d.unready then s.trapIssue cVNCFG
    else if d.vw = 4 || ns > 512 then s.trapIssue cRESCOMB
    else
      let js := List.range ns
      if store then
        let cover := if s.poison.isEmpty && s.bad.isEmpty then [] else coveredLines (js.map (fun j => (at_ j).toNat))
        let byte := fun j => leBytes 1 (d.vec.kent k j)
        let check := readElems (fun s j =>
          if !d.ecc.isEmpty && d.eccAt eccScale k 8 j then .fail s eccFault
          else (s.storeProbe ag (at_ j) (byte j) cover).map (fun _ => 0)) js ⟨s, [], none⟩
        match check.stop with
        | some (j, .fault f) => .next (check.s.raise s.sel f (some (elem j)) false)
        | some (_, .wait) => check.s.awaitReply
        | none =>
          match storeFields check.s ag cover (js.map (fun j => (at_ j, byte j))) with
          | (s, none) => s.complete s.cur
          | (s, some (j, .fault f)) => .next (s.raise s.sel f (some (elem j)) false)
          | (s, some (_, .wait)) => s.awaitReply
      else
        let p := readElems (fun s j => (s.loadProbe ag (at_ j) 1).map (fun _ => 0)) js ⟨s, [], none⟩
        let r := if p.stop.isSome then p else (readElems (fun s j => s.loadNat ag (at_ j) 1) js ⟨p.s, [], none⟩).keepAnswers p.s
        match r.stop with
        | some (j, .fault f) => .next (r.s.raise s.sel f (some (elem j)) false)
        | some (_, .wait) => r.s.awaitReply
        | none =>
          if ns = 0 then r.s.complete r.s.cur
          else r.s.complete (r.s.cur.writeScale k (r.vals.foldl (fun v e => setRowElem v 8 e.1 e.2) (d.vec.scale k)) js))

/-- KLD (R212). -/
def execKld (a b c : Reg) (s : State) : Res := scaleMem false a b c s
/-- KST (R212). -/
def execKst (a b c : Reg) (s : State) : Res := scaleMem true a b c s

/-- KMOV (R212). -/
def execKmov (a b : Reg) (s : State) : Res :=
  s.held (fun s =>
    let d := s.cur
    if !(isScale a && isScale b) then s.trapIssue cILLOP
    else if d.unready then s.trapIssue cVNCFG
    else if d.vw = 4 then s.trapIssue cRESCOMB
    else match (List.range 512).find? (fun j => !d.ecc.isEmpty && d.eccAt eccScale b.toNat 8 j) with
      | some j => .next (s.raise s.sel eccFault (some (j * pow2 (vtyBl d.vec.vty))) false)
      | none => s.complete (d.writeScale a.toNat (d.vec.scale b.toNat) (List.range 512)))

/-- KSET (R212): a value above 255 traps RESCOMB. -/
def execKset (a b : Reg) (s : State) : Res :=
  s.held (fun s =>
    let d := s.cur
    let v := d.getG b
    if !isScale a then s.trapIssue cILLOP
    else if d.unready then s.trapIssue cVNCFG
    else if d.vw = 4 || !topZero v 8 then s.trapIssue cRESCOMB
    else s.complete (d.writeScale a.toNat ((List.range 512).foldl (fun r j => setRowElem r 8 j v.toNat) 0) (List.range 512)))

end Sys2Proof.Machine
end

