-- ==== Sys2Proof/Machine/Tile.lean ====
section
/-! DEFINITION. The tile table and tile memory (R213 to R221, R225), with the tiles of halted contexts that go AWAY and come
back (R407). -/
namespace Sys2Proof.Machine

/-! ### Tile memory -/

def Tile.size (t : Tile) : Nat := (t.rows * t.rb + 4095) / 4096 * 4096
def Tile.overlaps (t : Tile) (lo hi : Nat) : Bool := decide (t.base < hi) && decide (lo < t.base + t.size)
def Core.tile (c : Core) (h : Nat) : Option Tile := assocGet c.tiles h
def Core.setTile (c : Core) (h : Nat) (t : Tile) : Core := { c with tiles := assocPut c.tiles h t }

def RangeRec.clear : RangeRec := { lo := [0, 0, 0, 0], hi := [0, 0, 0, 0], row0 := 0, nr := 0, rc1 := 0, rc2 := 0 }

/-- The byte of tile element (r, c) of width w, and the element (R213). -/
def Tile.byteAt (t : Tile) (r c w : Nat) : Nat := t.base + r * t.rb + c * w / 8
def Core.tileGet (k : Core) (t : Tile) (r c w : Nat) : Nat :=
  let a := t.byteAt r c w
  if w = 4 then (Memory.get k.tmem a).toNat / pow2 (4 * (c % 2)) % 16 else leNat (Memory.getList k.tmem a (w / 8))
def Core.tilePut (k : Core) (t : Tile) (r c w v : Nat) : Core :=
  let a := t.byteAt r c w
  if w = 4 then
    let old := (Memory.get k.tmem a).toNat
    let new := if c % 2 = 1 then old % 16 + 16 * (v % 16) else old / 16 * 16 + v % 16
    { k with tmem := Memory.set k.tmem a (BitVec.ofNat 8 new) }
  else { k with tmem := Memory.setList k.tmem a (leBytes (w / 8) v) }

/-- Whether a tile element lies in a word in error, and the words in error after listed bytes are written (R413). -/
def Core.tileErr (k : Core) (t : Tile) (r c w : Nat) : Bool := k.terr.contains (t.byteAt r c w / 8)
def Core.healWords (k : Core) (bytes : List Nat) : Core :=
  if k.terr.isEmpty then k
  else { k with terr := k.terr.filter (fun x => !(List.range 8).all (fun j => bytes.contains (8 * x + j))) }

/-- Every byte of a region becomes 0 (R218). -/
def Core.zeroRegion (k : Core) (base size : Nat) : Core :=
  { k with tmem := k.tmem.filter (fun e => !(decide (base ≤ e.1) && decide (e.1 < base + size)))
           terr := k.terr.filter (fun x => !(decide (base / 8 ≤ x) && decide (x < (base + size) / 8))) }

/-! ### Bank sets (R213, R328) -/

/-- The bank sets of bytes lo to hi − 1 of listed tile rows. -/
def bankSets (rows : List Nat) (lo hi : Nat) : Nat :=
  if hi ≤ lo then 0
  else rows.foldl (fun a r =>
    (List.range ((hi - 1) / 64 + 1 - lo / 64)).foldl (fun a q => a ||| pow2 ((q + lo / 64 + r) % 64 / 8)) a) 0

/-- Units of a class that bookings of others hold on a core in the present quantum (R328). -/
def State.bookedNow (s : State) (core key cls : Nat) : Nat :=
  s.bookings.foldl (fun a b =>
    if b.core = core && b.owner != some key then
      b.entries.foldl (fun a e => if e.cls = cls && e.covers s.quantum then a ||| e.mask else a) a
    else a) 0

/-- Units of a class that bookings of others hold on a core now or later: a use without an end in sight takes none of them (R328). -/
def State.bookedAhead (s : State) (core key cls : Nat) : Nat :=
  s.bookings.foldl (fun a b =>
    if b.core = core && b.owner != some key then
      b.entries.foldl (fun a e => if e.cls = cls && decide (s.quantum < e.until_) then a ||| e.mask else a) a
    else a) 0

/-- The bank set of a tile element of width w: a chunk of 64 bytes lies in one bank (R213). -/
def cellSet (r c w : Nat) : Nat := pow2 ((c * w / 512 + r) % 64 / 8)
def cellSets (cells : List (Nat × Nat)) (w : Nat) : Nat := cells.foldl (fun a x => a ||| cellSet x.1 x.2 w) 0
/-- The bank sets of a whole region, as an AWAY save or restore touches them (R213). -/
def Tile.allSets (t : Tile) : Nat := bankSets (List.range ((t.size + t.rb - 1) / t.rb)) 0 t.rb

/-- Whether bookings of others hold some of these bank sets of a core (R328). -/
def State.banksHeld (s : State) (core key sets : Nat) : Bool := s.bookedNow core key kTbank &&& sets != 0

/-! ### AWAY (R214, R407) -/

/-- Every drover of a flock that has not exited is HALTED. -/
def State.flockHalted (s : State) (f : Nat) : Bool :=
  (s.flockKeys f).all (fun k => (s.drover k).state == .halted || (s.drover k).state == .exited) && !(s.flockKeys f).isEmpty

/-- Whether a tile gives way: AWAY already, or EMPTY or READY in a halted flock. -/
def State.yields (s : State) (t : Tile) : Bool :=
  t.st == .away || (s.flockHalted t.flock && (t.st == .empty || t.st == .ready))

/-- A tile's content moves to its save area. -/
def Core.sendAway (k : Core) (h : Nat) : Core :=
  match k.tile h with
  | none => k
  | some t =>
    if t.st == .away then k
    else
      let mine := k.tmem.filter (fun e => decide (t.base ≤ e.1) && decide (e.1 < t.base + t.size))
      (k.zeroRegion t.base t.size).setTile h { t with st := .away, prev := t.st, saved := mine.map (fun e => (e.1 - t.base, e.2)) }

/-- Tiles of other flocks that overlap a region and are not AWAY. -/
def Core.inTheWay (k : Core) (flock lo hi : Nat) : List (Nat × Tile) :=
  k.tiles.filter (fun e => e.2.flock != flock && e.2.st != .away && e.2.overlaps lo hi)

/-- Whether a region can be had for a flock, and the core with it cleared. -/
def State.canClear (s : State) (core flock lo hi : Nat) : Bool :=
  ((s.core core).inTheWay flock lo hi).all (fun e => s.yields e.2)
/-- Whether the tiles that give way for a region can be saved now: no other booking holds a bank set the save touches (R213, R328). -/
def State.saveFree (s : State) (core key flock lo hi : Nat) : Bool :=
  decide (s.bookedNow core key kTbank = 0) || ((s.core core).inTheWay flock lo hi).all (fun e => !s.banksHeld core key e.2.allSets)
def State.clearRegion (s : State) (core flock lo hi : Nat) : State :=
  s.setCore core (((s.core core).inTheWay flock lo hi).foldl (fun k e => k.sendAway e.1) (s.core core))

/-- Restore an AWAY tile that an instruction of the drover names; false while its region is in use, or a bank set that the restore or a
save before it touches is booked by another (R213, R328, R407). -/
def State.restoreTile (s : State) (core h : Nat) : State × Bool :=
  match (s.core core).tile h with
  | none => (s, false)
  | some t =>
    if t.st != .away then (s, true)
    else if s.canClear core t.flock t.base (t.base + t.size) && s.saveFree core s.sel t.flock t.base (t.base + t.size) &&
        !s.banksHeld core s.sel t.allSets then
      let s := s.clearRegion core t.flock t.base (t.base + t.size)
      let k := (s.core core).zeroRegion t.base t.size
      let k := { k with tmem := t.saved.foldl (fun (m : List (Nat × Byte)) (e : Nat × Byte) => Memory.set m (t.base + e.1) e.2) k.tmem }
      (s.setCore core (k.setTile h { t with st := t.prev, saved := [] }), true)
    else (s, false)

/-! ### Checks of R215 -/

/-- Checks 1 and 2, and with `err` check 3. -/
def State.tileNamed (s : State) (h : Nat) (err : Bool) : Option Tile :=
  if h > 255 then none
  else match (s.core (coreOf s.sel)).tile h with
    | none => none
    | some t =>
      if t.flock != s.cur.flock || (!t.sh && t.own != slotOf s.sel) || (err && t.err) then none else some t

/-- How checks 4 and 5 end: the tile can be used, the drover waits, or TILEST. -/
inductive Settled where
  | go (s : State) (t : Tile)
  | wait (s : State)
  | bad

/-- Checks 4 and 5: `fill` for CPYIN, CPYG, CPYMC. -/
def State.settle (s : State) (h : Nat) (fill : Bool) : Settled :=
  let core := coreOf s.sel
  let r := s.restoreTile core h
  match (r.1.core core).tile h with
  | none => .bad
  | some t =>
    match t.st with
    | .filling | .draining => .wait r.1
    | .away => .wait r.1
    | .ready => .go r.1 t
    | .empty => if fill then .go r.1 t else if t.pend.isSome then .wait r.1 else .bad

/-! ### TALLOC (R218) -/

/-- The region TALLOC may use on a core: the drover's share, or with TSH the flock's region (R30, R218). -/
def State.tileRegion (s : State) (key core : Nat) (f : Flock) : Nat × Nat :=
  if f.tsh then let b := assocGetD f.tmemBase 0 core; (b, b + f.tmemLen)
  else let d := s.drover key; (d.tileLo, d.tileLo + d.tileLen)

/-- Whether a base fits on a core: within the region, clear of the flock's tiles and of those that do not give way. -/
def State.tileFits (s : State) (core flock : Nat) (region : Nat × Nat) (base size : Nat) : Bool :=
  decide (region.1 ≤ base) && decide (base + size ≤ region.2) &&
  ((s.core core).tiles.all (fun e => e.2.flock != flock || !e.2.overlaps base (base + size))) && s.canClear core flock base (base + size)

/-- The operands of TALLOC within their limits: ROWS, RB, SH. -/
def tallocArgs (b c : Word) (tsh : Bool) : Option (Nat × Nat × Bool) :=
  let rows := b.toNat
  let rb := bitsOf c 0 17
  let sh := c.getLsbD 32
  if decide (1 ≤ rows) && decide (rows ≤ 4096) && rb % 64 == 0 && decide (64 ≤ rb) && decide (rb ≤ 65536) && decide (rows * rb ≤ 4194304) &&
    topZero c 33 && zeroBits c 17 15 && (!sh || tsh) then some (rows, rb, sh) else none

/-- The entry and the base a TALLOC takes: the lowest handle FREE and the lowest base free in every named core. -/
def State.tallocAt (s : State) (key : Nat) (f : Flock) (cores : List Nat) (size : Nat) : Option (Nat × Nat) :=
  match (List.range 256).find? (fun h => cores.all (fun c => ((s.core c).tile h).isNone)) with
  | none => none
  | some h =>
    match (List.range 1024).find? (fun i => cores.all (fun c => s.tileFits c (s.drover key).flock (s.tileRegion key c f) (4096 * i) size)) with
    | none => none
    | some i => some (h, 4096 * i)

/-- TALLOC and TALLOC.z. -/
def talloc (z : Bool) (a b c : Reg) (s : State) : Res :=
  let d := s.cur
  match s.flock d.flock with
  | none => s.trapIssue cRESCOMB
  | some f =>
    match tallocArgs (d.getG b) (d.getG c) f.tsh with
    | none => s.trapIssue cRESCOMB
    | some (rows, rb, sh) =>
      let cores := if sh then f.cores else [coreOf s.sel]
      let size := (rows * rb + 4095) / 4096 * 4096
      match s.tallocAt s.sel f cores size with
      | none => s.completeG a (-1)
      | some (h, base) =>
        if !cores.all (fun k => s.saveFree k s.sel d.flock base (base + size)) then s.notReady 3 else
        let t : Tile :=
          { st := if z then .ready else .empty, err := false, sh := sh, own := slotOf s.sel, flock := d.flock, rows := rows, rb := rb, base := base
            pend := none, range := RangeRec.clear, prev := .empty, saved := [] }
        let s := cores.foldl (fun s k =>
          let s := s.clearRegion k d.flock base (base + size)
          s.setCore k (((s.core k).zeroRegion base size).setTile h t)) s
        s.completeG a (wordOf h)

/-- TALLOC (R218). -/
def execTalloc (a b c : Reg) (s : State) : Res := talloc false a b c s
/-- TALLOC.Z (R218). -/
def execTallocZ (a b c : Reg) (s : State) : Res := talloc true a b c s

/-- Whether a TLD or TST of another drover of a core has issued on the tile and stopped part-way (R219, R229). -/
def State.tileInUse (s : State) (core h : Nat) : Bool :=
  (keysOf core).any (fun k => k != s.sel && (s.drover k).resident && (s.drover k).tileUse == some h)

/-- TFREE (R219): waits for the pending transfer and for instructions of other drovers under way on the tile, in every member core of a
shared tile. -/
def execTfree (b : Reg) (s : State) : Res :=
  let h := (s.cur.getG b).toNat
  match s.tileNamed h false with
  | none => s.trapIssue cTILEST
  | some t =>
    let cores := if t.sh then ((s.flock t.flock).map (·.cores)).getD [coreOf s.sel] else [coreOf s.sel]
    if cores.any (fun k => match (s.core k).tile h with
      | some x => x.pend.isSome || s.tileInUse k h
      | none => false) then s.notReady 3
    else
      let s := cores.foldl (fun s k => s.setCore k { (s.core k) with tiles := assocDel (s.core k).tiles h }) s
      s.complete s.cur

/-! ### TSTAT (R220, R225) -/

def TileSt.code : TileSt → Nat
  | .empty => 1 | .filling => 2 | .ready => 3 | .draining => 4 | .away => 5

/-- Word n of an entry. -/
def Tile.word (t : Tile) (n : Nat) : Nat :=
  let r := t.range
  let at_ := fun (l : List Nat) k => l.getD k 0
  match n with
  | 0 => t.err.toNat * pow2 63 + t.st.code * pow2 60 + t.sh.toNat * pow2 59 + t.own * pow2 56 + t.rows * pow2 43 + t.rb * pow2 26 + t.base / 4096
  | 1 => match t.pend with
    | some (_, ch, id) => pow2 63 + ch * pow2 48 + id % pow2 48
    | none => 0
  | 2 => r.rc2 * pow2 48 + r.rc1 * pow2 32 + at_ r.hi 0 * pow2 16 + at_ r.lo 0
  | 3 => at_ r.hi 2 * pow2 48 + at_ r.lo 2 * pow2 32 + at_ r.hi 1 * pow2 16 + at_ r.lo 1
  | _ => r.row0 * pow2 48 + r.nr * pow2 32 + at_ r.hi 3 * pow2 16 + at_ r.lo 3

/-- TSTAT, word form (R220). -/
def execTstat (a b c : Reg) (s : State) : Res :=
  let d := s.cur
  let h := (d.getG b).toNat
  let n := (d.getG c).toNat
  if n > 4 then s.trapIssue cRESCOMB
  else if h > 255 then s.trapIssue cTILEST
  else match (s.core (coreOf s.sel)).tile h with
    | none => s.completeG a 0
    | some t => s.completeG a (wordOf (t.word n))

/-- Whether row r of the recorded copy was in range (R225). -/
def RangeRec.rowIn (g : RangeRec) (r : Nat) : Bool :=
  if r < g.row0 || r ≥ g.row0 + g.nr then false
  else
    let j := r - g.row0
    let within := fun k x => decide (g.lo.getD k 0 ≤ x) && decide (x < g.hi.getD k 0)
    within 1 (j % g.rc1) && within 2 (j / g.rc1 % g.rc2) && within 3 (j / (g.rc1 * g.rc2))

/-- Bits 0 to VL − 1 of a predicate written by an instruction that needs no vector state. -/
def Drover.writeMask (d : Drover) (p : Reg) (bit : Nat → Bool) : Drover :=
  let els := List.range d.vec.vl
  let v := d.vec.setPbits p.toNat (els.map (fun i => (i, (bit i).toNat)))
  (({ d with vec := v.mark [] d.vw }).setPpix p.toNat ⟨true, d.vec.vl⟩).eccWritten eccPred p.toNat 1 els

/-- TSTAT, mask form (R225). -/
def execTstatMask (a b c : Reg) (s : State) : Res :=
  let d := s.cur
  let h := (d.getG b).toNat
  let r := (d.getG c).toNat
  if !writesPred a then s.trapIssue cILLOP
  else if h > 255 then s.trapIssue cTILEST
  else match (s.core (coreOf s.sel)).tile h with
    | none => s.complete (d.writeMask a (fun _ => false))
    | some t =>
      if r ≥ t.rows then s.trapIssue cRESCOMB
      else
        let row := t.range.rowIn r
        s.complete (d.writeMask a (fun i => row && decide (t.range.lo.getD 0 0 ≤ i) && decide (i < t.range.hi.getD 0 0)))

/-! ### TLD and TST (R221) -/

/-- Tile coordinates of element i of row k. -/
def tileCell (col : Bool) (c k i : Nat) : Nat × Nat := if col then (i, c + k) else (c + k, i)

/-- One row of a TLD: elements of tile cells into row `base`. -/
def tldRow (col : Bool) (d : Drover) (core : Core) (t : Tile) (c k base : Nat) (m : Bool) (l : MemLoop) : MemLoop :=
  let ctx : MemCtx :=
    { d := d, base := base, n := 1, w := d.vw, m := m, zero := vtyMp d.vec.vty, eccBit := d.govError m
      ecc := fun i => (let x := tileCell col c k i; core.tileErr t x.1 x.2 d.vw)
      one := fun l i => let x := tileCell col c k i; l.put d base 1 (i, core.tileGet t x.1 x.2 d.vw) }
  let els := List.range d.vec.vl
  match d.stream base with
  | none => l.run ctx els
  | some _ =>
    -- a bound row is pushed whole: it starts again as a whole row (R221)
    match l.s.probePushes d ((els.filter (fun i => ctx.act i || ctx.zero)).map (fun i =>
        let x := tileCell col c k i; (base, i, if ctx.act i then core.tileGet t x.1 x.2 d.vw else 0))) with
    | (s, some (i, .fault f)) => { l with s := s, stop := some (i, .fault f) }
    | (s, some (i, .wait)) => { l with s := s, stop := some (i, .wait) }
    | (s, none) => MemLoop.orBack { l with s := s } (MemLoop.run ctx { l with s := s } els)

/-- Rows of a TLD in ascending k, up to one that stops. -/
def tldRows (col : Bool) (d : Drover) (core : Core) (t : Tile) (c : Nat) (m : Bool) (s : State) (ks : List Nat) :
    State × Option (Nat × Nat × Halt) :=
  match ks with
  | [] => (s, none)
  | k :: rest =>
    let row := d.vec.vwb + k
    let l := tldRow col d core t c k row m { s := s, out := [], last := 0, flags := s.cur.flags, stop := none }
    match l.stop with
    | none =>
      tldRows col d core t c m (l.s.setCur (l.s.cur.commitMem row 1 [row] [row] l true d.vec.vl m)) rest
    | some (i, h) => (l.s.setCur (l.s.cur.commitMem row 1 [row] [] l false i m), some (k, i, h))

/-- One row of a TST: values of row `base`, popped where it is bound, into tile cells. -/
def tstRow (col : Bool) (d : Drover) (t : Tile) (c k base : Nat) (m : Bool) (s : State) : Reads :=
  let mp := vtyMp d.vec.vty
  let els := (List.range d.vec.vl).filter (fun i => d.govError m i || d.act m i)
  let r := readElems (fun s i =>
    if d.govError m i || (!d.ecc.isEmpty && d.eccAt eccRow base d.vw i) then .fail s eccFault
    else s.readEl d base 1 d.vw i) els ⟨s, [], none⟩
  let r := r.keepAnswers s
  let upto := (r.stop.map (·.1)).getD d.vec.vl
  let cells := (List.range upto).filterMap (fun i =>
    if d.act m i then some (i, assocGetD r.vals 0 i) else if mp then some (i, 0) else none)
  let core := coreOf s.sel
  let k0 := cells.foldl (fun (q : Core) (e : Nat × Nat) => let x := tileCell col c k e.1; q.tilePut t x.1 x.2 d.vw e.2) (r.s.core core)
  let bytes := if k0.terr.isEmpty then [] else cells.flatMap (fun e =>
    let x := tileCell col c k e.1
    if d.vw = 4 then [] else (List.range (d.vw / 8)).map (· + t.byteAt x.1 x.2 d.vw))
  { r with s := r.s.setCore core (k0.healWords bytes) }

/-- Rows of a TST in ascending k, up to one that stops. -/
def tstRows (col : Bool) (d : Drover) (t : Tile) (c : Nat) (base : Nat) (m : Bool) (s : State) (ks : List Nat) :
    State × Option (Nat × Nat × Halt) :=
  match ks with
  | [] => (s, none)
  | k :: rest =>
    let r := tstRow col d t c k (base + k) m s
    match r.stop with
    | none => tstRows col d t c base m (r.s.setCur (r.s.cur.advanceStreams [base + k])) rest
    | some (i, x) => (r.s, some (k, i, x.halt))

/-- The first row of a TLD or TST that is not complete when it resumes: of a load the first row whose DONE is 0, of a
store the row of the element FEL names, counted over rows of VL elements (R45, R221). -/
def Drover.rowStart (d : Drover) (ld : Bool) (base tl : Nat) : Nat :=
  if d.restart ≠ 0 then d.restart - 1
  else if !d.resumesPart then 0
  else if ld then ((List.range tl).find? (fun k => !(d.vec.pixOf (base + k)).done)).getD tl
  else (d.tr.fel.extractLsb' 0 48).toNat / Nat.max d.vec.vl 1

/-- TLD and TST (R215, R221). They touch the bank sets of the elements still to be moved: of a load the active ones, of a store those it
writes (R213). Rows of 4-bit elements are moved like those of every other format 0x01 to 0x10. -/
def tileMove (ld col : Bool) (a b c : Reg) (m : Bool) (s : State) : Res :=
  s.held (fun s =>
    let d := s.cur
    let h := (d.getG b).toNat
    let ci := (d.getG c).toNat
    let tl := d.vec.tl
    let vl := d.vec.vl
    let base := d.phys a
    let rows := group base tl
    if d.unready then s.trapIssue cVNCFG
    else if !d.vfmt.legal || d.streamBad (if ld then [] else rows) (if ld then rows else []) then s.trapIssue cRESCOMB
    else if d.outside rows then s.trapIssue cWINOV
    else match s.tileNamed h true with
      | none => s.trapIssue cTILEST
      | some t =>
        if (if col then decide (vl > t.rows) || decide ((ci + tl) * d.vw > 8 * t.rb) else decide (ci + tl > t.rows) || decide (vl * d.vw > 8 * t.rb)) then
          s.trapIssue cRESCOMB
        else match s.settle h false with
          | .bad => s.trapIssue cTILEST
          | .wait s => s.notReady 3
          | .go s t =>
            let core := coreOf s.sel
            let k0 := d.rowStart ld base tl
            let ks := (List.range tl).filter (fun k => decide (k0 ≤ k))
            if decide (s.bookedNow core s.sel kTbank ≠ 0) && s.banksHeld core s.sel (cellSets (ks.flatMap (fun k =>
                (List.range vl).filterMap (fun i =>
                  if d.act m i || (!ld && vtyMp d.vec.vty) then some (tileCell col ci k i) else none))) d.vw) then s.notReady 3
            else
              let fresh := fun (v : Vec) => ks.foldl (fun (v : Vec) k => v.setPix (base + k) ⟨false, 0⟩) v
              let s := if ld then s.setCur { d with vec := fresh d.vec } else s
              let r := if ld then tldRows col { d with vec := { d.vec with vwb := base } } (s.core core) t ci m s ks
                else tstRows col d t ci base m s ks
              match r.2 with
              | none => r.1.complete r.1.cur
              | some (k, _, .wait) => r.1.finish ({ r.1.cur with restart := k + 1, tileUse := some h }.stalled 4)
              | some (k, i, x) => r.1.haltForm { r.1.cur with tileUse := some h } (if ld then i else k * vl + i) x)

/-- TLD.R (R221). -/
def execTldR (a b c : Reg) (m : Bool) (s : State) : Res := tileMove true false a b c m s
/-- TLD.C (R221). -/
def execTldC (a b c : Reg) (m : Bool) (s : State) : Res := tileMove true true a b c m s
/-- TST.R (R221). -/
def execTstR (a b c : Reg) (m : Bool) (s : State) : Res := tileMove false false a b c m s
/-- TST.C (R221). -/
def execTstC (a b c : Reg) (m : Bool) (s : State) : Res := tileMove false true a b c m s

end Sys2Proof.Machine
end

