-- ==== Sys2Proof/Machine/Copy.lean ====
section
/-! DEFINITION. Copies between memory and tiles (R222 to R229), the end of a transfer, and streams (R230 to R232). -/
namespace Sys2Proof.Machine

/-! ### Watermarks (R226, R227) -/

/-- WM moves over the completed ids that follow it. -/
def climb (done : List (Nat × Nat)) (ch wm fuel : Nat) : Nat :=
  match fuel with
  | 0 => wm
  | k + 1 => if done.contains (ch, wm + 1) then climb done ch (wm + 1) k else wm

/-- A transfer of a channel has completed. -/
def Drover.transferDone (d : Drover) (ch id : Nat) : Drover :=
  let done := (ch, id) :: d.doneIds
  let wm := climb done ch (d.cwm.toList.getD ch 0) done.length
  { d with cwm := vset d.cwm ch wm, doneIds := done.filter (fun e => !(e.1 == ch && decide (e.2 ≤ wm))) }

/-- A transfer of the drover has completed: the CPY event, at every completion (R227), those that move no watermark too, where R148 has
it at a change of CWM (DEDUCED, log 73). A CWAIT that the watermark satisfies ends. -/
def State.countTransfer (s : State) (key ch id : Nat) : State :=
  let d := s.drover key
  let d' := d.transferDone ch id
  let s := s.setDrover key d'
  let wm := d'.cwm.toList.getD ch 0
  let s := s.latch key evCpy
  let d := s.drover key
  match d.state, d.wait with
  | .awaiting, some (.copy c n) => if c = ch && decide (n ≤ wm) then s.wake key else s
  | _, _ => s

/-- Incomplete transfers of a channel. -/
def Drover.incomplete (d : Drover) (ch : Nat) : Nat :=
  d.cnx.toList.getD ch 1 - 1 - d.cwm.toList.getD ch 0 - (d.doneIds.filter (fun e => e.1 == ch)).length

/-! ### Issue (R223, R228, R229) -/

/-- The pattern rows a copy moves. -/
def Desc.nrows (p : Desc) (tl : Nat) : Nat := Nat.min tl p.rowsN

/-- The RESCOMB conditions of R223 and R228. -/
def copyBad (g : Word) (p : Desc) (tl : Nat) (t : Tile) : Bool :=
  !(zeroBits g 10 6 && topZero g 28) || decide (bitsOf g 16 12 + p.nrows tl > t.rows) || decide (p.count 0 * p.esz > t.rb)

/-- Tiles of the member cores that a CPYMC cannot yet enter: an earlier transfer pends, the tile is AWAY, or an instruction that names it
is under way (R229). -/
def State.membersBusy (s : State) (cores : List Nat) (h : Nat) : Bool :=
  cores.any (fun k => s.tileInUse k h || match (s.core k).tile h with
    | some t => t.pend.isSome || t.st == .away
    | none => false)

/-- A COPY record (R424): event 0 accepted, 1 complete, 2 aborted. -/
def State.copyTrace (s : State) (t : Transfer) (ev : Nat) : State :=
  s.emit t.flock t.ctx clsCopy 0x10 0 (coreOf t.drv) srcCopy (slotOf t.drv)
    (leBytes 1 ev ++ leBytes 1 t.ch ++ leBytes 1 t.tile ++ leBytes 6 t.id ++ leBytes 4 t.flock)

/-- The transfer of an accepted copy: its tiles change state, its id is taken. -/
def State.accept (s : State) (kind : CopyKind) (a : Reg) (g : Word) (p : Desc) (cores : List Nat) : Res :=
  let key := s.sel
  let d := s.cur
  let ch := bitsOf g 8 2
  let h := bitsOf g 0 8
  let id := d.cnx.toList.getD ch 1
  let st : TileSt := if kind == .cpyout then .draining else .filling
  let s := cores.foldl (fun s k =>
    match (s.core k).tile h with
    | some t => s.setCore k ((s.core k).setTile h { t with st := st, pend := some (key, ch, id) })
    | none => s) s
  let t : Transfer :=
    { drv := key, ch := ch, id := id, kind := kind, tile := h, row0 := bitsOf g 16 12, nrows := p.nrows d.vec.tl, desc := p, ctx := d.ctx
      sup := d.tr.sup, flock := d.flock, left := cores, pos := 0, tag := none }
  let c := s.core (coreOf key)
  let s := (s.setCore (coreOf key) { c with transfers := c.transfers ++ [t] }).copyTrace t 0
  s.complete ({ s.cur with cnx := vset d.cnx ch (id + 1) }.setG a (wordOf (id + ch * pow2 48)))

/-- CPYIN, CPYG, CPYMC, CPYOUT. -/
def copyIssue (kind : CopyKind) (a b c : Reg) (s : State) : Res :=
  let d := s.cur
  let g := d.getG c
  let h := bitsOf g 0 8
  let tileWaits := fun (_ : Unit) => match s.settle h (kind != .cpyout) with
    | .wait _ => true
    | _ => false
  if d.incomplete (bitsOf g 8 2) ≥ 32 then s.notReady (if tileWaits () then 3 else 8)
  else match s.tileNamed h true with
    | none => s.trapIssue cTILEST
    | some t =>
      if kind == .cpymc && !t.sh then s.trapIssue cTILEST
      else match s.settle h (kind != .cpyout) with
        | .bad => s.trapIssue cTILEST
        | .wait s => s.notReady 3
        | .go s t =>
          let own := coreOf s.sel
          let all := if kind == .cpymc then ((s.flock d.flock).map (·.cores)).getD [own] else [own]
          let s := all.foldl (fun s k => (s.restoreTile k h).1) s
          if kind == .cpymc && s.membersBusy all h then s.notReady 3
          else
            let va := d.getG b
            (s.loadBlock (s.agentOf s.sel) va 64).scalar (fun s l =>
              match parseDesc l (kind == .cpyg) with
              | none => s.trapIssue cRESCOMB
              | some p => if copyBad g p s.cur.vec.tl t then s.trapIssue cRESCOMB else s.accept kind a g p all)

/-- CPYIN (R223). -/
def execCpyin (a b c : Reg) (s : State) : Res := copyIssue .cpyin a b c s
/-- CPYG (R228). -/
def execCpyg (a b c : Reg) (s : State) : Res := copyIssue .cpyg a b c s
/-- CPYMC (R229). -/
def execCpymc (a b c : Reg) (s : State) : Res := copyIssue .cpymc a b c s
/-- CPYOUT (R223). -/
def execCpyout (a b c : Reg) (s : State) : Res := copyIssue .cpyout a b c s

/-- CWAIT (R227). -/
def execCwait (b : Reg) (s : State) : Res :=
  let d := s.cur
  let g := d.getG b
  let ch := bitsOf g 48 2
  let id := bitsOf g 0 48
  if !topZero g 50 || decide (id ≥ d.cnx.toList.getD ch 1) then s.trapIssue cRESCOMB
  else if id ≤ d.cwm.toList.getD ch 0 then s.complete d
  else s.finish (d.await (.copy ch id))

/-! ### A transfer's work (R223, R224, R228) -/

/-- How an attempt at a transfer's work ends. -/
inductive Moved where
  | done (s : State)
  | fault (s : State) (f : FaultInfo)
  | wait (s : State)

/-- Where pattern element p of a transfer lies, none out of range; `idx` are the row indices of a CPYG. Its rows are out of range at a
negative index alone: I1 and X1, which R222 would apply to dimension 1, bound nothing there (DESIGN CHOICE, log 64). -/
def Transfer.place (t : Transfer) (idx : List Nat) (p : Nat) : Option Int :=
  let d := t.desc
  if t.kind == .cpyg then
    let j := p / d.count 0
    let x := toSigned 32 (idx.getD j 0)
    if x < 0 || !d.inDim p 0 then none else some ((d.base : Int) + (d.esz : Int) * (x + d.t p 0))
  else if d.inRange p then some (d.addr p) else none

/-- Tile coordinates of pattern element p. -/
def Transfer.cell (t : Transfer) (p : Nat) : Nat × Nat := (t.row0 + p / t.desc.count 0, p % t.desc.count 0)
def Transfer.count (t : Transfer) : Nat := t.nrows * t.desc.count 0
def Transfer.w (t : Transfer) : Nat := 8 * t.desc.esz

/-- Elements of a filling transfer as memory holds them, in pattern order. -/
def State.readTransfer (s : State) (ag : Agent) (t : Transfer) : Acc (List Nat) :=
  let elems := fun (s : State) (idx : List Nat) => readAll (fun s p =>
    match t.place idx p with
    | none => .ok s 0
    | some x => match wordOfAddr x false with
      | .error f => .fail s f
      | .ok va => s.loadNat ag va t.desc.esz) (List.range t.count) s
  if t.kind == .cpyg then
    match readAll (fun s j => match wordOfAddr ((t.desc.idxVa : Int) + 4 * (j : Int)) false with
      | .error f => .fail s f
      | .ok va => s.loadNat ag va 4) (List.range t.nrows) s with
    | .ok s idx => elems s idx
    | .fail s f => .fail s f
    | .wait s => .wait s
  else elems s []

/-- Write the elements into the tile of one core. -/
def Core.fill (k : Core) (t : Transfer) (vals : List Nat) : Core :=
  match k.tile t.tile with
  | none => k
  | some tile =>
    let k' := (vals.zipIdx).foldl (fun (k : Core) (e : Nat × Nat) => let x := t.cell e.2; k.tilePut tile x.1 x.2 t.w e.1) k
    if k'.terr.isEmpty then k'
    else k'.healWords ((List.range t.count).flatMap (fun p =>
      let x := t.cell p; (List.range t.desc.esz).map (· + tile.byteAt x.1 x.2 t.w)))

/-- The elements of a CPYOUT from a position on, in pattern order; where it stops, and why. -/
def State.drainFrom (s : State) (ag : Agent) (t : Transfer) (tile : Tile) (core : Nat) (cover : List Nat) (ps : List Nat) :
    State × Option (Nat × Stop) :=
  match ps with
  | [] => (s, none)
  | p :: rest =>
    match t.place [] p with
    | none => s.drainFrom ag t tile core cover rest
    | some x =>
      let c := t.cell p
      if (s.core core).tileErr tile c.1 c.2 t.w then (s, some (p, .fault eccFault))
      else match wordOfAddr x true with
        | .error f => (s, some (p, .fault f))
        | .ok va =>
          match s.storeCover ag va (leBytes t.desc.esz ((s.core core).tileGet tile c.1 c.2 t.w)) cover with
          | .ok s _ => s.drainFrom ag t tile core cover rest
          | .fail s f => (s, some (p, .fault f))
          | .wait s => (s, some (p, .wait))

/-- The 64-byte lines a CPYOUT covers whole, asked only where a line is in error (R410). -/
def State.transferCover (s : State) (t : Transfer) : List Nat :=
  if s.poison.isEmpty && s.bad.isEmpty then []
  else coveredLines ((List.range t.count).flatMap (fun p => match t.place [] p with
    | some x => (List.range t.desc.esz).map (fun (k : Nat) => (x + (k : Int)).toNat)
    | none => []))

/-- Replace a transfer of a core. -/
def State.setTransfer (s : State) (core : Nat) (t : Transfer) : State :=
  let c := s.core core
  s.setCore core { c with transfers := c.transfers.map (fun x => if x.drv == t.drv && x.ch == t.ch && x.id == t.id then t else x) }

/-- Attempt the whole of a transfer's work. -/
def State.moveTransfer (s : State) (core : Nat) (t : Transfer) : Moved :=
  let ag := s.engineOf t.drv t.ch t.id t.sup
  if t.kind == .cpyout then
    match (s.core core).tile t.tile with
    | none => .done s
    | some tile =>
      match s.drainFrom ag t tile core (s.transferCover t) ((List.range t.count).filter (fun p => decide (t.pos ≤ p))) with
      | (s, none) =>
        let s := s.setTransfer core { t with pos := t.count }
        if s.releasePending t.drv then .wait s else .done s
      | (s, some (p, .fault f)) => .fault (s.setTransfer core { t with pos := p }) f
      | (s, some (p, .wait)) => .wait (s.setTransfer core { t with pos := p })
  else match s.readTransfer ag t with
    | .ok s vals => .done (t.left.foldl (fun s k => s.setCore k ((s.core k).fill t vals)) s)
    | .fail s f => .fault s f
    | .wait s => .wait s

/-- The range record a filling transfer leaves (R224, R228). -/
def Transfer.record (t : Transfer) : RangeRec :=
  let d := t.desc
  let bounds := fun (k : Nat) =>
    let lo := Int.toNat (max 0 (-(d.i.getD k 0)))
    let hi := Int.toNat (min (d.count k : Int) ((d.x.getD k 1 : Int) - d.i.getD k 0))
    if lo < hi then (lo, hi) else (0, 0)
  let bs := (List.range 4).map (fun k => if k = 1 && t.kind == .cpyg then (0, d.count 1) else bounds k)
  { lo := bs.map (·.1), hi := bs.map (·.2), row0 := t.row0, nr := t.nrows, rc1 := d.count 1, rc2 := d.count 2 }

/-- A transfer ends: its tiles, its watermark (R214, R224, R226). -/
def State.endTransfer (s : State) (core : Nat) (t : Transfer) (ok : Bool) : State :=
  let s := t.left.foldl (fun s k =>
    match (s.core k).tile t.tile with
    | some x =>
      if x.pend == some (t.drv, t.ch, t.id) then
        let y := { x with pend := none }
        s.setCore k ((s.core k).setTile t.tile (
          if t.kind == .cpyout then { y with st := .ready, err := y.err || !ok }
          else if ok then { y with st := .ready, range := t.record }
          else { y with st := .empty, err := true }))
      else s
    | none => s) s
  let c := s.core core
  let s := s.setCore core { c with transfers := c.transfers.filter (fun x => !(x.drv == t.drv && x.ch == t.ch && x.id == t.id)) }
  let s := s.dropRequesters (fun q => q == .transfer t.drv t.ch t.id)
  (s.copyTrace t (if ok then 1 else 2)).countTransfer t.drv t.ch t.id

/-- An access of a transfer has failed (R224): it posts a record and awaits the verdict, or the transfer aborts at once. -/
def State.failTransfer (s : State) (core : Nat) (t : Transfer) (f : FaultInfo) : State :=
  let tcb := ((s.flock t.flock).bind (fun x => s.task x.task)).map (·.tcbVa)
  let r := engineRecord f (coreOf t.drv) (slotOf t.drv) t.flock (tcb.getD 0) (wordOf (t.id + t.ch * pow2 48)) f.suspends
  if f.suspends then
    let t' := ((s.core core).transfers.find? (fun x => x.drv == t.drv && x.ch == t.ch && x.id == t.id)).getD t
    (s.setTransfer core { t' with tag := some 0 }).post (dieOfCore core) t.ctx r (some (.transfer t.drv t.ch t.id))
  else
    let s := if f.records then s.post (dieOfCore core) t.ctx r none else s
    s.endTransfer core t false

/-- Bank sets a transfer touches from here on: of a filling one those of all its elements, of a CPYOUT those of the elements in range
that it has not yet written (R213, R328). -/
def Transfer.sets (t : Transfer) : Nat :=
  if t.kind == .cpyout then
    cellSets ((List.range t.count).filterMap (fun p => if t.pos ≤ p && (t.place [] p).isSome then some (t.cell p) else none)) t.w
  else bankSets (group t.row0 t.nrows) 0 (t.desc.count 0 * t.desc.esz)

def State.transferOf (s : State) (key ch id : Nat) : Option Transfer :=
  (s.core (coreOf key)).transfers.find? (fun t => t.drv == key && t.ch == ch && t.id == id)

/-- A transfer that can work now: it awaits no verdict, and no bank set it touches is booked by another. -/
def State.transferFree (s : State) (t : Transfer) : Bool :=
  t.tag.isNone && !t.left.any (fun k => decide (s.bookedNow k t.drv kTbank ≠ 0) && s.banksHeld k t.drv t.sets)

/-- COPY_TRANSFER_COMPLETE (R224): the transfer's accesses are performed and it completes; or an access of it fails. -/
def execCopyTransferComplete (key ch id : Nat) (s : State) : Res :=
  match s.transferOf key ch id with
  | none => .next s
  | some t =>
    if !s.transferFree t then .next s
    else match s.moveTransfer (coreOf key) t with
      | .done s => .next (s.endTransfer (coreOf key) t true)
      | .fault s f => .next (s.failTransfer (coreOf key) t f)
      | .wait s => .next s

/-- The transfer's part of ENGINE_ACCESS_FAULT: nothing happens unless an access of it fails. -/
def State.transferFault (s : State) (key ch id : Nat) : State :=
  match s.transferOf key ch id with
  | none => s
  | some t =>
    if !s.transferFree t then s
    else match s.moveTransfer (coreOf key) t with
      | .fault s f => s.failTransfer (coreOf key) t f
      | _ => s

/-! ### Streams (R230 to R232) -/

/-- SBIND (R230). With 4-bit elements it traps RESCOMB, as R200 has it of the chapter's instructions that use VTY (log 70). -/
def execSbind (a b c : Reg) (s : State) : Res :=
  s.held (fun s =>
    let d := s.cur
    let row := d.phys a
    let dir := d.getG c
    if d.unready then s.trapIssue cVNCFG
    else if d.vw = 4 || !topZero dir 1 || (d.stream row).isSome then s.trapIssue cRESCOMB
    else if d.outside [row] then s.trapIssue cWINOV
    else
      let booked := popcount 4 (s.bookedAhead (coreOf s.sel) s.sel kStrm) + s.unitsUsed none (coreOf s.sel) 1
      if d.streams.length ≥ 4 || s.streamsOn (coreOf s.sel) + booked ≥ 4 then s.notReady 8
      else (s.loadBlock (s.agentOf s.sel) (d.getG b) 64).scalar (fun s l =>
        match parseDesc l false with
        | none => s.trapIssue cRESCOMB
        | some p =>
          let d := s.cur
          s.complete { d with streams := d.streams ++ [⟨row, p, dir.getLsbD 0, 0, none⟩] }))

/-- SUNBIND (R232): the row reads as zero and counts as never written. -/
def execSunbind (a : Reg) (s : State) : Res :=
  s.held (fun s =>
    let d := s.cur
    let row := d.phys a
    if d.unready then s.trapIssue cVNCFG
    else if d.vw = 4 || (d.stream row).isNone then s.trapIssue cRESCOMB
    else if d.outside [row] then s.trapIssue cWINOV
    else if s.releasePending s.sel then s.notReady 4
    else s.complete (d.unbind row))

/-- The status word of a stream. -/
def Stream.word (t : Stream) : Word :=
  let n := t.desc.total
  wordOf ((if t.pos ≥ n then pow2 63 else 0) + (if t.write then pow2 62 else 0) + (n - t.pos) % pow2 48)

/-- Bit i of the valid mask of a stream (R231). -/
def Stream.valid (t : Stream) (cycle i : Nat) : Bool :=
  match t.lastP with
  | some p => decide (p + i < t.desc.total)
  | none => Config.unmovedMask cycle i

/-- SSTAT, word form (R230). -/
def execSstat (a b : Reg) (s : State) : Res :=
  s.held (fun s =>
    match s.cur.stream (s.cur.phys b) with
    | none => s.trapIssue cRESCOMB
    | some t => s.completeG a t.word)

/-- SSTAT, mask form (R230, R231): position P_last + i lay within the pattern; free bits where nothing has been popped or pushed. -/
def execSstatMask (a b : Reg) (s : State) : Res :=
  s.held (fun s =>
    if !writesPred a then s.trapIssue cILLOP
    else match s.cur.stream (s.cur.phys b) with
      | none => s.trapIssue cRESCOMB
      | some t => s.complete (s.cur.writeMask a (t.valid s.cycle)))

end Sys2Proof.Machine
end

