-- ==== Sys2Proof/Machine/Matrix.lean ====
section
/-! DEFINITION. The matrix units' instructions (R265 to R279) and the small-matrix instructions (R280 to R288). -/
namespace Sys2Proof.Machine

/-! ### Shapes and accumulators -/

/-- The accumulator format and κ of an input format (R265). -/
def matrixIn (f : Fmt) : Option (AccFmt × Nat) :=
  match f with
  | .f64 => some (.f64, 1)
  | .f32 => some (.f32, 1)
  | .f16 | .bf16 => some (.f32, 2)
  | .h8 | .g8 => some (.f32, 4)
  | .i4x => some (.f32, 8)
  | .i8 | .n8 => some (.i32, 4)
  | .i4 => some (.i32, 8)
  | _ => none

/-- Bytes of an operand element or accumulator element (R265). -/
def Vec.es (v : Vec) : Nat := if v.af = .f64 then 8 else 4
def Vec.aw (v : Vec) : Nat := 8 * v.es

/-- Element (m, n) of accumulator k. -/
def Vec.accElem (v : Vec) (k m n : Nat) : Nat := rowElem (v.acc k) v.aw (m * v.an + n)
def Vec.setAccs (v : Vec) (k : Nat) (l : List (Nat × Nat × Nat)) : Vec :=
  v.setAcc k (l.foldl (fun r e => setRowElem r v.aw (e.1 * v.an + e.2.1) e.2.2) (v.acc k))

/-- Rows written with elements of width w enter HWM (R46). -/
def Vec.markAny (v : Vec) (rows : List Nat) (w : Nat) : Vec :=
  { v with hwmRows := rows.foldl (fun a r => Nat.max a (r + 1)) v.hwmRows, hwmLanes := Nat.max v.hwmLanes ((v.vl * w + 127) / 128) }

/-- Positions (m, n) of the TL × VL region, in ascending order. -/
def Vec.region (v : Vec) : List (Nat × Nat) := (List.range v.tl).flatMap (fun m => (List.range v.vl).map (fun n => (m, n)))

/-- All four matrix units are booked by others in this quantum (R328). -/
def State.unitsHeld (s : State) : Bool := decide (popcount 4 (s.bookedNow (coreOf s.sel) s.sel kMtx) ≥ 4)

/-- The order of R269: VNCFG, RESCOMB, WINOV, then the instruction, on a free matrix unit. -/
def matrixIssue (bad : Drover → Bool) (accs : Drover → Option Nat) (rows : Drover → List Nat) (k : State → Res) (s : State) : Res :=
  s.held (fun s =>
    let d := s.cur
    if d.unready then s.trapIssue cVNCFG
    else if bad d then s.trapIssue cRESCOMB
    else if (accs d).any (fun n => decide (n ≥ d.accAlloc)) || d.outside (rows d) then s.trapIssue cWINOV
    else if s.unitsHeld then s.notReady 7
    else k s)

/-- TSHAPE (R268). -/
def execTshape (a b c : Reg) (s : State) : Res :=
  matrixIssue (fun d => (matrixIn d.vfmt).isNone || d.getG b == 0 || d.getG c == 0) (fun _ => none) (fun _ => []) (fun s =>
    let d := s.cur
    let lim := if d.vfmt = .f64 then 32 else 64
    let m := Nat.min (d.getG b).toNat lim
    let n := Nat.min (d.getG c).toNat lim
    let k := Nat.min (d.getG a).toNat 64
    let f := ((matrixIn d.vfmt).map (·.1)).getD .none
    let v := if m = d.vec.am && n = d.vec.an && f = d.vec.af then d.vec
      else { d.vec with am := m, an := n, af := f, accs := Vector.replicate 4 0 }
    s.complete ({ d with vec := { v with tl := m, vl := n, kl := k } }.setG a (wordOf (m + n * 65536 + k * pow2 32)))) s

/-- MZERO (R270). -/
def execMzero (a : Reg) (s : State) : Res :=
  matrixIssue (fun d => d.vec.af == .none) (fun _ => some a.toNat) (fun _ => []) (fun s =>
    let d := s.cur
    let v := d.vec
    let els := List.range (v.am * v.an)
    let v := (v.setAcc a.toNat (els.foldl (fun r i => setRowElem r v.aw i 0) (v.acc a.toNat))).markAcc a.toNat
    s.complete (({ d with vec := v }).eccWritten eccAcc a.toNat v.aw els)) s

/-! ### MXOA and MXOS (R271, R272) -/

/-- The inputs of one operand element: operands (their DN apart), integers, and the flags of decoding and reading. -/
structure MatIn where
  ops : List Operand
  ints : List Int
  fl : FlagSet

/-- Decode an operand element of an input format for an accumulator format (R66, R83, R271), scaled by an entry. -/
def matrixInputs (f acc : Fmt) (kappa : Nat) (scale : Option Nat) (el : Nat) : MatIn :=
  let xs := (List.range kappa).map (fun t => el / pow2 (t * f.width) % pow2 f.width)
  let sc := fun (o : Operand) => match scale with
    | some e => o.scale acc e
    | none => o
  if f.isInt then { ops := [], ints := xs.map (fun x => f.intOf x), fl := flNone }
  else if f == .i4x then
    let slots := (List.range kappa).map (fun t =>
      let g := t / 4 * 4
      decodeSlot (xs.getD g 0) (xs.getD (g + 1) 0) (xs.getD (g + 2) 0) (xs.getD (g + 3) 0) (t % 4))
    { ops := slots.map (fun x => sc (x.operand acc)), ints := [], fl := if slots.any (·.fe) then flFE else flNone }
  else
    let os := xs.map (fun x => floatOperand f acc x)
    { ops := os.map (fun o => sc { o with sub := false }), ints := [], fl := if os.any (·.sub) then flDN else flNone }

def AccFmt.fmt (a : AccFmt) : Fmt :=
  match a with
  | .f32 => .f32 | .f64 => .f64 | .i32 => .i32 | .none => .ill

/-- One sum of R83 under R84: the accumulator element, and the products negated when `neg`. -/
def matrixSum (acc : Fmt) (rm : Nat) (neg : Bool) (old : Nat) (x y : MatIn) : Nat × FlagSet :=
  if acc.isInt then
    let p := (x.ints.zip y.ints).foldl (fun (a : Int) (q : Int × Int) => a + q.1 * q.2) 0
    (wrapTo 32 ((old : Int) + (if neg then -p else p)), flNone)
  else
    let o := floatOperand acc acc old
    let ps := x.ops.zip y.ops
    sumOfProducts acc rm [o] (ps.map (fun q => (if neg then q.1.negate else q.1, q.2))) (o :: ps.flatMap (fun q => [q.1, q.2]))

/-- Flags of a whole instruction at ascending indices, up to the first that an enabled flag stops. -/
def raiseAll (enabled : FlagSet → Bool) (a : FlagAcc) (l : List (Nat × FlagSet)) : FlagAcc × Option Nat :=
  match l with
  | [] => (a, none)
  | (i, f) :: rest =>
    let a := a.raise i f
    if enabled f then (a, some i) else raiseAll enabled a rest

/-- A whole instruction that meets an enabled flag: nothing but FEF and FEI is written, and it starts again (R267). -/
def State.wholeTrap (s : State) (a : FlagAcc) (i : Nat) : Res :=
  .next ((s.setCur (s.cur.setFlags a)).raise s.sel (FaultInfo.plain cFPTRAP) (some i) true)

/-- Elements of rows read as a whole, or where it stops. -/
def State.readRow (s : State) (d : Drover) (base w n : Nat) : Acc (List Nat) := readAll (fun s i => s.readEl d base 1 w i) (List.range n) s

/-- The lowest index at which a whole instruction reads a register word in error (R413). -/
def Drover.eccMatrix (d : Drover) (l : List (Nat × Nat × Nat × Nat × Nat)) : Option Nat :=
  if d.ecc.isEmpty then none
  else (l.filter (fun e => d.eccAt e.2.1 e.2.2.1 e.2.2.2.1 e.2.2.2.2)).foldl (fun a e => match a with
    | none => some e.1
    | some i => some (Nat.min i e.1)) none

/-- MXOA and MXOS (R271). -/
def outer (neg : Bool) (b c : Reg) (n : BitVec 2) (f : BitVec 5) (s : State) : Res :=
  let fmt := Fmt.ofCode f.toNat
  let k := n.toNat
  matrixIssue (fun d =>
      let v := d.vec.vty
      (match matrixIn fmt with
        | none => true
        | some (a, _) => a != d.vec.af) || d.vec.af == .none || decide (d.vec.tl > d.vec.am) || decide (d.vec.vl > d.vec.an) ||
      (vtyKa v && (fmt.isInt || vtyKs v == 63)) || d.rmBad || decide (vtyFwl v > 10) || d.streamBad [d.phys b, d.phys c] [])
    (fun _ => some k) (fun d => [d.phys b, d.phys c]) (fun s =>
    let d := s.cur
    let v := d.vec
    let vty := v.vty
    let acc := v.af.fmt
    let kappa := ((matrixIn fmt).map (·.2)).getD 1
    let ks := vtyKs vty
    let bl := vtyBl vty
    if v.tl = 0 || v.vl = 0 then s.complete d
    else match d.eccMatrix (v.region.flatMap (fun e =>
        let i := e.1 * v.vl + e.2
        [(i, eccRow, d.phys b, v.aw, e.1), (i, eccRow, d.phys c, v.aw, e.2), (i, eccAcc, k, v.aw, e.1 * v.an + e.2)] ++
          (if vtyKa vty then [(i, eccScale, ks, 8, e.1 / pow2 bl), (i, eccScale, ks + 1, 8, e.2 / pow2 bl)] else []))) with
      | some i => .next (s.raise s.sel eccFault (some i) false)
      | none =>
        match s.readRow d (d.phys b) v.aw v.tl with
        | .fail s f => .next (s.raise s.sel f (some 0) false)
        | .wait s => s.awaitReply
        | .ok s as_ => match s.readRow d (d.phys c) v.aw v.vl with
          | .fail s f => .next (s.raise s.sel f (some 0) false)
          | .wait s => s.awaitReply
          | .ok s bs =>
            let scale := fun r i => if vtyKa vty then some (v.kent r (i / pow2 bl)) else none
            let xs := (as_.zipIdx).map (fun e => matrixInputs fmt acc kappa (scale ks e.2) e.1)
            let ys := (bs.zipIdx).map (fun e => matrixInputs fmt acc kappa (scale (ks + 1) e.2) e.1)
            let none_ : MatIn := ⟨[], [], flNone⟩
            let sums := v.region.map (fun e =>
              let x := xs.getD e.1 none_
              let y := ys.getD e.2 none_
              let r := matrixSum acc (vtyRm vty) neg (v.accElem k e.1 e.2) x y
              -- the flags of reading an input belong to the lowest index that uses it
              (e.1, e.2, r.1, r.2 ||| (if e.2 = 0 then x.fl else 0) ||| (if e.1 = 0 then y.fl else 0)))
            let fl := raiseAll d.enabled d.flags (sums.map (fun q => (q.1 * v.vl + q.2.1, q.2.2.2)))
            match fl.2 with
            | some i => s.wholeTrap fl.1 i
            | none =>
              let d := s.cur
              let v := (d.vec.setAccs k (sums.map (fun q => (q.1, q.2.1, q.2.2.1)))).markAcc k
              let d := ({ d with vec := v }).setFlags fl.1
              s.complete ((d.advanceStreams [d.phys b, d.phys c]).eccWritten eccAcc k v.aw (v.region.map (fun (q : Nat × Nat) => q.1 * v.an + q.2)))) s

/-- MXOA (R271). -/
def execMxoa (b c : Reg) (n : BitVec 2) (f : BitVec 5) (s : State) : Res := outer false b c n f s
/-- MXOS (R271). -/
def execMxos (b c : Reg) (n : BitVec 2) (f : BitVec 5) (s : State) : Res := outer true b c n f s

/-! ### Operand loads and accumulator moves (R275 to R279) -/

/-- Write elements of width w into one row, or push them; the row is complete at `len` elements. -/
def MemLoop.putRow (d : Drover) (w row len : Nat) (vals : List Nat) (l : MemLoop) : MemLoop :=
  let r := (vals.zipIdx).foldl (fun (l : MemLoop) (e : Nat × Nat) => l.put d row 1 (e.2, e.1)) { l with out := [] }
  if r.stop.isSome then r
  else
    let x := r.s.cur
    let v := (((x.vec.setElems row 1 w r.out).setPix row ⟨true, len⟩).markAny [row] w)
    { r with s := r.s.setCur ((({ x with vec := v }).eccWritten eccRow row w (r.out.map (fun (e : Nat × Nat) => e.1))).advanceStreams [row]), out := [] }

/-- A whole instruction writes listed rows and completes. Every push into a bound row is checked first; where one fails or awaits its
answer no row is written, no stream moves, and the drover stands as `back` (R231, R276, R279). -/
def State.putRows (s : State) (back : Drover) (w len : Nat) (rows : List (Nat × List Nat)) : Res :=
  let d := s.cur
  match s.probePushes d (if d.streams.isEmpty then [] else rows.flatMap (fun e => (e.2.zipIdx).map (fun v => (e.1, v.2, v.1)))) with
  | (s, some (i, .fault f)) => .next ((s.setCur back).raise s.sel f (some i) false)
  | (s, some (_, .wait)) => (s.setCur back).awaitReply
  | (s, none) =>
    let l0 : MemLoop := { s := s, out := [], last := 0, flags := d.flags, stop := none }
    let l := l0.orBack (rows.foldl (fun l e => if l.stop.isSome then l else l.putRow d w e.1 len e.2) l0)
    match l.stop with
    | some (i, .fault f) => .next ((l.s.setCur back).raise l.s.sel f (some i) false)
    | some _ => (l.s.setCur back).awaitReply
    | none => l.s.complete l.s.cur

/-- Reads at listed addresses, every check before any read; where it fails, the position in the list. -/
def State.readList (s : State) (ag : Agent) (n : Nat) (vas : List Word) : Reads :=
  let at_ := fun i => vas.getD i 0
  let is_ := List.range vas.length
  let p := readElems (fun s i => (s.loadProbe ag (at_ i) n).map (fun _ => 0)) is_ ⟨s, [], none⟩
  if p.stop.isSome then p else (readElems (fun s i => s.loadNat ag (at_ i) n) is_ ⟨p.s, [], none⟩).keepAnswers p.s

/-- MLDOP's operands from g_c: stride, side; none where R275's bits are not in order. -/
def mldopArgs (g : Word) : Option (Int × Bool) :=
  if zeroBits g 49 14 && (g.getLsbD 63 == g.getLsbD 47) then some (toSigned 48 (bitsOf g 0 48), g.getLsbD 48) else none

/-- The rows an MLDOP of `nr` memory rows of length L writes: (row, elements). -/
def mldopRows (base : Nat) (side : Bool) (nr L : Nat) (vals : List Nat) : List (Nat × List Nat) :=
  if side then (List.range L).map (fun e => (base + e, (List.range nr).map (fun r => vals.getD (r * L + e) 0)))
  else (List.range nr).map (fun r => (base + r, (vals.drop (r * L)).take L))

/-- MLDOP and MLDOP.FF (R275, R276). -/
def mldop (ff : Bool) (a b c : Reg) (s : State) : Res :=
  let side := fun (d : Drover) => ((mldopArgs (d.getG c)).map (·.2)).getD false
  matrixIssue (fun d => d.vec.af == .none || (mldopArgs (d.getG c)).isNone ||
      (if side d then decide (d.vec.tl > d.vec.am) else decide (d.vec.vl > d.vec.an)) || d.streamBad [] (group (d.phys a) d.vec.kl))
    (fun _ => none) (fun d => group (d.phys a) d.vec.kl) (fun s =>
    let d := s.cur
    let v := d.vec
    let sd := side d
    let st := ((mldopArgs (d.getG c)).map (·.1)).getD 0
    let nr := if sd then v.tl else v.kl
    let L := if sd then v.kl else v.vl
    let es := v.es
    let vas := (List.range (nr * L)).map (fun i => wordSum (d.getG b) ((i / L : Nat) * st + (i % L * es : Nat)))
    if v.kl = 0 then s.complete d
    else
      let r := s.readList (s.agentOf s.sel) es vas
      let short := fun n (s : State) =>
        -- memory rows 0 to n − 1 only
        let x := s.cur
        let s := s.setCur { x with vec := if sd then { x.vec with tl := n } else { x.vec with kl := n } }
        let q := s.readList (s.agentOf s.sel) es (vas.take (n * L))
        match q.stop with
        | none => q.s.putRows x v.aw (if sd then n else L) (mldopRows (d.phys a) sd n L (q.vals.map (·.2)))
        | some (i, .fault f) => .next (q.s.raise q.s.sel f (some i) false)
        | some (_, .wait) => ({ q.s with drovers := assocPut q.s.drovers q.s.sel x }).awaitReply
      match r.stop with
      | none => r.s.putRows r.s.cur v.aw (if sd then nr else L) (mldopRows (d.phys a) sd nr L (r.vals.map (·.2)))
      | some (_, .wait) => r.s.awaitReply
      | some (i, .fault f) =>
        if ff && decide (i ≥ L) && f.cause != cWATCH then short (i / L) r.s
        else .next (r.s.raise s.sel f (some i) false)) s

/-- MLDOP (R275). -/
def execMldop (a b c : Reg) (s : State) : Res := mldop false a b c s
/-- MLDOP.FF (R276). -/
def execMldopFf (a b c : Reg) (s : State) : Res := mldop true a b c s

/-- The checks of MLDA, MSTA, MRD and MWR (R269). -/
def regionBad (d : Drover) : Bool := d.vec.af == .none || decide (d.vec.tl > d.vec.am) || decide (d.vec.vl > d.vec.an)

/-- Addresses of the region (R277). -/
def regionAddrs (d : Drover) (b c : Reg) : List Word :=
  d.vec.region.map (fun e => wordSum (d.getG b) ((e.1 : Int) * (d.getG c).toInt + ((e.2 * d.vec.es : Nat) : Int)))

/-- An accumulator written at listed elements. -/
def State.putAcc (s : State) (k : Nat) (l : List (Nat × Nat × Nat)) : Drover :=
  let d := s.cur
  if l.isEmpty then d
  else (({ d with vec := (d.vec.setAccs k l).markAcc k }).eccWritten eccAcc k d.vec.aw (l.map (fun (e : Nat × Nat × Nat) => e.1 * d.vec.an + e.2.1)))

/-- MLDA (R277). -/
def execMlda (a b c : Reg) (s : State) : Res :=
  matrixIssue regionBad (fun _ => some a.toNat) (fun _ => []) (fun s =>
    let d := s.cur
    let r := s.readList (s.agentOf s.sel) d.vec.es (regionAddrs d b c)
    match r.stop with
    | none => r.s.complete (r.s.putAcc a.toNat ((d.vec.region.zip (r.vals.map (·.2))).map (fun e => (e.1.1, e.1.2, e.2))))
    | some (i, .fault f) => .next (r.s.raise s.sel f (some i) false)
    | some (_, .wait) => r.s.awaitReply) s

/-- MSTA (R277). -/
def execMsta (a b c : Reg) (s : State) : Res :=
  matrixIssue regionBad (fun _ => some a.toNat) (fun _ => []) (fun s =>
    let d := s.cur
    let v := d.vec
    let ag := s.agentOf s.sel
    let l := (regionAddrs d b c).zip (v.region.map (fun e => leBytes v.es (v.accElem a.toNat e.1 e.2)))
    let cover := if s.poison.isEmpty && s.bad.isEmpty then []
      else coveredLines (l.flatMap (fun e => (List.range v.es).map (fun k => (fieldAddr e.1 1 k).toNat)))
    match d.eccMatrix (v.region.map (fun e => (e.1 * v.vl + e.2, eccAcc, a.toNat, v.aw, e.1 * v.an + e.2))) with
    | some i => .next (s.raise s.sel eccFault (some i) false)
    | none =>
      match storeFields s ag cover l with
      | (s, none) => s.complete s.cur
      | (s, some (i, .fault f)) => .next (s.raise s.sel f (some i) false)
      | (s, some (_, .wait)) => s.awaitReply) s

/-- MRD (R279). -/
def execMrd (a b : Reg) (s : State) : Res :=
  matrixIssue (fun d => regionBad d || d.streamBad [] (group (d.phys a) d.vec.tl)) (fun _ => some b.toNat)
    (fun d => group (d.phys a) d.vec.tl) (fun s =>
    let d := s.cur
    let v := d.vec
    if v.tl = 0 || v.vl = 0 then s.complete d
    else match d.eccMatrix (v.region.map (fun e => (e.1 * v.vl + e.2, eccAcc, b.toNat, v.aw, e.1 * v.an + e.2))) with
      | some i => .next (s.raise s.sel eccFault (some i) false)
      | none => s.putRows d v.aw v.vl ((List.range v.tl).map (fun m =>
          (d.phys a + m, (List.range v.vl).map (fun n => v.accElem b.toNat m n))))) s

/-- MWR (R279). -/
def execMwr (a b : Reg) (s : State) : Res :=
  matrixIssue (fun d => regionBad d || d.streamBad (group (d.phys b) d.vec.tl) []) (fun _ => some a.toNat)
    (fun d => group (d.phys b) d.vec.tl) (fun s =>
    let d := s.cur
    let v := d.vec
    if v.tl = 0 || v.vl = 0 then s.complete d
    else match d.eccMatrix (v.region.map (fun e => (e.1 * v.vl + e.2, eccRow, d.phys b + e.1, v.aw, e.2))) with
    | some i => .next (s.raise s.sel eccFault (some i) false)
    | none =>
      match readAll (fun s i => s.readEl d (d.phys b + i / Nat.max v.vl 1) 1 v.aw (i % Nat.max v.vl 1)) (List.range (v.tl * v.vl)) s with
      | .ok s vals =>
        let d := s.putAcc a.toNat ((v.region.zip vals).map (fun e => (e.1.1, e.1.2, e.2)))
        s.complete (d.advanceStreams (group (d.phys b) v.tl))
      | .fail s f => .next (s.raise s.sel f (some 0) false)
      | .wait s => s.awaitReply) s

/-! ### Small matrices (R280 to R288) -/

/-- What one lane computes: the destination view's elements, the packed permutation, whether it failed, flags. -/
structure LaneOut where
  d : List Nat
  perm : Nat
  fail : Bool
  fl : FlagSet

/-- Arithmetic of a lane: a value with the flags so far. -/
structure LaneOps where
  f : Fmt
  rm : Nat

def LaneOps.op (x : LaneOps) (c : Nat) : Operand := floatOperand x.f x.f c
def LaneOps.mul (x : LaneOps) (b c : Nat) (fl : FlagSet) : Nat × FlagSet := let r := fMul x.f x.rm (x.op b) (x.op c); (r.1, fl ||| r.2)
def LaneOps.fma (x : LaneOps) (b c z : Nat) (fl : FlagSet) : Nat × FlagSet := let r := fFma x.f x.rm (x.op b) (x.op c) (x.op z); (r.1, fl ||| r.2)
/-- fma(−b, c, z). -/
def LaneOps.fnma (x : LaneOps) (b c : Nat) (z : Nat × FlagSet) : Nat × FlagSet :=
  let r := fFnma x.f x.rm (x.op b) (x.op c) (x.op z.1); (r.1, z.2 ||| r.2)
def LaneOps.div (x : LaneOps) (b : Nat × FlagSet) (c : Nat) : Nat × FlagSet := let r := fDiv x.f x.rm (x.op b.1) (x.op c); (r.1, b.2 ||| r.2)

/-- A matrix of R columns as a list. -/
def mat (l : List Nat) (cols i j : Nat) : Nat := l.getD (i * cols + j) 0

/-- SMMUL and SMMULT (R284). -/
def laneMul (x : LaneOps) (R C K : Nat) (turned : Bool) (b c : List Nat) : LaneOut :=
  let cc := fun k j => if turned then mat c K j k else mat c C k j
  let r := (List.range (R * C)).foldl (fun (acc : List Nat × FlagSet) e =>
    let i := e / C
    let j := e % C
    let t := (List.range (K - 1)).foldl (fun (t : Nat × FlagSet) k => x.fma (mat b K i (k + 1)) (cc (k + 1) j) t.1 t.2) (x.mul (mat b K i 0) (cc 0 j) acc.2)
    (acc.1 ++ [t.1], t.2)) ([], flNone)
  ⟨r.1, 0, false, r.2⟩

/-- A factorisation so far: the matrix, the permutation, flags, the column it failed at. -/
structure Factor where
  u : List Nat
  perm : List Nat
  fl : FlagSet
  bad : Option Nat

/-- One column of R285; `u` holds L below and at the columns done, and the source elsewhere. -/
def cholColumn (x : LaneOps) (R : Nat) (w : Factor) (j : Nat) : Factor :=
  if w.bad.isSome then w
  else
    let l := w.u
    let s := (List.range j).foldl (fun (s : Nat × FlagSet) k => x.fnma (mat l R j k) (mat l R j k) s) (mat l R j j, w.fl)
    let v := floatValue x.f s.1
    if v.isNaN || v.isZero || v.neg then { w with fl := s.2, bad := some j }
    else
      let q := fSqrt x.f x.rm (x.op s.1)
      let w := { w with u := l.set (j * R + j) q.1, fl := s.2 ||| q.2 }
      ((List.range R).filter (fun i => decide (j < i))).foldl (fun (w : Factor) i =>
        let t := (List.range j).foldl (fun (t : Nat × FlagSet) k => x.fnma (mat w.u R i k) (mat w.u R j k) t) (mat w.u R i j, w.fl)
        let r := x.div t (mat w.u R j j)
        { w with u := w.u.set (i * R + j) r.1, fl := r.2 }) w

/-- SMCHOL (R285). -/
def laneChol (x : LaneOps) (R : Nat) (b : List Nat) : LaneOut :=
  let w := (List.range R).foldl (cholColumn x R) ⟨b, [], flNone, none⟩
  let out := (List.range (R * R)).map (fun e =>
    let i := e / R
    let j := e % R
    match w.bad with
    | some jf => if j ≥ jf && i ≥ j then defaultNaN x.f else if j ≤ i then mat w.u R i j else 0
    | none => if j ≤ i then mat w.u R i j else 0)
  ⟨out, 0, w.bad.isSome, w.fl⟩

/-- Whether magnitude b is larger than magnitude a; a NaN counts above every number. -/
def magLess (f : Fmt) (a b : Nat) : Bool :=
  let top := pow2 (f.width - 1)
  let va := floatValue f (a % top)
  let vb := floatValue f (b % top)
  if va.isNaN then false else if vb.isNaN then true else ltValue va vb

/-- Exchange rows i and p of a list of rows of `cols` entries. -/
def swapRows (l : List Nat) (cols i p : Nat) : List Nat :=
  (List.range l.length).map (fun e =>
    let r := e / cols
    let r' := if r = i then p else if r = p then i else r
    l.getD (r' * cols + e % cols) 0)

/-- One column of R286. -/
def lupColumn (x : LaneOps) (R : Nat) (w : Factor) (j : Nat) : Factor :=
  if w.bad.isSome then w
  else
    let p := ((List.range R).filter (fun i => decide (j < i))).foldl (fun p i => if magLess x.f (mat w.u R p j) (mat w.u R i j) then i else p) j
    let v := floatValue x.f (mat w.u R p j)
    if v.isZero || v.isNaN then { w with bad := some j }
    else
      let w := { w with u := swapRows w.u R j p, perm := swapRows w.perm 1 j p }
      ((List.range R).filter (fun i => decide (j < i))).foldl (fun (w : Factor) i =>
        let q := x.div (mat w.u R i j, w.fl) (mat w.u R j j)
        let w := { w with u := w.u.set (i * R + j) q.1, fl := q.2 }
        ((List.range R).filter (fun k => decide (j < k))).foldl (fun (w : Factor) k =>
          let r := x.fnma (mat w.u R i j) (mat w.u R j k) (mat w.u R i k, w.fl)
          { w with u := w.u.set (i * R + k) r.1, fl := r.2 }) w) w

/-- SMLUP (R286). -/
def laneLup (x : LaneOps) (R : Nat) (b : List Nat) : LaneOut :=
  let w := (List.range R).foldl (lupColumn x R) ⟨b, List.range R, flNone, none⟩
  let out := match w.bad with
    | some jf => (List.range (R * R)).map (fun e => if e / R ≥ jf && e % R ≥ jf then defaultNaN x.f else w.u.getD e 0)
    | none => w.u
  ⟨out, (w.perm.zipIdx).foldl (fun a e => a + e.1 * pow2 (3 * e.2)) 0, w.bad.isSome, w.fl⟩

/-- One right-hand side of R287: forward, then backward. -/
def solveColumn (x : LaneOps) (R : Nat) (chol : Bool) (f : List Nat) (rhs : List Nat) (fl : FlagSet) : List Nat × FlagSet :=
  let y := (List.range R).foldl (fun (a : List Nat × FlagSet) i =>
    let t := (List.range i).foldl (fun (t : Nat × FlagSet) k => x.fnma (mat f R i k) (a.1.getD k 0) t) (rhs.getD i 0, a.2)
    let r := if chol then x.div t (mat f R i i) else t
    (a.1 ++ [r.1], r.2)) ([], fl)
  let g := fun i k => if chol then mat f R k i else mat f R i k
  (List.range R).reverse.foldl (fun (a : List Nat × FlagSet) i =>
    let t := ((List.range R).filter (fun k => decide (i < k))).foldl (fun (t : Nat × FlagSet) k => x.fnma (g i k) (a.1.getD k 0) t) (y.1.getD i 0, a.2)
    let r := x.div t (mat f R i i)
    (a.1.set i r.1, r.2)) (List.replicate R 0, y.2)

/-- The permutation a packed element holds, if it is one (R287). -/
def unpackPerm (R p : Nat) : Option (List Nat) :=
  let l := (List.range R).map (fun i => p / pow2 (3 * i) % 8)
  if p < pow2 (3 * R) && (List.range R).all (fun i => l.contains i) then some l else none

/-- SMSOLC and SMSOLP (R287). -/
def laneSolve (x : LaneOps) (R C : Nat) (perm : Option Nat) (f d : List Nat) : LaneOut :=
  let order := match perm with
    | none => some (List.range R)
    | some p => unpackPerm R p
  match order with
  | none => ⟨List.replicate (R * C) (defaultNaN x.f), 0, false, flFE⟩
  | some o =>
    let cols := (List.range C).foldl (fun (a : List (List Nat) × FlagSet) c =>
      let r := solveColumn x R perm.isNone f ((List.range R).map (fun i => mat d C (o.getD i 0) c)) a.2
      (a.1 ++ [r.1], r.2)) ([], flNone)
    ⟨(List.range (R * C)).map (fun e => (cols.1.getD (e % C) []).getD (e / C) 0), 0, false, cols.2⟩

/-- The members of SMX. -/
inductive SmOp where
  | mul | mult | chol | lup | solc | solp | tran
  deriving DecidableEq, Repr

/-- SMR, SMC, SMK (R49). -/
def Drover.smr (d : Drover) : Nat := bitsOf d.sms 0 3
def Drover.smc (d : Drover) : Nat := bitsOf d.sms 3 3
def Drover.smk (d : Drover) : Nat := bitsOf d.sms 6 3

/-- Rows of the views: destination, source b, source c (R281). -/
def SmOp.rowsD (o : SmOp) (R C : Nat) : Nat :=
  match o with
  | .chol | .lup => R * R
  | _ => R * C
def SmOp.rowsB (o : SmOp) (R C K : Nat) : Nat :=
  match o with
  | .mul | .mult => R * K
  | .tran => R * C
  | _ => R * R
def SmOp.rowsC (o : SmOp) (C K : Nat) : Nat :=
  match o with
  | .mul | .mult => K * C
  | .solp => 1
  | _ => 0
def SmOp.factors (o : SmOp) : Bool := o == .chol || o == .lup
/-- Source b's rows that are read: SMCHOL and SMSOLC read the lower triangle. -/
def SmOp.needB (o : SmOp) (R e : Nat) : Bool := !(o == .chol || o == .solc) || decide (e % R ≤ e / R)

/-- One lane. -/
def SmOp.lane (o : SmOp) (x : LaneOps) (R C K : Nat) (b c d : List Nat) : LaneOut :=
  match o with
  | .mul => laneMul x R C K false b c
  | .mult => laneMul x R C K true b c
  | .chol => laneChol x R b
  | .lup => laneLup x R b
  | .solc => laneSolve x R C none b d
  | .solp => laneSolve x R C (some (c.getD 0 0)) b d
  | .tran => ⟨(List.range (R * C)).map (fun e => mat b C (e % R) (e / R)), 0, false, flNone⟩

/-- The RESCOMB conditions of R282. -/
def SmOp.bad (o : SmOp) (a b c : Reg) (m : Bool) (d : Drover) : Bool :=
  let R := d.smr
  let C := d.smc
  let K := d.smk
  let out := fun n => n == 0 || n == 7
  let D := group (d.phys a) (o.rowsD R C)
  let B := group (d.phys b) (o.rowsB R C K)
  let Cr := group (d.phys c) (o.rowsC C K)
  !(d.vfmt == .f32 || d.vfmt == .f64) || vtyKa d.vec.vty || d.rmBad || out R || out C || ((o == .mul || o == .mult) && out K) ||
    (o.factors && (R != C || d.pf == 0 || (m && d.pf == vtyPs d.vec.vty))) || D.any (fun r => B.contains r || Cr.contains r) ||
    (o == .lup && (B.contains (d.phys c) || D.contains (d.phys c))) ||
    d.streamBad (B ++ Cr ++ (if o == .solc || o == .solp then D else [])) (D ++ (if o == .lup then [d.phys c] else []))

/-- The lanes of a small-matrix instruction so far. -/
structure SmLoop where
  l : MemLoop
  perm : List (Nat × Nat)
  pf : List (Nat × Nat)

/-- A lane's destination elements, its permutation and its failure bit are written together: a push that fails or awaits its answer
writes nothing of the lane (R45, R283). The permutation of SMLUP goes to row vc as to any destination (R231, R286). -/
def SmLoop.put (o : SmOp) (d : Drover) (a c : Reg) (nd : Nat) (x : SmLoop) (i : Nat) (vals : List Nat) (perm pf : Nat) : SmLoop :=
  let l := x.l.putAll d (d.phys a) nd ((vals.zipIdx).map (fun (e : Nat × Nat) => (i * nd + e.2, e.1)))
  if l.stop.isSome then { x with l := l }
  else if o == .lup && (d.stream (d.phys c)).isSome then
    let r := x.l.orBack (l.putAll d (d.phys c) 1 [(i, perm)])
    if r.stop.isSome then { x with l := r } else { x with l := r, pf := (i, pf) :: x.pf }
  else { l := l, perm := (i, perm) :: x.perm, pf := (i, pf) :: x.pf }

/-- One active lane: its sources are read, its result computed, its rows written; an enabled flag stops it first. -/
def SmOp.step (o : SmOp) (d : Drover) (a b c : Reg) (R C K : Nat) (x : SmLoop) (i : Nat) : SmLoop :=
  let w := d.vw
  let nd := o.rowsD R C
  let rd := fun base n (need : Nat → Bool) (s : State) => readAll (fun s e =>
    if !need e then .ok s 0
    else if !d.ecc.isEmpty && d.eccAt eccRow (base + e) w i then .fail s eccFault
    else s.readEl d (base + e) 1 w i) (List.range n) s
  let lane : LaneOps := ⟨d.vfmt, vtyRm d.vec.vty⟩
  let stop := fun (l : MemLoop) => { x with l := l }
  match rd (d.phys b) (o.rowsB R C K) (o.needB R) x.l.s with
  | .fail s f => stop { x.l with s := s, stop := some (i, .fault f) }
  | .wait s => stop { x.l with s := { s with reps := x.l.s.reps }, stop := some (i, .wait) }
  | .ok s bs => match rd (d.phys c) (o.rowsC C K) (fun _ => true) s with
    | .fail s f => stop { x.l with s := s, stop := some (i, .fault f) }
    | .wait s => stop { x.l with s := { s with reps := x.l.s.reps }, stop := some (i, .wait) }
    | .ok s cs => match rd (d.phys a) (if o == .solc || o == .solp then nd else 0) (fun _ => true) s with
      | .fail s f => stop { x.l with s := s, stop := some (i, .fault f) }
      | .wait s => stop { x.l with s := { s with reps := x.l.s.reps }, stop := some (i, .wait) }
      | .ok s ds =>
        let r := o.lane lane R C K bs cs ds
        let l := ({ x.l with s := s }).flag d i r.fl
        if l.stop.isSome then stop l
        else SmLoop.put o d a c nd { x with l := l } i r.d r.perm r.fail.toNat

/-- Lanes in turn (R283). -/
def SmOp.loop (o : SmOp) (d : Drover) (a b c : Reg) (m : Bool) (R C K : Nat) (x : SmLoop) (i : Nat) : SmLoop :=
  if x.l.stop.isSome then x
  else if d.govError m i then { x with l := { x.l with stop := some (i, .fault eccFault) } }
  else if d.act m i then o.step d a b c R C K x i
  else if vtyMp d.vec.vty then
    x.put o d a c (o.rowsD R C) i (List.replicate (o.rowsD R C) 0) 0 0
  else x

/-- A small-matrix instruction (R281 to R283). -/
def runSm (o : SmOp) (a b c : Reg) (m : Bool) (s : State) : Res :=
  s.held (fun s =>
    let d := s.cur
    let R := d.smr
    let C := d.smc
    let K := d.smk
    let D := group (d.phys a) (o.rowsD R C)
    let Cr := group (d.phys c) (o.rowsC C K)
    let P := if o == .lup then [d.phys c] else []
    if d.unready then s.trapIssue cVNCFG
    else if o.bad a b c m d then s.trapIssue cRESCOMB
    else if d.outside (D ++ group (d.phys b) (o.rowsB R C K) ++ Cr ++ P) then s.trapIssue cWINOV
    else
      let e0 := d.startAt (D ++ P)
      let x := ((List.range d.vec.vl).filter (fun i => decide (e0 ≤ i))).foldl (o.loop d a b c m R C K)
        { l := { s := s, out := [], last := 0, flags := d.flags, stop := none }, perm := [], pf := [] }
      let d1 := x.l.s.cur
      let v := if o == .lup then d1.vec.setElems (d.phys c) 1 d.vw x.perm else d1.vec
      let v := if o.factors then v.setPbits d.pf x.pf else v
      let d1 := { d1 with vec := v }
      let d1 := if o == .lup then d1.eccWritten eccRow (d.phys c) d.vw (x.perm.map (·.1)) else d1
      let d1 := if o.factors then d1.eccWritten eccPred d.pf 1 (x.pf.map (·.1)) else d1
      State.endMem (d.phys a) (o.rowsD R C) (D ++ P) (D ++ P ++ group (d.phys b) (o.rowsB R C K) ++ Cr) false m { x.l with s := x.l.s.setCur d1 })

/-- SMMUL (R284). -/
def execSmmul (a b c : Reg) (m : Bool) (s : State) : Res := runSm .mul a b c m s
/-- SMMULT (R284). -/
def execSmmult (a b c : Reg) (m : Bool) (s : State) : Res := runSm .mult a b c m s
/-- SMCHOL (R285). -/
def execSmchol (a b : Reg) (m : Bool) (s : State) : Res := runSm .chol a b 0 m s
/-- SMLUP (R286). -/
def execSmlup (a b c : Reg) (m : Bool) (s : State) : Res := runSm .lup a b c m s
/-- SMSOLC (R287). -/
def execSmsolc (a b : Reg) (m : Bool) (s : State) : Res := runSm .solc a b 0 m s
/-- SMSOLP (R287). -/
def execSmsolp (a b c : Reg) (m : Bool) (s : State) : Res := runSm .solp a b c m s
/-- SMTRAN (R288). -/
def execSmtran (a b : Reg) (m : Bool) (s : State) : Res := runSm .tran a b 0 m s

end Sys2Proof.Machine
end

