-- ==== Sys2Proof/Machine/Reuse.lean ====
section
/-! DEFINITION. The step-reuse sequencer: the SRS instructions (R350 to R355), signatures (R353, R354) and the skip
decision (R358). -/
namespace Sys2Proof.Machine

/-! ### Signatures (R353, R354) -/

def f32op (c : Nat) : Operand := floatOperand .f32 .f32 c
/-- An F32 code without its sign. -/
def f32abs (c : Nat) : Nat := c % pow2 31
def f32nan (c : Nat) : Bool := decide (f32abs c > 0x7F800000)

/-- One element enters a signature. -/
def Sig.add (g : Sig) (f : Fmt) (x : Nat) : Sig :=
  let a := x % pow2 (f.width - 1)
  let m := if f == .f32 then a else f32abs (convertElem f .f32 rmRNE false a).1
  let se := x % pow2 f.width / pow2 (match f with
    | .f16 => 10
    | .bf16 => 7
    | _ => 23)
  { g with
    sum := (fAdd .f32 rmRNE (f32op g.sum) (f32op m)).1
    max := if !f32nan m && decide (m > g.max) then m else g.max
    mix := (g.mix * 33 + se) % pow2 32
    nr := g.nr || f32nan m }

/-- The 16 bytes of an entry. -/
def Sig.bytes (g : Sig) (step : Nat) : List Byte :=
  leBytes 4 g.sum ++ leBytes 4 g.max ++ leBytes 4 g.mix ++ leBytes 2 step ++ leBytes 2 g.nr.toNat

/-- Entry t of a bank of a signature store. -/
def SrsCfg.entry (c : SrsCfg) (base bank t : Nat) : Word := wordOf (base + 16 * (c.nt * bank + t))

/-- Write an entry of the current bank; one with NR set sets SRSS.NR. -/
def State.writeSig (s : State) (key : Nat) (ag : Agent) (c : SrsCfg) (base : Nat) (g : Sig) : Acc Unit :=
  let step := (s.srsOf key).step
  match s.storeAt ag (c.entry base (step % 2) g.tile) (g.bytes step) with
  | .ok s _ => .ok (if g.nr then s.setSrs key (fun r => { r with nr := true }) else s) ()
  | r => r

/-! ### Configuration (R351) -/

/-- A threshold that enables reuse: T ≥ 0. -/
def thresholdOk (t : Nat) : Bool := !f32nan t && (decide (t < pow2 31) || f32abs t == 0)

def parseSrs (l : List Byte) : Option SrsCfg :=
  let b := fieldAt l 3 1
  let c : SrsCfg :=
    { slot := fieldAt l 0 1 % 16, lnode := fieldAt l 1 1, snode := fieldAt l 2 1, rl := b % 16, cl := b / 16, nt := fieldAt l 4 2
      t := fieldAt l 8 4, isig := fieldAt l 0x10 8, osig := fieldAt l 0x18 8, rbuf := fieldAt l 0x20 8 }
  if fieldAt l 0 1 < 16 && decide (c.lnode < 32) && decide (c.snode < 32) && decide (6 ≤ c.rl + c.cl) && decide (c.rl + c.cl ≤ 20) &&
      decide (1 ≤ c.nt) && decide (c.nt ≤ 8192) && zerosAt l 6 2 && zerosAt l 0x0C 4 && zerosAt l 0x28 24 && c.isig % 16 == 0 &&
      c.osig % 16 == 0 && c.rbuf % 64 == 0 then some c else none

/-- A member that needs the sequencer to be the drover's (R352). -/
def srsOwned (waits : Bool) (k : State → SrsCfg → Res) (s : State) : Res :=
  let r := s.srsOf s.sel
  if waits && r.act then s.notReady 12
  else match r.cfg with
    | some c => k s c
    | none => s.trapIssue cRESCOMB

/-- SRSCFG (R351): claims the sequencer of the core. -/
def execSrscfg (b : Reg) (s : State) : Res :=
  let r := (s.core (coreOf s.sel)).srs
  if (s.srsOf s.sel).act then s.notReady 12
  else if r.owner.isSome && r.owner != some s.sel then s.trapIssue cRESCOMB
  else (s.loadBlock (s.agentOf s.sel) (s.cur.getG b) 64).scalar (fun s l =>
    match parseSrs l with
    | none => s.trapIssue cRESCOMB
    | some c =>
      let core := s.core (coreOf s.sel)
      let s := s.setCore (coreOf s.sel) { core with
        srs := { core.srs with owner := some s.sel, cfg := some c, en := thresholdOk c.t && c.isig != 0 } }
      s.complete s.cur)

/-- SRSSTEP (R352). -/
def execSrsstep (s : State) : Res :=
  srsOwned true (fun s _ =>
    let s := s.setSrs s.sel (fun r => { r with step := (r.step + 1) % pow2 16, skips := 0, nr := false, skm := 0 })
    s.complete s.cur) s

/-- SRSMAP (R352). -/
def execSrsmap (a b : Reg) (s : State) : Res :=
  srsOwned false (fun s c =>
    let g := (s.cur.getG b).toNat
    let skm := (s.srsOf s.sel).skm
    s.completeG a (match (List.range c.nt).find? (fun t => decide (g ≤ t) && skm.getLsbD t) with
      | some t => wordOf t
      | none => -1)) s

/-- SRSCLR (R352). -/
def execSrsclr (s : State) : Res :=
  srsOwned true (fun s _ =>
    let s := s.releaseSrs s.sel
    s.complete s.cur) s

/-- Sign one tile of a tensor in memory. -/
def State.signTile (s : State) (ag : Agent) (f : Fmt) (base : Word) (t te : Nat) : Acc Sig :=
  let n := f.width / 8
  (List.range te).foldl (fun (a : Acc Sig) j => match a with
    | .ok s g => (s.loadNat ag (wordSum base (((t * te + j) * n : Nat) : Int)) n).map (fun x => g.add f x)
    | r => r) (.ok s (Sig.start t))

/-- SRSSIG (R355): every tile in turn; a failure leaves the entries of the lower tiles. -/
def execSrssig (b : Reg) (s : State) : Res :=
  if (s.srsOf s.sel).act then s.notReady 12
  else if s.cur.unready then s.trapIssue cVNCFG
  else srsOwned true (fun s c =>
    let f := s.cur.vfmt
    let ag := s.agentOf s.sel
    if !signable f then s.trapIssue cRESCOMB
    else if c.isig = 0 then s.complete s.cur
    else
      let done := (List.range c.nt).foldl (fun (a : Acc Unit) t => match a with
        | .ok s _ => match s.signTile ag f (s.cur.getG b) t c.te with
          | .ok s g => s.writeSig s.sel ag c c.isig g
          | .fail s e => .fail s e
          | .wait s => .wait s
        | r => r) (.ok s ())
      match done with
      | .wait t => ({ s with reqs := t.reqs }).awaitReply
      | r => r.scalar (fun s _ => s.complete s.cur)) s

/-! ### The skip decision (R358) -/

/-- An entry as read, if valid for a step. -/
def entryFor (l : List Byte) (step : Nat) : Option Sig :=
  if fieldAt l 12 2 = step && fieldAt l 14 1 % 2 = 0 then some ⟨0, fieldAt l 0 4, fieldAt l 4 4, fieldAt l 8 4, false⟩ else none

/-- The measure d of two entries. -/
def sigDistance (cur prev : Nat) : Nat :=
  let num := f32abs (fSub .f32 rmRNE (f32op cur) (f32op prev)).1
  let den := if ltValue (floatValue .f32 prev) (floatValue .f32 0x00800000) then 0x00800000 else prev
  (fDiv .f32 rmRNE (f32op num) (f32op den)).1

/-- d ≤ T. -/
def withinT (d t : Nat) : Bool := !f32nan d && !ltValue (floatValue .f32 t) (floatValue .f32 d)

/-- An entry read: none where it failed. -/
def State.readEntry (s : State) (ag : Agent) (va : Word) : Acc (Option (List Byte)) :=
  match s.loadBlock ag va 16 with
  | .ok s l => .ok s (some l)
  | .fail s _ => .ok s none
  | .wait s => .wait s

/-- Whether tile t is skipped, and the measure; a failed read sets SRSS.NR. -/
def State.decideTile (s : State) (key : Nat) (ag : Agent) (c : SrsCfg) (t : Nat) : Acc (Option Nat) :=
  let step := (s.srsOf key).step
  match s.readEntry ag (c.entry c.isig (step % 2) t) with
  | .fail s e => .fail s e
  | .wait s => .wait s
  | .ok s a => match s.readEntry ag (c.entry c.isig ((step + 1) % 2) t) with
    | .fail s e => .fail s e
    | .wait s => .wait s
    | .ok s b =>
      match a, b with
      | some a, some b =>
        match entryFor a step, entryFor b ((step + pow2 16 - 1) % pow2 16) with
        | some x, some y =>
          let d := sigDistance x.sum y.sum
          .ok s (if x.mix = y.mix && withinT d c.t then some d else none)
        | _, _ => .ok s none
      | _, _ => .ok (s.setSrs key (fun r => { r with nr := true })) none

end Sys2Proof.Machine
end

