-- ==== Sys2Proof/Machine/Chain.lean ====
section
/-! DEFINITION. Chains (R289 to R324): capture and its checks, CHRUN and placement, the firings of a run with step reuse
(R356 to R361) and booked bounds (R339, R342), completion, breaks, export and import. -/
namespace Sys2Proof.Machine

/-! ### Capture (R291 to R297) -/

/-- CST with the bits of R316. -/
def Cst.with (c : Cst) (live run rs : Bool) : Cst := { c with live := live, run := run, rs := rs }

/-- CHCFG (R291): opens a body. -/
def execChcfg (b : Reg) (s : State) : Res :=
  let d := s.cur
  let g := d.getG b
  let slot := bitsOf g 0 4
  let core := s.core (coreOf s.sel)
  if d.cst.run || d.cst.rs then s.trapIssue cILLOP
  else if d.unready then s.trapIssue cVNCFG
  else if !topZero g 5 || core.slots.any (fun e => e.1 == slot && e.2 != s.sel) then s.trapIssue cRESCOMB
  else
    let s := if d.cst.live then s.discardChain s.sel else s
    let core := s.core (coreOf s.sel)
    let s := s.setCore (coreOf s.sel) { core with slots := core.slots ++ [(slot, s.sel)] }
    let d := s.cur
    let c : Capture := { slot := slot, tf := g.getLsbD 4, cfgPc := d.iaddr, words := 0, link := 0, nodes := [], badLink := none }
    s.complete { d with capture := some c }

/-- The fields of a word as its form uses them. -/
def nodeArgs (r : Row) (w : BitVec 32) : VArgs :=
  let imm : Word := match r with
    | .vaddi | .vmuli | .vshli | .vshri | .vsrai | .vandi | .vori | .vli => (hiLow8 (fHi w)).setWidth 64
    | .vxch => wordOf (pow2 (hiC (fHi w)).toNat)
    | _ => 0
  ⟨fA w, fB w, hiC (fHi w), fX w, imm, none⟩

/-- The drover as a node's checks see it: the captured state, VL read as 64 outside a transform (R295). -/
def Node.seen (n : Node) (d : Drover) : Drover :=
  { d with vec := { d.vec with vty := n.vty, vl := if n.kind = 8 then n.vl else 64, tl := n.tl, kl := n.kl, vwb := n.vwb } }

/-- The width of a transform's input elements: those of the token's producer, or of the input format. -/
def inputWidth (d : Drover) (ns : List Node) (k : Nat) (n : Node) : Nat :=
  match (qOfB ns k).bind (fun q => ns[q]?) with
  | some p => p.tokW d.vec.af
  | none => n.matFmt.width

/-- The conditions of R271 and R304 on a transform node. -/
def transformBad (d : Drover) (ns : List Node) (k : Nat) (n : Node) : Bool :=
  let v := d.vec
  let x := n.seen d
  let rows := [n.fb, n.fc]
  !(decide (v.af ≠ .none) && (match matrixIn n.matFmt with
    | some (a, _) => a == v.af
    | none => false)) ||
  x.rmBad || decide (vtyFwl n.vty > 10) || x.streamBad rows [] || decide (n.accNo ≥ d.accAlloc) || d.outside rows ||
  (latestBefore ns k (fun m => m.writesRow n.fc)).isSome ||
  n.tl * n.kl * (8 * v.es) != 64 * inputWidth d ns k n || decide (n.tl > v.am) || decide (n.vl > v.an) || decide (n.tl * n.vl > 64) ||
  decide (n.kl * n.vl * v.es > 1024 * d.lgMin)

/-- The memory instruction of a node. -/
def Node.mem (n : Node) (r : Row) : MemForm :=
  { a := fA n.word, n := 1, idx := if n.kind = 3 || n.kind = 5 then some (hiC (fHi n.word)) else none, store := n.kind == 4 || n.kind == 5
    unit := r == .vld || r == .vst, ff := false, m := n.masked, step := 0, b := fB n.word }

/-- Whether node k breaks R295 or R296 by itself. -/
def nodeBad (d : Drover) (ns : List Node) (k : Nat) (n : Node) : Bool :=
  let x := n.seen d
  vtyKa n.vty ||
  match n.row with
  | none => true
  | some r =>
    match n.kind with
    | 8 => transformBad d ns k n
    | 9 => (fB n.word).toNat != k || !n.fmt.legal || d.outside [n.fa]
    | 2 | 4 | 5 => ((n.mem r).trap x).isSome
    | 3 => ((n.mem r).trap x).isSome || d.pf == 0 || (n.masked && d.pf == vtyPs n.vty)
    | _ => match n.form with
      | none => true
      | some F =>
        let F := if F.useC == .g then { F with bad := noBad } else F
        n.kind == 255 || (x.formTrap F (nodeArgs r n.word)).isSome || (F.dstPred && !writesPred (fA n.word)) ||
          (r == .vscanlin && decide (vtyBl n.vty < 6))

/-- Nodes of a list that take a unit on a core. -/
def unitsOn (ns : List Node) (core u : Nat) : Nat := (ns.filter (fun n => n.core == core && n.unit == u)).length

/-- LINK values whose cores are equal or mesh neighbours. -/
def linkNear (a b : Nat) : Bool := a == b || a == 0 || b == 0

/-- The first node of a template that breaks R295. -/
def badNode (d : Drover) (ns : List Node) : Option Nat :=
  (ns.zipIdx.find? (fun (e : Node × Nat) =>
    let n := e.1
    let k := e.2
    let before := ns.take (k + 1)
    nodeBad d ns k n ||
    (n.unit != 4 && decide (unitsOn before n.core n.unit > unitMax n.unit)) ||
    (n.kind == 8 && (ns.take k).any (fun m => m.kind == 8 && m.accNo == n.accNo)) ||
    (inputs ns k).any (fun q => ((ns[q]?).map (fun m => !linkNear m.core n.core)).getD false))).map (·.2)

/-- RESCOMB at CHEND with its word and node number (R295). -/
def State.templateTrap (s : State) (fpc : Word) (k : Nat) : Res :=
  .next (s.takeTrap s.sel { s.cur.trapOf cRESCOMB with elem := some k, fpc := fpc })

/-- CHEND (R295): checks the template. Outside a capture it is no instruction. -/
def execChend (s : State) : Res :=
  let d := s.cur
  match d.capture with
  | none => s.trapIssue cILLOP
  | some c =>
    let bad := badNode d c.nodes
    let link := c.badLink.filter (fun e => match bad with
      | some k => decide (e.2 ≤ k)
      | none => true)
    if c.nodes.isEmpty then s.templateTrap d.iaddr 0
    else match link, bad with
      | some (a, n), _ => s.templateTrap a n
      | none, some k => s.templateTrap (((c.nodes[k]?).map (·.addr)).getD 0) k
      | none, none =>
        s.complete { d with
          capture := none, template := some ⟨c.slot, c.tf, c.nodes⟩, run := none
          cst := { (d.cst.with true false false) with slot := c.slot, tmp := false } }

/-- Whether a LINK value names the home core or a core of the flock that a lane link reaches (R297). -/
def State.linkOk (s : State) (key : Nat) (v : Word) : Bool :=
  decide (v.toNat ≤ 4) &&
  match neighbour (coreOf key) v.toNat, s.flock (s.drover key).flock with
  | some c, some f => f.cores.contains c
  | _, _ => false

/-- LINK (R297): places the nodes that follow; outside a capture it is no instruction. -/
def execLink (b : Reg) (s : State) : Res :=
  let d := s.cur
  match d.capture with
  | none => s.trapIssue cILLOP
  | some c =>
    let v := d.getG b
    let c := if s.linkOk s.sel v then { c with link := v.toNat }
      else { c with badLink := if c.badLink.isSome then c.badLink else some (d.iaddr, c.nodes.length) }
    s.complete { d with capture := some c }

/-- The node a word becomes (R293). -/
def Drover.nodeOf (d : Drover) (c : Capture) (w : BitVec 32) : Node :=
  { word := w, addr := d.iaddr, vty := d.vec.vty, tl := d.vec.tl, kl := d.vec.kl, vl := d.vec.vl, vwb := d.vec.vwb, core := c.link }

/-- A word fetched during a capture (R292): a node, an instruction that executes, CHEND, or ILLOP. A TSHAPE that is not ready is not
counted until it issues. -/
def execCaptureWord (w : BitVec 32) (s : State) : Res :=
  let d := s.cur
  match d.capture with
  | none => .next s
  | some c =>
    match decodeRow w with
    | .error _ => s.trapIssue cILLOP
    | .ok r =>
      if !r.wf w || decide (c.words ≥ 64) then s.trapIssue cILLOP
      else
        let c := { c with words := c.words + 1 }
        let s1 := s.setCur { d with capture := some c }
        match r with
        | .setvty => execSetvty (fA w) (fB w) s1
        | .settl => execSettl (fA w) (fB w) s1
        | .tshape => if s.unitsHeld then execTshape (fA w) (fB w) (hiC (fHi w)) s else execTshape (fA w) (fB w) (hiC (fHi w)) s1
        | .link => execLink (fB w) s1
        | .chend => execChend s1
        | _ =>
          if isNodeWord w r && decide (c.nodes.length < 32) then
            s.complete { d with capture := some { c with nodes := c.nodes ++ [d.nodeOf c w] } }
          else s.trapIssue cILLOP

/-! ### The start of a run (R298, R303, R339, R356) -/

/-- Elements 0 to 63 of a source as CHRUN reads them. -/
def Vec.snap (v : Vec) (x : Option SrcRow) : List Nat :=
  match x with
  | some r => (List.range 64).map (fun j => v.elem r.base r.m r.w j)
  | none => []

/-- Carry segments of a VSCANLIN node (R303). -/
def carries (n : Node) (count : Nat) : Nat := (count + pow2 (vtyBl n.vty) - 1) / pow2 (vtyBl n.vty)

def Node.isScanlin (n : Node) : Bool := n.row == some .vscanlin

/-- A node as CHRUN starts it (R298 step 4, R303, R318). -/
def freshNode (d : Drover) (ns : List Node) (count k : Nat) (n : Node) : NodeRun :=
  let v := d.vec
  let unread := fun (src : Option SrcRow) (q : Option Nat) => if q.isNone then v.snap src else []
  let r := n.row
  let strided := r == some .vlds || r == some .vsts
  let w := n.w
  let carry := fun j => rowElem (v.row n.fc) w j
  { strip := 0, pix := 0
    entries := if n.kind = 6 then List.replicate 1024 none
      else if n.kind = 7 then (List.range 1024).map (fun j => if j < (if n.isScanlin then carries n count else 1) then some (carry j) else none)
      else []
    snapB := unread n.srcB (qOfB ns k), snapC := unread n.srcC (qOfC ns k), snapA := unread n.srcA (qOfA ns k)
    snapD := if hasDst ns k then v.snap n.dst else []
    psnap := if n.readsPred && (qOfP ns k).isNone then (v.pred (vtyPs n.vty)).toNat % pow2 64 else 0
    base := if n.kind = 2 || n.kind = 3 || n.kind = 4 || n.kind = 5 then d.getG (fB n.word) else 0
    stride := if strided then d.getG (hiC (fHi n.word)) else 0
    scal := match n.form with
      | some F => if F.useC == .g then d.getG (hiC (fHi n.word)) else 0
      | none => 0
    opnd := if n.kind = 8 then (List.range (n.kl * n.vl)).map (fun i => rowElem (v.row n.fc) (afWidth v.af) i) else []
    spos := ((nodeStream d n).map (·.pos)).getD 0, faulted := false, fva := 0, last := 0 }

/-- A run of a template with nothing done. -/
def freshRun (d : Drover) (t : Template) (count : Nat) (rpc : Word) : Run :=
  { count := count, rpc := rpc, nodes := t.nodes.zipIdx.map (fun (e : Node × Nat) => freshNode d t.nodes count e.2 e.1)
    queues := t.nodes.map (fun _ => ⟨0, []⟩), placed := false, units := [], sup := d.tr.sup, since := 0, flagged := false, fef := 0
    fei := Vector.replicate 7 Fei.reset, brk := none, failing := none, imported := false, area := none, booked := false, seq := false, reuse := false, skips := []
    decided := 0, sig := none, stop := none, dropAsked := false }

/-- The g operands CHRUN reads that an issue check of their form refuses (R192, R324). -/
def operandsBad (d : Drover) (t : Template) : Bool :=
  t.nodes.any (fun n => match n.form with
    | some F => F.useC == .g && F.bad n.vty 64 (d.getG (hiC (fHi n.word)))
    | none => false)

/-- Nodes that node l feeds, directly or through others. -/
def fedBy (ns : List Node) (l : Nat) : List Nat :=
  (List.range ns.length).foldl (fun acc k => if (inputs ns k).any (fun q => q == l || acc.contains q) then acc ++ [k] else acc) []

/-- Whether a run of this template is sequenced (R356). -/
def State.sequenced (s : State) (key : Nat) (t : Template) : Option SrsCfg :=
  ((s.srsOf key).cfg).filter (fun c => c.slot == t.slot)

/-- The RESCOMB conditions of a sequenced run (R356). -/
def sequenceBad (d : Drover) (t : Template) (c : SrsCfg) (en : Bool) (count : Nat) : Bool :=
  let ns := t.nodes
  let fed := fedBy ns c.lnode
  let kind := fun k => ((ns[k]?).map (·.kind)).getD 255
  kind c.lnode != 2 || kind c.snode != 4 || !fed.contains c.snode ||
  (c.osig != 0 && !((ns[c.snode]?).map (fun n => signable n.fmt)).getD false) || count != c.nt * c.te ||
  (en && (c.lnode :: fed).any (isTap d ns))

/-- Units of a class that a booking holds. -/
def Booking.unitsOf (b : Booking) (cls : Nat) : Nat := b.entries.foldl (fun a e => if e.cls = cls then a ||| e.mask else a) 0

/-- A stream node takes a stream engine though its unit is another (R339). -/
def strmNeed (d : Drover) (ns : List Node) : Nat :=
  (ns.filter (fun n => n.core == 0 && (n.unit == 1 || (nodeStream d n).isSome))).length

/-- Lane-link directions that queues leave the home core by. -/
def linkNeed (ns : List Node) : Nat :=
  (List.range ns.length).foldl (fun a k => match ns[k]? with
    | some n => (inputs ns k).foldl (fun a q => match ns[q]? with
      | some m => if m.core = 0 && n.core != 0 then a ||| pow2 (n.core - 1) else a
      | none => a) a
    | none => a) 0

/-- The RESCOMB conditions of a booked run (R339). -/
def State.bookedBad (s : State) (key : Nat) (d : Drover) (ns : List Node) : Bool :=
  match s.bookingOf key with
  | none => false
  | some b =>
    let short := fun need cls => decide (need > popcount 16 (b.unitsOf cls))
    short (unitsOn ns 0 0) kLg || short (unitsOn ns 0 3) kMtx || short (strmNeed d ns) kStrm ||
      maskMinus (linkNeed ns) (b.unitsOf kLink) != 0 || decide (s.cycle > 8 * b.start + 64)

/-! ### Placement (R297, R299) -/

/-- Whether the engines and matrix units of a core suffice for the nodes a template places on it. A booked run takes its booked units on
the home core (R339); another takes none that is booked (R328). -/
def State.enginesFit (s : State) (key link : Nat) (ns : List Node) : Bool :=
  let d := s.drover key
  match neighbour (coreOf key) link with
  | none => false
  | some c =>
    let booked := link = 0 && (d.run.map (fun r => r.booked)).getD false
    let free := fun u cls => unitMax u - s.unitsUsed (some key) c u - popcount 4 (s.bookedAhead c key cls)
    let strm := (ns.filter (fun n => n.core == link && n.unit == 1 && (nodeStream d n).isNone)).length
    (booked || (decide (strm + s.streamsOn c ≤ free 1 kStrm) && decide (unitsOn ns link 3 ≤ free 3 kMtx))) &&
      decide (unitsOn ns link 2 + s.unitsUsed (some key) c 2 ≤ 1)

/-- The direction opposite to a lane link. -/
def linkBack (l : Nat) : Nat := if l = 1 then 2 else if l = 2 then 1 else if l = 3 then 4 else 3

/-- Whether no queue of a template between two cores needs a lane-link direction that another's booking has (R328). -/
def State.linksFit (s : State) (key : Nat) (ns : List Node) : Bool :=
  (List.range ns.length).all (fun k => match ns[k]? with
    | some n => (inputs ns k).all (fun q => match ns[q]? with
      | some m =>
        if m.core = n.core then true
        else if m.core = 0 then !(s.bookedAhead (coreOf key) key kLink).testBit (n.core - 1)
        else match neighbour (coreOf key) m.core with
          | some c => !(s.bookedAhead c key kLink).testBit (linkBack m.core - 1)
          | none => true
      | none => true)
    | none => true)

/-- The lane groups a run would hold on the home core and its neighbours; none where they do not suffice. -/
def State.laneFit (s : State) (key : Nat) (ns : List Node) : Option (List (Nat × Nat)) :=
  (List.range 5).foldl (fun (acc : Option (List (Nat × Nat))) link =>
    match acc with
    | none => none
    | some l =>
      let need := unitsOn ns link 0
      if need = 0 then some l
      else match neighbour (coreOf key) link with
        | none => none
        | some c =>
          let own := match s.bookingOf key with
            | some b => if ((s.drover key).run.map (fun r => r.booked)).getD false then b.withholds else 0
            | none => 0
          let pool := if link = 0 then
              (if (s.drover key).state != .awaiting then (s.drover key).lgm.toNat else if own != 0 then own else s.pastureFor key)
            else maskMinus (maskMinus 0xFFFF (s.heldOn c)) (withheldBy s.bookings c)
          if popcount 16 pool < need then none else some (assocPut l c (takeLow 16 need pool))) (some [])

/-- Try to place a run: chained, when every unit is at hand; under TF it is temporal at once. CHRUN is a grant point (R21). -/
def State.tryPlace (s : State) (key : Nat) : State :=
  let d := s.drover key
  match d.run, d.template with
  | some r, some t =>
    if r.placed || !d.cst.run then s
    else if d.cst.tmp then s.setDrover key { d with run := some { r with placed := true } }
    else
      let g := if d.state = .awaiting || d.state = .halted then s
        else if r.booked then (s.grantBooked key).1 else (s.grantPoint key).1
      if s.linksFit key t.nodes && [0, 1, 2, 3, 4].all (fun l => !t.nodes.any (fun n => n.core == l) || s.enginesFit key l t.nodes) then
        match g.laneFit key t.nodes with
        | some units =>
          let g := units.foldl (fun (s : State) (u : Nat × Nat) => s.spillParked u.1 key (BitVec.ofNat 16 u.2)) g
          let d := g.drover key
          g.setDrover key { d with run := some { r with placed := true, units := units } }
        | none => s
      else s
  | _, _ => s

/-- A run starts or resumes: placed if its units are at hand. -/
def State.startRun (s : State) (key : Nat) (d : Drover) (r : Run) : State :=
  let s := s.setDrover key { d with run := some { r with since := s.cycle } }
  s.tryPlace key

/-- The strips every node of a run has completed. -/
def Run.done (r : Run) : Nat := (r.nodes.map (·.strip)).foldl Nat.min (stripsOf r.count)

/-- RSTP of the flock as the next CHRUN takes it (R421). -/
def State.stopStrip (s : State) (d : Drover) (S : Nat) : Option Nat :=
  let v := (s.debug d.flock).rstp
  let taken := (s.flockKeys d.flock).any (fun k => (((s.drover k).run.bind (·.stop)).isSome && (s.drover k).cst.run))
  let ss := bitsOf v 0 48
  if v.getLsbD 63 && !taken && decide (ss < S) then some ss else none

/-- A drover in CHWAIT resumes once its run has ended and the run's writes are performed at SYS scope (R257, R308). -/
def State.wakeChain (s : State) (key : Nat) : State :=
  let d := s.drover key
  if d.state = .awaiting && d.wait == some .chain && !d.cst.run && !d.cst.rs && !s.releasePending key then s.wake key else s

/-- A run ends (R316): waiting CHWAIT completes; a booked run's booking ends; a sequenced run's ACT falls. -/
def State.endRun (s : State) (key : Nat) : State :=
  let d := s.drover key
  let booked := (d.run.map (·.booked)).getD false
  let s := s.srsFall key
  let d := s.drover key
  let s := s.setDrover key { d with
    cst := { d.cst with run := false }
    run := d.run.map (fun r => { r with units := [], placed := false, booked := false, stop := none, seq := false }) }
  let s := if booked then s.endBooking key 0 else s
  (s.latch key evChn).wakeChain key

/-- The effect of a CHRUN that starts a run (R298). -/
def State.launchRun (s : State) (t : Template) (count : Nat) (booked : Bool) : State :=
  let key := s.sel
  let s := s.endStrip key
  let d := s.cur
  let cfg := s.sequenced key t
  let r := { freshRun d t count d.iaddr with
    booked := booked, seq := cfg.isSome, reuse := cfg.isSome && (s.srsOf key).en, stop := s.stopStrip d (stripsOf count) }
  let s := if cfg.isSome then s.setSrs key (fun x => { x with act := true }) else s
  let s := if booked then s.mapBooking key (fun b => { b with runStarted := true }) else s
  let d := { d.retire with
    cst := { (d.cst.with true true false) with tmp := t.tf, exp := false }, strp := d.iaddr, stro := 0 }
  let s := s.startRun key d r
  if count = 0 then s.endRun key else s

/-- The element at which what CHRUN reads of rows and predicates holds an uncorrectable word (R413). -/
def Drover.snapEcc (d : Drover) (t : Template) : Option Nat :=
  if d.ecc.isEmpty then none
  else (List.range 64).find? (fun j => t.nodes.zipIdx.any (fun (e : Node × Nat) =>
    let n := e.1
    let bad := fun (src : Option SrcRow) (q : Option Nat) => q.isNone && (src.map (fun (r : SrcRow) =>
      d.eccAt eccRow (r.base + j % r.m) r.w (j / r.m))).getD false
    bad n.srcB (qOfB t.nodes e.2) || bad n.srcC (qOfC t.nodes e.2) || bad n.srcA (qOfA t.nodes e.2) ||
      (hasDst t.nodes e.2 && bad n.dst none) ||
      (n.readsPred && (qOfP t.nodes e.2).isNone && d.eccAt eccPred (vtyPs n.vty) 1 j) ||
      (n.kind == 7 && d.eccAt eccRow n.fc n.w j)))

/-- CHRUN (R298). -/
def execChrun (b c : Reg) (s : State) : Res :=
  let d := s.cur
  if d.cst.run then s.notReady 12
  else if d.cst.rs then s.onBreak (fun s =>
    let s := (s.tryPlace s.sel).endStrip s.sel
    let d := s.cur
    s.complete { d with strp := (d.run.map (·.rpc)).getD d.strp, stro := (d.run.map (·.done)).getD d.stro })
  else
    let g := d.getG b
    let count := (d.getG c).toNat
    match d.template with
    | none => s.trapIssue cRESCOMB
    | some t =>
      if !topZero g 4 || bitsOf g 0 4 != d.cst.slot || !d.cst.live || decide (count > pow2 48) || d.cst.csab == 0 then s.trapIssue cRESCOMB
      else if d.bks.st = 1 then s.notReady 11
      else if d.bks.st = 2 then s.finish (d.await .bookedRun)
      else
        let booked := d.bks.st == 3 && ((s.bookingOf s.sel).map (fun b => !b.runStarted)).getD false
        let cfg := s.sequenced s.sel t
        if t.nodes.any (fun n => n.isScanlin && decide (carries n count > 64)) || operandsBad d t || (booked && s.bookedBad s.sel d t.nodes) ||
            (match cfg with
              | some c => sequenceBad d t c (s.srsOf s.sel).en count
              | none => false) then s.trapIssue cRESCOMB
        else match d.snapEcc t with
          | some j => .next (s.raise s.sel eccFault (some j) false)
          | none => .next (s.launchRun t count booked)

/-! ### One firing (R301 to R305) -/

/-- Token s of a queue, if held. -/
def Queue.token (q : Queue) (s : Nat) : Option Token := if s < q.hs then none else q.tokens[s - q.hs]?

/-- What a firing reads: the drover, the template's nodes, the run, the node and its number, its state and its strip. -/
structure FireCtx where
  key : Nat
  d : Drover
  ns : List Node
  run : Run
  k : Nat
  n : Node
  r : NodeRun

def FireCtx.tok (c : FireCtx) (q : Option Nat) : Option Token := (q.bind (fun q => c.run.queues[q]?)).bind (fun x => x.token c.r.strip)
def FireCtx.tokB (c : FireCtx) : Option Token := c.tok (qOfB c.ns c.k)
def FireCtx.tokC (c : FireCtx) : Option Token := c.tok (qOfC c.ns c.k)
def FireCtx.tokA (c : FireCtx) : Option Token := c.tok (qOfA c.ns c.k)
def FireCtx.tokP (c : FireCtx) : Option Token := c.tok (qOfP c.ns c.k)
/-- The first streamed input, whose length a producer's token has (R300). -/
def FireCtx.lead (c : FireCtx) : Option Token := c.tokB <|> c.tokC <|> c.tokA <|> c.tokP
/-- Input elements of the firing. -/
def FireCtx.len (c : FireCtx) : Nat :=
  let own := stripLen c.run.count c.r.strip
  if c.n.kind = 2 then own else ((c.lead).map (fun t => t.elems.length)).getD own
/-- Run element of element 0 of the firing's output. -/
def FireCtx.base (c : FireCtx) : Nat := c.r.strip * c.n.lq

/-- Element j of a source: popped, from its token, or as CHRUN read it. -/
def srcElem (pops : List (Nat × List (Nat × Nat))) (x : Option SrcRow) (t : Option Token) (snap : List Nat) (j : Nat) : Nat :=
  match x with
  | none => 0
  | some r =>
    match pops.find? (fun e => e.1 == r.base), t with
    | some p, _ => assocGetD p.2 0 j
    | none, some t => t.elems.getD j 0 % pow2 r.w
    | none, none => snap.getD j 0
abbrev Popped := List (Nat × List (Nat × Nat))
def FireCtx.vB (c : FireCtx) (p : Popped) (j : Nat) : Nat := srcElem p c.n.srcB c.tokB c.r.snapB j
def FireCtx.vC (c : FireCtx) (p : Popped) (j : Nat) : Nat := srcElem p c.n.srcC c.tokC c.r.snapC j
def FireCtx.vA (c : FireCtx) (p : Popped) (j : Nat) : Nat := srcElem p c.n.srcA c.tokA c.r.snapA j
/-- Bit j of p[VTY.PS]. -/
def FireCtx.pbit (c : FireCtx) (j : Nat) : Bool :=
  if vtyPs c.n.vty = 0 then true
  else match c.tokP with
    | some t => t.elems.getD j 0 != 0
    | none => c.r.psnap.testBit j
def FireCtx.act (c : FireCtx) (j : Nat) : Bool := !c.n.masked || c.pbit j
/-- Element j of the destination as CHRUN read it (R301). -/
def FireCtx.old (c : FireCtx) (j : Nat) : Nat :=
  if c.n.kind = 1 then (c.d.vec.pbit (fA c.n.word).toNat j).toNat
  else if c.r.snapD.isEmpty then c.r.snapA.getD j 0 else c.r.snapD.getD j 0

/-- The operands of a node's form; `off` is the run element of element 0 where the form counts run elements. -/
def FireCtx.env (c : FireCtx) (F : VForm) (args : VArgs) (p : Popped) (off : Nat) : Env :=
  let v := c.n.vty
  { m := { fmt := c.n.fmt, dst := F.dst c.n.fmt, rm := vtyRm v, sat := vtySat v, ka := false, bl := vtyBl v }
    vl := c.len, act := fun i => c.act (i - off), p := fun i => c.pbit (i - off), b := fun i => c.vB p (i - off)
    c := fun i => match F.useC with
      | .g => c.r.scal.toNat % pow2 c.n.w
      | .row => c.vC p (i - off)
      | _ => 0
    d := fun i => c.vA p (i - off), s := if F.useC == .g then c.r.scal else args.imm, t := 0, k := fun _ => 0 }

/-- A firing so far: elements made (newest first), partials or carries, flags of the drover and of the run, the partial
signature, and where it stopped. -/
structure Firing where
  s : State
  out : List Nat
  entries : List (Option Nat)
  fl : FlagAcc
  rf : FlagAcc
  sig : Option Sig
  stop : Option (Nat × Halt)

/-- Raise flags at a run element (R92, R306); an enabled one stops the firing there (R311). -/
def Firing.flag (f : Firing) (d : Drover) (j i : Nat) (x : FlagSet) : Firing :=
  { f with fl := f.fl.raise i x, rf := f.rf.raise i x, stop := if d.enabled x then some (j, .fptrap) else none }

def Firing.access {α : Type} (f : Firing) (j : Nat) (a : Acc α) (k : State → α → Firing) : Firing :=
  match a with
  | .ok s v => k s v
  | .fail s e => { f with s := s, stop := some (j, .fault e) }
  | .wait s => { f with s := { s with reps := f.s.reps }, stop := some (j, .wait) }

def Firing.run (one : Firing → Nat → Firing) (f : Firing) (els : List Nat) : Firing :=
  match els with
  | [] => f
  | j :: rest => match f.stop with
    | some _ => f
    | none => (one f j).run one rest

/-- An element of the output: to the token, or to the write stream bound to the destination. -/
def Firing.put (c : FireCtx) (ag : Agent) (f : Firing) (j v : Nat) : Firing :=
  match (c.n.dst).bind (fun x => c.d.stream x.base) with
  | none => { f with out := v :: f.out }
  | some t => f.access j (f.s.pushAs ag t c.len (t.pos + j) v) (fun s _ => { f with s := s })

/-- Whether a read of a booked run travels in class 0 (R340); a page that does not translate is left to the access. -/
def State.class0 (s : State) (c : FireCtx) (ag : Agent) (va : Word) (n : Nat) : Option (Bool × Nat) :=
  let a := (va.extractLsb' 0 56).toNat
  match walkFrom s a 0 (((s.context ag.ctx).map (·.root)).getD 0) none 5 with
  | .error _ => none
  | .ok l => some (pteBK l.pte && ((s.bookingOf c.key).map (fun b => b.entries.any (fun e =>
      e.cls == kRange && decide (e.mask ≤ va.toNat) && decide (va.toNat + n ≤ e.mask + e.bytes)))).getD false,
    (s.placeOf ag l.pte l.lvl a).pa)

/-- A read that R340 does not place in class 0 breaks a booked run (R342). -/
def State.notClass0 (s : State) (c : FireCtx) (ag : Agent) (va : Word) (n : Nat) : Bool :=
  c.run.booked && ((s.class0 c ag va n).map (fun x => !x.1)).getD false

/-- The rows of the die whose memory a class 0 read takes carry class 0 bytes in this quantum: booked bytes interleave across all of them
(R343, R345; log 26). -/
def State.carry (s : State) (c : FireCtx) (ag : Agent) (va : Word) (n : Nat) : State :=
  if c.run.booked then
    match s.class0 c ag va n with
    | some (true, pa) => if isHbm pa n then s.setDie (pa / dieBytes) { s.die (pa / dieBytes) with class0 := true } else s
    | _ => s
  else s

def overrunAt (va : Word) : FaultInfo := { FaultInfo.plain cOVERRUN with va := va }

/-- A load by a node: class 0 in a booked run. -/
def State.nodeLoad (s : State) (c : FireCtx) (ag : Agent) (va : Word) (n : Nat) : Acc Nat :=
  if s.notClass0 c ag va n then .fail s (overrunAt va) else (s.carry c ag va n).loadNat ag va n

/-- Element i of width w of an area that packs elements from an address on (R61), read and written. -/
def State.readPacked (s : State) (c : FireCtx) (ag : Agent) (base : Word) (w i : Nat) : Acc Nat :=
  if w = 4 then (s.nodeLoad c ag (wordSum base ((i / 2 : Nat) : Int)) 1).map (fun b => b / pow2 (4 * (i % 2)) % 16)
  else s.nodeLoad c ag (wordSum base ((i * (w / 8) : Nat) : Int)) (w / 8)
def State.writePacked (s : State) (ag : Agent) (cover : List Nat) (base : Word) (w i v : Nat) : Acc Unit :=
  if w = 4 then s.storeNibble ag (wordSum base ((i / 2 : Nat) : Int)) (i % 2 = 1) v cover
  else s.storeCover ag (wordSum base ((i * (w / 8) : Nat) : Int)) (leBytes (w / 8) v) cover

/-- A node's access of run element i, element j of its strip (R302). -/
def FireCtx.ea (c : FireCtx) (p : Popped) (j i : Nat) : Word :=
  if c.n.kind = 3 || c.n.kind = 5 then wordSum c.r.base (toSigned 32 (c.vC p j % pow2 32)) else wordSum c.r.base ((i : Int) * c.r.stride.toInt)
def FireCtx.unit (c : FireCtx) : Bool := c.n.row == some .vld || c.n.row == some .vst

/-- One element of a load or gather node. -/
def fireLoad (c : FireCtx) (ag : Agent) (p : Popped) (f : Firing) (j : Nat) : Firing :=
  let i := c.base + j
  if c.act j then
    f.access j (if c.unit then f.s.readPacked c ag c.r.base c.n.w i else f.s.nodeLoad c ag (c.ea p j i) (c.n.w / 8))
      (fun s v => ({ f with s := s }).put c ag j v)
  else f.put c ag j (if vtyMp c.n.vty then 0 else c.old j)

/-- SNODE's configuration in a sequenced run, when this node is SNODE. -/
def FireCtx.snode (c : FireCtx) (s : State) : Option SrsCfg :=
  if c.run.seq then ((s.srsOf c.key).cfg).filter (fun x => x.snode == c.k) else none

/-- A token value joins the tile's signature (R357). -/
def Firing.sign (f : Firing) (c : FireCtx) (x : SrsCfg) (v : Nat) : Firing :=
  if x.osig = 0 then f
  else
    let t := c.r.strip * 64 / x.te
    let g := match f.sig with
      | some g => if g.tile = t then g else Sig.start t
      | none => Sig.start t
    { f with sig := some (g.add c.n.fmt v) }

/-- Tile t's entry is written once SNODE has completed its last strip (R357); a failed write is dropped. -/
def Firing.endTile (f : Firing) (c : FireCtx) (ag : Agent) (n : Nat) : Firing :=
  match c.snode f.s, f.sig with
  | some x, some g =>
    if x.osig != 0 && (c.r.strip + 1) * 64 % x.te == 0 && f.stop.isNone then
      match f.s.writeSig c.key ag x x.osig g with
      | .ok s _ => { f with s := s, sig := none }
      | .fail s _ => { f with s := s.setSrs c.key (fun r => { r with nr := true }), sig := none }
      | .wait s => { f with s := s, stop := some (n, .wait) }
    else f
  | _, _ => f

/-- The lines that a node's writes of one token cover (R410): of its active elements, and of the token in RBUF. -/
def FireCtx.cover (c : FireCtx) (s : State) (p : Popped) (n : Nat) : List Nat :=
  if s.poison.isEmpty && s.bad.isEmpty then []
  else
    let w := c.n.w
    let bytes := fun (base : Word) (i : Nat) =>
      if w = 4 then (if i % 2 = 0 then [(wordSum base ((i / 2 : Nat) : Int)).toNat] else [])
      else (List.range (w / 8)).map (fun k => (wordSum base ((i * (w / 8) + k : Nat) : Int)).toNat)
    let js := (List.range n).filter (fun j => c.act j && (w != 4 || c.act (j + 1 - 2 * (j % 2))))
    let own := if c.unit then js.flatMap (fun j => bytes c.r.base (c.base + j))
      else js.flatMap (fun j => (List.range (w / 8)).map (fun (k : Nat) => (wordSum (c.ea p j (c.base + j)) (k : Int)).toNat))
    let buf := match c.snode s with
      | some x => (List.range n).flatMap (fun j => bytes (wordOf x.rbuf) (c.base + j))
      | none => []
    coveredLines own ++ coveredLines buf

/-- One element of a store or scatter node; SNODE also keeps it in RBUF, signs it, and copies a skipped one from RBUF
(R357, R359). -/
def fireStore (c : FireCtx) (ag : Agent) (p : Popped) (skip : Bool) (cover : List Nat) (f : Firing) (j : Nat) : Firing :=
  let i := c.base + j
  let w := c.n.w
  let store := fun (f : Firing) v => f.access j
    (if c.unit then f.s.writePacked ag cover c.r.base w i v else f.s.storeCover ag (c.ea p j i) (leBytes (w / 8) v) cover) (fun s _ => { f with s := s })
  match c.snode f.s with
  | none => if c.act j then store f (c.vA p j) else f
  | some x =>
    let buf := wordOf x.rbuf
    let g := if skip then f.access j (f.s.readPacked c ag buf w i) (fun s v => (store { f with s := s } v).sign c x v)
      else
        let f := if c.act j then store f (c.vA p j) else f
        if f.stop.isSome then f
        else f.access j (f.s.writePacked ag cover buf w i (c.vA p j)) (fun s _ => ({ f with s := s }).sign c x (c.vA p j))
    -- an element that stopped is not signed yet
    if g.stop.isSome then { g with sig := f.sig } else g

/-- One element of a compute, compare or scan node. -/
def fireMap (c : FireCtx) (ag : Agent) (F : VForm) (e : Env) (off : Nat) (f : Firing) (j : Nat) : Firing :=
  let i := off + j
  if F.body.acts e i then
    let slot := if c.n.isScanlin then i / pow2 e.m.bl else 0
    let cr := match f.entries.getD slot none with
      | some v => [(slot, v)]
      | none => []
    let q := F.body.step e cr i
    let g := f.flag c.d j (c.base + j) q.2.1
    let g := if g.stop.isSome then g else g.put c ag j q.1
    -- the carry is the one after element i once the element is made
    match assocGet q.2.2 slot with
    | some v => if c.n.kind = 7 && g.stop.isNone then { g with entries := f.entries.set slot (some v) } else g
    | none => g
  else f.put c ag j (if F.body.zeroing && vtyMp c.n.vty then 0 else c.old j)

/-- One element of a reduction node: its partial (R303). -/
def fireFold (c : FireCtx) (F : VForm) (m : Mode) (p : Popped) (f : Firing) (j : Nat) : Firing :=
  if c.act j then
    let q := foldIn (F.body.codeOp m) (pow2 (vtyFwl c.n.vty)) f.entries (c.base + j) (c.vB p j)
    let g := f.flag c.d j (c.base + j) q.2
    if g.stop.isSome then g else { g with entries := q.1 }
  else f

/-- The operand elements of a transform's input token (R304). -/
def FireCtx.operands (c : FireCtx) (p : Popped) : List Nat :=
  let w := inputWidth c.d c.ns c.k c.n
  let ew := afWidth c.d.vec.af
  let vals := (List.range c.len).map (fun j => match c.tokB with
    | some t => t.elems.getD j 0
    | none => c.vB p j)
  unpackElems ew ((c.len * w + ew - 1) / ew) (packElems w vals)

/-- Output elements of a transform's firing. -/
def FireCtx.outLen (c : FireCtx) (p : Popped) : Nat :=
  if c.n.kind = 8 then (if c.n.kl = 0 then 0 else ((c.operands p).length + c.n.kl - 1) / c.n.kl * c.n.vl) else c.len

/-- One output element of a transform node (R304): a chain of sums from +0. -/
def fireTransform (c : FireCtx) (ops : List Nat) (f : Firing) (j : Nat) : Firing :=
  let af := c.d.vec.af.fmt
  let fmt := c.n.matFmt
  let kappa := ((matrixIn fmt).map (·.2)).getD 1
  let m := j / c.n.vl
  let col := j % c.n.vl
  let r := (List.range c.n.kl).foldl (fun (a : Nat × FlagSet) k =>
    let x := matrixInputs fmt af kappa none (ops.getD (m * c.n.kl + k) 0)
    let y := matrixInputs fmt af kappa none (c.r.opnd.getD (k * c.n.vl + col) 0)
    let q := matrixSum af (vtyRm c.n.vty) (c.n.row == some .mxos) a.1 x y
    (q.1, a.2 ||| x.fl ||| y.fl ||| q.2)) (0, 0)
  let f := f.flag c.d j (c.base + j) r.2
  if f.stop.isSome then f else { f with out := r.1 :: f.out }

/-- Pop the bound source rows of a node at listed elements (R296). -/
def State.popNode (s : State) (c : FireCtx) (ag : Agent) (els : List Nat) : Pops :=
  let rows := ([c.n.srcB, c.n.srcC, c.n.srcA].filterMap id).map (·.base)
  (rows.eraseDups).foldl (fun (p : Pops) row =>
    match c.d.stream row with
    | none => p
    | some t =>
      let rd := fun (s : State) (j : Nat) =>
        match wordOfAddr (t.desc.addr (t.pos + j)) false with
        | .ok a =>
          if decide (t.pos + j < t.desc.total) && t.desc.inRange (t.pos + j) && s.notClass0 c ag a t.desc.esz then .fail s (overrunAt a)
          else (s.carry c ag a t.desc.esz).popAs ag t (t.pos + j)
        | .error _ => s.popAs ag t (t.pos + j)
      let r := readElems rd els ⟨p.s, [], none⟩
      { s := r.s, vals := p.vals ++ [(row, r.vals)]
        stop := match p.stop, r.stop with
          | none, x => x
          | x, none => x
          | some x, some y => if y.1 < x.1 then some y else some x }) ⟨s, [], none⟩

/-- The elements of node k's input in a strip, as its first streamed input makes them (R300). -/
def feedLen (ns : List Node) (count strip k fuel : Nat) : Nat :=
  match fuel with
  | 0 => stripLen count strip
  | m + 1 =>
    match qOfB ns k <|> qOfC ns k <|> qOfA ns k <|> qOfP ns k with
    | none => stripLen count strip
    | some q =>
      match ns[q]? with
      | some n => if n.kind = 8 then n.lq else feedLen ns count strip q m
      | none => stripLen count strip

/-- The element of the token at which a queue's word in error is read (R413). -/
def FireCtx.queueEcc (c : FireCtx) (j : Nat) : Bool :=
  !c.d.ecc.isEmpty && (inputs c.ns c.k).any (fun q => match c.ns[q]? with
    | some n => let w := n.tokW c.d.vec.af; c.d.ecc.contains ⟨eccQueue, 8 * q + c.r.strip % 8, j * w / 64⟩
    | none => false)

/-- The whole firing from element e0 on. -/
def FireCtx.fire (c : FireCtx) (ag : Agent) (skip : Bool) (e0 : Nat) (f : Firing) : Firing × Nat :=
  if skip then
    match c.snode f.s with
    | some _ =>
      let n := feedLen c.ns c.run.count c.r.strip c.k 32
      ((f.run (fireStore c ag [] true (c.cover f.s [] n)) ((List.range n).filter (fun j => decide (e0 ≤ j)))).endTile c ag n, n)
    | none => (f, 0)
  else
    let cross := ((c.n.form).map (fun F => F.cross || F.whole)).getD false
    let len := c.len
    let els := (List.range len).filter (fun j => decide (e0 ≤ j))
    let pops := f.s.popNode c ag (if cross && c.n.kind != 6 then List.range len else els.filter c.act)
    let p := pops.vals
    let f := { f with s := pops.s }
    -- elements below the first that could not be popped are made first
    let guard := fun (one : Firing → Nat → Firing) (f : Firing) (j : Nat) =>
      if c.queueEcc j then { f with stop := some (j, .fault eccFault) }
      else match pops.stop with
      | some (i, x) => if j = i || cross then { f with stop := some (j, x.halt) } else one f j
      | none => one f j
    match c.n.kind with
    | 2 | 3 => (f.run (guard (fireLoad c ag p)) els, len)
    | 4 | 5 => ((f.run (guard (fireStore c ag p false (c.cover f.s p len))) els).endTile c ag len, len)
    | 8 =>
      let ops := c.operands p
      let n := c.outLen p
      (f.run (guard (fireTransform c ops)) ((List.range n).filter (fun j => decide (e0 ≤ j))), n)
    | _ => match c.n.form, c.n.row with
      | some F, some r =>
        if c.n.kind = 6 then
          let e := c.env F (nodeArgs r c.n.word) p 0
          (f.run (guard (fireFold c F e.m p)) els, len)
        else
          let off := if c.n.kind = 7 then c.base else 0
          (f.run (guard (fireMap c ag F (c.env F (nodeArgs r c.n.word) p off) off)) els, len)
      | _, _ => (f, len)

/-! ### When a node fires (R301, R305) -/

/-- Whether the order of R301 lets node k go next; a chained run needs only its tokens. -/
def Run.turnOf (r : Run) (tmp : Bool) (k : Nat) : Bool :=
  !tmp || (r.nodes.zipIdx.find? (fun (e : NodeRun × Nat) => e.1.strip == r.done)).map (·.2) == some k

/-- Whether node k can fire its next strip. -/
def canFire (d : Drover) (k : Nat) : Bool :=
  match d.run, d.template with
  | some r, some t =>
    match r.nodes[k]?, t.nodes[k]? with
    | some x, some n =>
      let tail := fun (q : Queue) => q.tokens.getLast?
      d.cst.run && r.placed && decide (x.strip < stripsOf r.count) && n.kind != 9 && r.turnOf d.cst.tmp k &&
      (match r.stop with
        | some ss => decide (x.strip ≤ ss)
        | none => true) &&
      !x.faulted &&
      (inputs t.nodes k).all (fun q => (((r.queues[q]?).bind (fun y => y.token x.strip)).map (·.whole)).getD false) &&
      (!makesTokens d n || (match r.queues[k]? with
        | some q => decide (q.tokens.length < 8) || ((tail q).map (fun t => !t.whole)).getD false
        | none => false))
    | _, _ => false
  | _, _ => false

/-- A firing of node k that awaits an answer. -/
def State.nodeBegun (s : State) (key k : Nat) : Bool :=
  s.reqs.any (fun r => r.who == .chain key k) || s.reps.any (fun r => r.who == .chain key k)

/-- In a temporal run, engines and matrix units are used one at a time, where bookings of others leave one (R299, R328). -/
def State.unitFree (s : State) (key k : Nat) : Bool :=
  let d := s.drover key
  match d.run, (d.template).bind (fun t => t.nodes[k]?) with
  | some r, some n =>
    let free := fun cls => decide (popcount 4 (s.bookedNow (coreOf key) key cls) < 4)
    !d.cst.tmp || r.booked || (match n.unit with
      | 1 => free kStrm
      | 3 => free kMtx
      | _ => true)
  | _, _ => false

/-! ### Step reuse in a run (R358 to R360) -/

/-- A skip frees quanta of lg, mtx, tbank and strm entries from their ends (R360). -/
def State.freeSkipped (s : State) (key te count : Nat) : State :=
  let q := s.quantum
  let cut := fun (e : BookEntry) =>
    if e.cls ≤ kStrm then
      let n := e.dur * te / count
      { e with until_ := Nat.min e.until_ (Nat.max (e.until_ - n) (Nat.max (q + 1) e.from_)) }
    else e
  let s := s.mapBooking key (fun b => { b with entries := b.entries.map cut })
  s.setCore (coreOf key) { s.core (coreOf key) with freed := true }

/-- LNODE reaches tile t: the decision of R358, once. -/
def State.reachTile (s : State) (key : Nat) (ag : Agent) (c : SrsCfg) (t : Nat) : Acc Unit :=
  match s.decideTile key ag c t with
  | .fail s e => .fail s e
  | .wait u => .wait { s with reqs := u.reqs }
  | .ok s dist =>
    let d := s.drover key
    match d.run, dist with
    | some r, some m =>
      let s := s.setDrover key { d with run := some { r with decided := t + 1, skips := t :: r.skips } }
      let s := s.setSrs key (fun x => { x with skips := (x.skips + 1) % pow2 16, skm := x.skm ||| BitVec.ofNat 8192 (pow2 t) })
      let s := if r.booked then s.freeSkipped key c.te r.count else s
      .ok (s.emit d.flock d.ctx clsSkip 0x14 2 (coreOf key) srcSequencer (slotOf key)
        (leBytes 2 t ++ leBytes 2 (s.srsOf key).step ++ leBytes 4 m ++ leBytes 4 d.flock)) ()
    | some r, none => .ok (s.setDrover key { d with run := some { r with decided := t + 1 } }) ()
    | none, _ => .ok s ()

/-- The tile decision that a firing of node k needs first. -/
def State.beforeFire (s : State) (key k : Nat) (ag : Agent) : Acc Unit :=
  let d := s.drover key
  match d.run, (s.srsOf key).cfg with
  | some r, some c =>
    match r.nodes[k]? with
    | some x =>
      let t := x.strip * 64 / c.te
      if r.reuse && k == c.lnode && decide (r.decided ≤ t) then s.reachTile key ag c t else .ok s ()
    | none => .ok s ()
  | _, _ => .ok s ()

/-- Whether node k's next strip belongs to a skipped tile that it has a part in (R359). -/
def State.skipsNow (s : State) (key k : Nat) : Bool :=
  let d := s.drover key
  match d.run, d.template, (s.srsOf key).cfg with
  | some r, some t, some c =>
    r.reuse && (k == c.lnode || (fedBy t.nodes c.lnode).contains k) &&
      ((r.nodes[k]?).map (fun x => r.skips.contains (x.strip * 64 / c.te))).getD false
  | _, _, _ => false

/-! ### The effect of a firing -/

/-- Tokens that every consumer has fired on leave their queues (R305). -/
def Run.dropTokens (r : Run) (ns : List Node) : Run :=
  { r with queues := r.queues.zipIdx.map (fun (e : Queue × Nat) =>
      let cs := consumers ns e.2
      if cs.isEmpty then e.1
      else
        let least := (cs.map (fun c => ((r.nodes[c]?).map (·.strip)).getD 0)).foldl Nat.min (e.1.hs + e.1.tokens.length)
        { hs := Nat.max e.1.hs least, tokens := e.1.tokens.drop (least - e.1.hs) }) }

/-- The elements a firing made join the token of its strip. -/
def Queue.extend (q : Queue) (strip : Nat) (els : List Nat) (whole : Bool) : Queue :=
  match q.tokens[strip - q.hs]? with
  | some t => { q with tokens := q.tokens.set (strip - q.hs) ⟨t.elems ++ els, whole⟩ }
  | none => { q with tokens := q.tokens ++ [⟨els, whole⟩] }

/-- The streams of a node's bound rows after a completed firing. -/
def Drover.passStreams (d : Drover) (n : Node) (len : Nat) : Drover :=
  let rows := ([n.srcB, n.srcC, n.srcA, n.dst].filterMap id).map (·.base)
  { d with streams := d.streams.map (fun t => if rows.contains t.row then { t with lastP := some t.pos, pos := t.pos + len } else t) }

/-- STRIP records and the current strip of the drover, as the least completed strip advances (R417, R424). -/
def State.runStrips (s : State) (key before : Nat) : State :=
  let d := s.drover key
  match d.run with
  | none => s
  | some r =>
    let now := r.done
    let s := (List.range (now - before)).foldl (fun s i =>
      let x := before + i
      (s.emit d.flock d.ctx clsStrip 0x01 2 (coreOf key) srcDrover (slotOf key)
        (leBytes 8 r.rpc.toNat ++ leBytes 6 x ++ leBytes 2 (stripLen r.count x) ++ leBytes 1 d.groups ++ leBytes 4 d.flock)).emitLanes key) s
    let d := s.drover key
    if now = before || d.inStrip || d.strp != r.rpc then s else s.setDrover key { d with stro := now % pow2 48 }

/-- A fault break is delivered at once to a drover that waits in CHWAIT (R314). -/
def State.breakWaiter (s : State) (key : Nat) : State :=
  let d := s.drover key
  if d.state = .awaiting && d.wait == some .chain && (d.run.bind (·.brk)).any (·.owed) then
    let s := s.setDrover key { d with state := .issuing, wait := none, stall := none }
    (s.regrant key).deliver key
  else s

/-- A strip stop reached (R421): the run breaks as by a pre-emption and the drover halts for debug. -/
def State.stripStop (s : State) (key : Nat) : State :=
  let d := s.drover key
  match d.run with
  | some r =>
    match r.stop with
    | some ss =>
      if d.cst.run && decide (r.done > ss) then
        let s := s.setDrover key { d with run := some { r with stop := none } }
        let s := s.breakRun key 2 cPREEMPT 0xFF 0 none
        let s := match s.flock d.flock with
          | some f => s.setFlock d.flock { f with dbg := { f.dbg with rstp := f.dbg.rstp &&& ~~~(0x8000000000000000 : Word) } }
          | none => s
        s.debugHalt key false 0
      else s
    | none => s
  | none => s

/-- A run with a node that met a fault breaks once no other node can go on (R258, R311); the break is delivered at once to a drover that
waits in CHWAIT (R314). An OVERRUN ends the booking (R342). -/
def State.failOver (s : State) (key : Nat) : State :=
  let d := s.drover key
  match d.run with
  | some r =>
    match r.failing with
    | some b =>
      if d.cst.run && (List.range r.nodes.length).any (fun k => canFire d k && s.unitFree key k) then s
      else
        let s := s.breakRun key 1 b.icause b.fnode b.elem b.fault
        let s := if b.icause = cOVERRUN then s.endBooking key 4 else s
        s.breakWaiter key
    | none => s
  | none => s

/-- A fault of a node (R258, R311, R342, R361): its token is withheld; the run breaks when the nodes that do not depend on it have gone
as far as they can. -/
def State.faultRun (s : State) (key k elem icause : Nat) (f : Option FaultInfo) : State :=
  let d := s.drover key
  let s := match d.run with
    | none => s
    | some r =>
      let r := { r with
        failing := some (r.failing.getD ⟨1, icause, k, elem, f, true⟩)
        nodes := r.nodes.zipIdx.map (fun (e : NodeRun × Nat) =>
          if e.2 = k then { e.1 with faulted := true, fva := (f.map (fun (x : FaultInfo) => x.va)).getD 0 } else e.1) }
      s.setDrover key { d with run := some r }
  (s.noReuse key k).failOver key

/-- What a firing that ended or stopped leaves behind. One that awaits an answer has no effect yet (R311). -/
def State.settleFire (s0 : State) (c : FireCtx) (skip : Bool) (f : Firing) (n : Nat) : State :=
  let s := f.s
  let d := s.drover c.key
  let made := match f.stop with
    | some (j, _) => j
    | none => n
  let whole := f.stop.isNone
  let pix := if whole && (skip || n < c.n.lq) && c.n.kind != 8 then c.base + stripLen c.run.count c.r.strip else c.base + made
  let r := { c.r with
    pix := if whole && skip && c.n.kind == 8 then c.base + c.n.lq else pix, entries := f.entries, strip := if whole then c.r.strip + 1 else c.r.strip
    last := s.cycle }
  let d := if whole then d.passStreams c.n n else d
  let r := { r with spos := ((nodeStream d c.n).map (·.pos)).getD 0 }
  let tokens := makesTokens d c.n
  let q := (c.run.queues[c.k]?).map (fun q => if tokens && (whole || f.out.length > 0) then q.extend c.r.strip f.out.reverse whole else q)
  let run := { c.run with
    nodes := c.run.nodes.set c.k r, queues := match q with
      | some q => c.run.queues.set c.k q
      | none => c.run.queues
    sig := f.sig, fef := f.rf.fef, fei := f.rf.fei, flagged := f.fl.raised }
  let run := run.dropTokens c.ns
  let v := if whole && !skip && c.n.kind == 8 then
      let els := (((c.run.queues[c.k]?).bind (fun q => q.token c.r.strip)).map (·.elems)).getD [] ++ f.out.reverse
      (d.vec.setAccs c.n.accNo (els.zipIdx.map (fun (e : Nat × Nat) => (e.2 / c.n.vl, e.2 % c.n.vl, e.1)))).markAcc c.n.accNo
    else d.vec
  let mended := fun (e : EccWord) => tokens && e.kind == eccQueue && e.reg == 8 * c.k + c.r.strip % 8
  let d := { d with vec := v, fef := f.fl.fef, fei := f.fl.fei, run := some run, ecc := d.ecc.filter (fun e => !mended e) }
  let s := s.setDrover c.key d
  match f.stop with
  | none => ((s.runStrips c.key c.run.done).stripStop c.key).failOver c.key
  | some (_, .wait) => { s0 with reqs := f.s.reqs }
  | some (_, .fault e) => s.faultRun c.key c.k (c.base + made) e.cause (some e)
  | some (_, .fptrap) => s.faultRun c.key c.k (c.base + made) cFPTRAP none

/-- Fire node k of a drover's run on its next strip (R305). -/
def State.fireNode (s : State) (key k : Nat) : State :=
  let p := s.tryPlace key
  -- a run that is to be dropped only finishes what was begun
  let dropped := ((p.drover key).run.map (·.dropAsked)).getD false
  if !canFire (p.drover key) k || !p.unitFree key k || (dropped && !p.nodeBegun key k) then s
  else
    let d := p.drover key
    let sup := ((d.run).map (·.sup)).getD false
    let gather := (((d.template).bind (fun t => t.nodes[k]?)).map (fun n => n.unit == 2)).getD false
    let ag := p.nodeAgent key k ((((d.run).bind (fun r => r.nodes[k]?)).map (·.strip)).getD 0) (if gather then srcGather else srcStream) sup
    match p.beforeFire key k ag with
    | .wait t => { s with reqs := t.reqs }
    | .fail _ _ => s
    | .ok p _ =>
      let d := p.drover key
      match d.run, d.template with
      | some run, some t =>
        match run.nodes[k]?, t.nodes[k]? with
        | some r, some n =>
          let c : FireCtx := { key := key, d := d, ns := t.nodes, run := run, k := k, n := n, r := r }
          let skip := p.skipsNow key k
          let e0 := r.pix - c.base
          let f0 : Firing :=
            { s := p, out := [], entries := r.entries, fl := { fef := d.fef, fei := d.fei, raised := run.flagged }
              rf := { fef := run.fef, fei := run.fei, raised := true }, sig := run.sig, stop := none }
          let f := c.fire ag skip e0 f0
          p.settleFire c skip f.1 f.2
        | _, _ => p
      | _, _ => p

/-- CHAIN_NODE_FIRE (R305). -/
def execChainNodeFire (key node : Nat) (s : State) : Res := .next (s.fireNode key node)

/-! ### Completion (R303, R304, R316) -/

/-- Every node has completed every strip. -/
def Drover.runOver (d : Drover) : Bool :=
  match d.run with
  | some r => d.cst.run && r.stop.isNone && !r.dropAsked && r.failing.isNone && r.nodes.all (fun n => decide (n.strip ≥ stripsOf r.count))
  | none => false

/-- The fold of a reduction node: its result, and the flags in order. -/
def foldNode (n : Node) (r : NodeRun) : Option Nat × List FlagSet :=
  match n.form with
  | some F =>
    let m : Mode := { fmt := n.fmt, dst := n.fmt, rm := vtyRm n.vty, sat := vtySat n.vty, ka := false, bl := vtyBl n.vty }
    let fwl := vtyFwl n.vty
    let q := foldOut (F.body.codeOp m) fwl (r.entries.take (pow2 fwl)) (r.snapC.getD 0 0)
    (some (q.1.getD (r.snapC.getD 0 0)), q.2)
  | none => (none, [])

/-- Flags of all folds at the index count, up to the first enabled one (R87): the flags, and the node that stopped. -/
def foldFlags (d : Drover) (l : List (Nat × List FlagSet)) (count : Nat) (fl rf : FlagAcc) : FlagAcc × FlagAcc × Option Nat :=
  match l with
  | [] => (fl, rf, none)
  | (k, xs) :: rest =>
    let r := xs.foldl (fun (a : FlagAcc × FlagAcc × Bool) x =>
      if a.2.2 then a else (a.1.raise count x, a.2.1.raise count x, d.enabled x)) (fl, rf, false)
    if r.2.2 then (r.1, r.2.1, some k) else foldFlags d rest count r.1 r.2.1

/-- A sink write: elements of a row from element 0 on, which moves PIX and HWM as an instruction's write (R303). -/
def Drover.sink (d : Drover) (row w : Nat) (vals : List Nat) : Drover :=
  let v := d.vec.setElems row 1 w (vals.zipIdx.map (fun (e : Nat × Nat) => (e.2, e.1)))
  { d with vec := (v.setPix row ⟨true, d.vec.vl⟩).markAny [row] w }.eccWritten eccRow row w (List.range vals.length)

/-- The writes of the reduction and scan nodes. -/
def Drover.sinks (d : Drover) (ns : List Node) (r : Run) : Drover :=
  (ns.zip r.nodes).foldl (fun (d : Drover) (e : Node × NodeRun) =>
    let n := e.1
    if n.kind = 6 then match (foldNode n e.2).1 with
      | some v => d.sink n.fa n.w [v]
      | none => d
    else if n.kind = 7 then
      let c := if n.isScanlin then carries n r.count else 1
      d.sink n.fc n.w ((e.2.entries.take c).map (fun x => x.getD 0))
    else d) d

/-- The completion of a run. -/
def State.completeRun (s : State) (key : Nat) : State :=
  let d := s.drover key
  match d.run, d.template with
  | some r, some t =>
    if !d.runOver then s
    else
      let folds := (t.nodes.zip r.nodes).zipIdx.filterMap (fun (e : (Node × NodeRun) × Nat) =>
        if e.1.1.kind = 6 then some (e.2, (foldNode e.1.1 e.1.2).2) else none)
      let q := foldFlags d folds r.count { fef := d.fef, fei := d.fei, raised := r.flagged } { fef := r.fef, fei := r.fei, raised := true }
      let r := { r with fef := q.2.1.fef, fei := q.2.1.fei, flagged := q.1.raised }
      let d := { d with fef := q.1.fef, fei := q.1.fei, run := some r }
      match q.2.2 with
      | some k => (s.setDrover key d).faultRun key k r.count cFPTRAP none
      | none => (s.setDrover key (d.sinks t.nodes r)).endRun key
  | _, _ => s

/-- CHAIN_RUN_COMPLETE (R316). -/
def execChainRunComplete (key : Nat) (s : State) : Res := .next (s.completeRun key)

/-- A run that could not be placed in 256 cycles runs temporally (R299). -/
def State.placeTimeout (s : State) (key : Nat) : State :=
  let d := s.drover key
  match d.run with
  | some r =>
    if d.cst.run && !r.placed && decide (s.cycle ≥ r.since + 256) then
      s.setDrover key { d with cst := { d.cst with tmp := true }, run := some { r with placed := true } }
    else s
  | none => s

/-! ### Lane reclamation (R27) -/

/-- How long a request waits before it is near the bound of R26, 4,096 cycles (DESIGN CHOICE, log 62). -/
def nearBound : Nat := 3840

/-- A waiting request near its bound that its core's pasture cannot meet (R26, R27). -/
def State.starved (s : State) (core : Nat) : Bool :=
  (s.requestsOn core 2048).any (fun k => decide (popcount 16 (s.pastureFor k) < (s.drover k).lgMin) &&
    ((s.drover k).request.map (fun r => decide (r.since + nearBound ≤ s.cycle))).getD false)

/-- The lane groups a reclamation frees on a run's home core: the run's, and of a drover that holds groups too all above its minimum
(R20, R27). -/
def State.reclaimable (s : State) (key : Nat) : Nat :=
  let d := s.drover key
  let all := d.lgm.toNat ||| d.runUnits (coreOf key)
  if d.lgm = 0 then all else maskMinus all (takeLow 16 d.lgMin all)

/-- LANE_RECLAMATION (R27, R310): for a request near its bound a chained run that holds more than its drover's minimum loses its lane
groups at a strip boundary, as a lane-loss break, and resumes at once with the remaining units; booked lane groups are never reclaimed. -/
def execLaneReclamation (key : Nat) (s : State) : Res :=
  let d := s.drover key
  let boundary := match d.run, d.template with
    | some r, some t => r.placed && !r.booked && !r.units.isEmpty && (r.nodes.zip t.nodes).all (fun e =>
        decide (e.1.pix ≤ e.1.strip * e.2.lq) || decide (e.1.strip ≥ stripsOf r.count))
    | _, _ => false
  if d.cst.run && !d.cst.tmp && boundary && s.starved (coreOf key) && s.reclaimable key != 0 then
    let keep := takeLow 16 d.lgMin (d.lgm.toNat ||| d.runUnits (coreOf key))
    let s := s.breakRun key 3 0 0xFF 0 none
    let d := s.drover key
    -- the drover keeps its minimum
    let s := if d.lgm = 0 then s else s.setDrover key (d.grant (BitVec.ofNat 16 keep))
    let s := (s.requestsOn (coreOf key) key).foldl (fun s k => (s.grantPoint k).1) s
    match (s.drover key).run with
    | some r => .next (s.continueRun key r)
    | none => .next s
  else .next s

/-- LANE_GRANT (R26): a drover whose request stands is granted lane groups. -/
def execLaneGrant (key : Nat) (s : State) : Res :=
  if (s.drover key).request.isSome && (s.drover key).state == .issuing then
    match s.grantPoint key with
    | (s', true) => .next s'
    | (_, false) => .next s
  else .next s

/-! ### The other CHN instructions -/

/-- CHWAIT (R308): it completes once the run's writes are performed at SYS scope (R257). -/
def execChwait (s : State) : Res :=
  let wait := fun (s : State) => if s.cur.cst.run then s.finish (s.cur.await .chain) else s.released (s.complete s.cur)
  if s.cur.cst.run then wait s else s.onBreak wait

/-- CHSTAT (R323). -/
def execChstat (a b : Reg) (s : State) : Res :=
  let d := s.cur
  let g := (d.getG b).toNat
  let pixOf := fun (r : NodeRun) => r.pix
  let pix := (d.run.map (fun r => r.nodes.map pixOf)).getD []
  if g = 0 then s.completeG a d.cst.word
  else if g = 1 then s.completeG a (wordOf ((d.run.map (·.count)).getD 0))
  else if g = 2 then s.completeG a (wordOf (match pix with
    | [] => 0
    | x :: rest => rest.foldl Nat.min x))
  else if 0x20 ≤ g && g ≤ 0x3F then s.completeG a (wordOf (pix.getD (g - 0x20) 0))
  else s.trapIssue cRESCOMB

/-- The run that CHSAVE records: the broken one, or one in which no strip has run (R319). -/
def Drover.savedRun (d : Drover) (t : Template) : Run :=
  match d.run with
  | some r => if d.cst.rs then r else freshRun d t r.count r.rpc
  | none => freshRun d t 0 0

/-- CHSAVE (R319). -/
def execChsave (b : Reg) (s : State) : Res :=
  let d := s.cur
  match d.template with
  | none => s.trapIssue cILLOP
  | some t =>
    let va := d.getG b
    if !d.cst.live || d.cst.run then s.trapIssue cILLOP
    else if va.toNat % 64 != 0 then .next (s.takeTrap s.sel { d.trapOf cMISALIGN with va := va, wr := true })
    else
      let run := d.savedRun t
      let owed := (run.brk.map (·.owed)).getD false
      (s.storeWhole (s.agentOf s.sel) va (areaBytes d s.sel t run owed)).scalar (fun s _ =>
        let d := s.cur
        s.complete { d with
          cst := { d.cst with exp := true }
          run := if d.cst.rs && va = d.cst.csab then d.run.map (fun r => { r with area := some owed.toNat }) else d.run })

/-- A run imported from an area takes part in step reuse as CHRUN's would; its tile in progress is not reusable (R356, R361). -/
def State.adopt (s : State) (key : Nat) (t : Template) (r : Run) : Run :=
  match s.sequenced key t with
  | none => r
  | some c =>
    let q := s.srsOf key
    let at_ := fun k => ((r.nodes[k]?).map (·.strip)).getD 0 * 64 / c.te
    let lead := if ((r.nodes[c.lnode]?).map (fun x => x.pix % c.te != 0)).getD false then at_ c.lnode + 1 else at_ c.lnode
    { r with
      seq := true, reuse := q.en, decided := lead, skips := (List.range lead).filter (fun i => q.skm.getLsbD i)
      sig := if ((r.nodes[c.snode]?).map (fun x => x.pix % c.te != 0)).getD false then some { Sig.start (at_ c.snode) with nr := true } else none }

/-- CHLOAD (R320). -/
def execChload (b : Reg) (s : State) : Res :=
  let d := s.cur
  match d.template with
  | none => s.trapIssue cILLOP
  | some t =>
    if !d.cst.live || d.cst.run || d.cst.rs then s.trapIssue cILLOP
    else (s.loadWhole (s.agentOf s.sel) (d.getG b) (areaSize / 64)).scalar (fun s l =>
      let d := s.cur
      match parseArea d t l with
      | none => s.trapIssue cRESCOMB
      | some r =>
        s.complete { d with
          run := some (s.adopt s.sel t r), cst := { d.cst with rs := true, icause := at_ l 4 1 } })

/-- CHDROP (R317): a firing that was begun is finished first, and writes already issued are performed. A booking of the drover stands:
R337 has no transition for it. -/
def execChdrop (s : State) : Res :=
  let d := s.cur
  if !d.cst.live then s.complete d
  else
    let begun := d.cst.run && ((List.range 32).any (fun k => s.nodeBegun s.sel k) || s.releasePending s.sel)
    if begun then .next (s.setCur { d.stalled 12 with run := d.run.map (fun r => { r with dropAsked := true }) })
    else
      let s := s.discardChain s.sel
      s.complete s.cur

/-- TURN (R324). -/
def execTurn (a b c : Reg) (m : Bool) (s : State) : Res := runForm (formVprm 16) (args3 a b c m) s

/-! ### Queues (R290, R309) -/

/-- A QUE instruction names a queue while CST.LIVE is 1 (R40): the template and the run as the queues see them. -/
def queueOp (k : State → Drover → Template → Run → Res) (s : State) : Res :=
  let d := s.cur
  match d.template with
  | none => s.trapIssue cILLOP
  | some t => if d.cst.live then k s d t (d.run.getD (freshRun d t 0 0)) else s.trapIssue cILLOP

def Run.queue (r : Run) (q : Nat) : Queue := r.queues.getD q ⟨0, []⟩

/-- A row is bound as a stream that a queue instruction may not use: its element size is not the queue's, or it is of the
other direction (R231). -/
def Drover.queueRowBad (d : Drover) (row w : Nat) (write : Bool) : Bool :=
  d.streams.any (fun t => t.row == row && (t.write != write || 8 * t.desc.esz != w))

/-- QPUSH (R309). -/
def execQpush (q b : Reg) (s : State) : Res :=
  if !isQueue q then s.trapIssue cILLOP
  else queueOp (fun s _ t _ =>
    let feed := ((t.nodes[q.toNat]?).map (fun n => n.kind == 9)).getD false
    if !feed || !(s.cur.cst.run || s.cur.cst.rs) then s.trapIssue cILLOP
    else s.onBreak (fun s =>
      let d := s.cur
      match d.run, t.nodes[q.toNat]? with
      | some r, some n =>
        let x := r.queue q.toNat
        let strip := x.hs + x.tokens.length
        let row := d.phys b
        let w := n.w
        if strip ≥ stripsOf r.count || d.queueRowBad row w false then s.trapIssue cRESCOMB
        else if d.outside [row] then s.trapIssue cWINOV
        else if x.tokens.length ≥ 8 then s.notReady 12
        else
          let len := stripLen r.count strip
          let have_ := Nat.min len d.vec.vl
          match (List.range have_).find? (fun i => d.eccAt eccRow row w i) with
          | some i => .next (s.raise s.sel eccFault (some i) false)
          | none => (s.readRow d row w have_).scalar (fun s els =>
            let d := s.cur
            let tok : Token := ⟨els ++ List.replicate (len - have_) 0, true⟩
            let r := { r with
              queues := r.queues.set q.toNat { x with tokens := x.tokens ++ [tok] }
              nodes := r.nodes.zipIdx.map (fun (e : NodeRun × Nat) => if e.2 = q.toNat then { e.1 with strip := strip + 1, pix := 64 * strip + len } else e.1) }
            s.complete ({ d with run := some (r.dropTokens t.nodes) }.advanceStreams [row]))
      | _, _ => s.trapIssue cILLOP)) s

/-- QPOP (R309). -/
def execQpop (a q : Reg) (s : State) : Res :=
  if !isQueue q then s.trapIssue cILLOP
  else queueOp (fun s d t _ =>
    if !isTap d t.nodes q.toNat then s.trapIssue cILLOP
    else s.onBreak (fun s =>
      let d := s.cur
      let r := d.run.getD (freshRun d t 0 0)
      match t.nodes[q.toNat]? with
      | none => s.trapIssue cILLOP
      | some n =>
        let x := r.queue q.toNat
        let row := d.phys a
        let w := n.tokW d.vec.af
        let left := decide (((r.nodes[q.toNat]?).map (·.strip)).getD 0 < stripsOf r.count)
        if d.queueRowBad row w true then s.trapIssue cRESCOMB
        else if d.outside [row] then s.trapIssue cWINOV
        else match x.tokens with
          | tok :: rest =>
            if !tok.whole then (if d.cst.run then s.notReady 12 else s.complete { d with vec := { d.vec with vl := 0 } })
            else
              let r := { r with queues := r.queues.set q.toNat ⟨x.hs + 1, rest⟩ }
              let L := tok.elems.length
              let s := s.setCur { d with vec := { d.vec with vl := L }, run := some r }
              s.putRows d w L [(row, tok.elems)]
          | [] =>
            if left && d.cst.run then s.notReady 12
            else s.complete { d with vec := { d.vec with vl := 0 } })) s

/-- QSPACE (R309). -/
def execQspace (a q : Reg) (s : State) : Res :=
  if !isQueue q then s.trapIssue cILLOP
  else queueOp (fun s _ _ r => s.completeG a (wordOf (8 - (r.queue q.toNat).tokens.length))) s

/-- QCNT (R309). -/
def execQcnt (a q : Reg) (s : State) : Res :=
  if !isQueue q then s.trapIssue cILLOP
  else queueOp (fun s _ _ r =>
    let x := r.queue q.toNat
    let hl := ((x.tokens.head?).map (fun t => t.elems.length)).getD 0
    s.completeG a (wordOf (x.hs % pow2 42 * pow2 11 + hl * 16 + x.tokens.length))) s

/-- QCLR (R309). -/
def execQclr (q : Reg) (s : State) : Res :=
  if !isQueue q then s.trapIssue cILLOP
  else queueOp (fun s d _ r =>
    if d.cst.run || d.cst.rs then s.trapIssue cILLOP
    else
      let x := r.queue q.toNat
      s.complete { d with run := d.run.map (fun r => { r with queues := r.queues.set q.toNat ⟨x.hs + x.tokens.length, []⟩ }) }) s

end Sys2Proof.Machine
end

