-- ==== Sys2Proof/Machine/Book.lean ====
section
/-! DEFINITION. The BKG instructions (R332 to R336). The search of BOOK and BKQRY ends at the next quantum boundary (log 30); until
then the register that receives its result holds back the instructions that name it (R44). -/
namespace Sys2Proof.Machine

/-- BOOK or BKQRY once its profile has been read: the search goes on in the background (R333, R334). -/
def State.beginSearch (s : State) (a : Reg) (es : Option (List BookEntry)) (query : Bool) : Res :=
  let s := if query then s else s.setBks s.sel 1 s.cur.bks.ref 0
  let d := s.cur
  s.complete { d with bks := { d.bks with search := some ⟨a, es, query⟩ } }

/-- BOOK (R333). -/
def execBook (a b : Reg) (s : State) : Res :=
  let d := s.cur
  if d.bks.st = 1 || d.bks.search.isSome then s.notReady 8
  else (s.loadProfile (s.agentOf s.sel) (d.getG b) d.lgMin d.lgMax).scalar (fun s es =>
    let d := s.cur
    if d.bks.st = 2 || d.bks.st = 3 then s.complete ({ d with bks := { d.bks with ref := 4 } }.setG a (searchWord (.error 4)))
    else s.beginSearch a es false)

/-- BKQRY (R334). -/
def execBkqry (a b : Reg) (s : State) : Res :=
  let d := s.cur
  if d.bks.st = 1 || d.bks.search.isSome then s.notReady 8
  else (s.loadProfile (s.agentOf s.sel) (d.getG b) d.lgMin d.lgMax).scalar (fun s es => s.beginSearch a es true)

/-- The booking of a drover is released: a booked run in progress breaks for the loss and goes on unbooked (R310, R336). -/
def State.releaseBooking (s : State) (key : Nat) : State :=
  let d := s.drover key
  let running := d.cst.run && (d.run.map (fun (r : Run) => r.booked)).getD false
  let s := if running then s.breakRun key 4 0 0xFF 0 none else s
  let s := s.endBooking key 5
  match (s.drover key).run with
  | some r => if running then s.continueRun key r else s
  | none => s

/-- BKREL (R336). -/
def execBkrel (s : State) : Res :=
  let d := s.cur
  if d.bks.st = 1 then s.notReady 8
  else
    let s := if d.bks.st = 2 || d.bks.st = 3 then s.releaseBooking s.sel else s
    s.complete s.cur

/-- BKWAIT (R335). -/
def execBkwait (s : State) : Res :=
  let d := s.cur
  if d.bks.st = 1 then s.notReady 11
  else if d.bks.st = 2 then s.finish (d.await .booking)
  else s.complete d

end Sys2Proof.Machine
end

