-- ==== Sys2Proof/Machine/Task.lean ====
section
/-! DEFINITION. Queues, tasks and scheduling (R362 to R386): the TSK instructions, the resident queues and the touches held for a
swap-in, acceptance, the records, dependences, dispatch, completion. -/
namespace Sys2Proof.Machine

/-! ### Agents and verdicts -/

/-- The agent of a queue's accesses: its context, its HOME die, the level of its SUP bit (log 35). -/
def WorkQueue.agent (q : WorkQueue) (h : Nat) : Agent :=
  sideAgent q.ctx q.home 0 (4096 + h) q.sup (.record h 0)

/-- An access of the queue side has failed: its record is posted, and `who` awaits the verdict (R224, R366). -/
def State.awaitFor (s : State) (die ctx : Nat) (f : FaultInfo) (flock : Nat) (pc aux : Word) (who : Requester) : State :=
  s.post die ctx (engineRecord f 0xFF 0xFF flock pc aux true) (some who)

/-- The record of a failure that awaits no verdict, where its cause posts one (R387). -/
def State.noteFailure (s : State) (die ctx : Nat) (f : FaultInfo) (flock : Nat) (pc aux : Word) : State :=
  if f.records then s.post die ctx (engineRecord f 0xFF 0xFF flock pc aux false) none else s

/-- Whether a requester awaits a verdict or waits to post. -/
def State.awaits (s : State) (r : Requester) : Bool :=
  s.dies.any (fun e => e.2.awaited.any (fun a => a.who.contains r) || e.2.backlog.any (fun b => b.2.2 == some r))

/-! ### Barriers, SIGNAL, WAITV (R233 to R235) -/

/-- BARW (R234). -/
def execBarw (b : Reg) (s : State) : Res :=
  let d := s.cur
  let g := d.getG b
  if !topZero g 1 then s.trapIssue cRESCOMB
  else
    let core := g.getLsbD 0
    let scope := if core then some (coreOf s.sel) else none
    let gen := ((s.flock d.flock).map (fun (f : Flock) => f.genOf scope)).getD 0
    let s := (s.setCur (d.await (.barrier core gen))).barrierRecord s.sel 0 core gen
    .next (s.barrierCheck d.flock scope)

/-- SIGNAL (R235): a release at SYS scope. -/
def execSignal (b c : Reg) (s : State) : Res :=
  s.released ((s.storeAt (s.agentOf s.sel) (s.cur.getG b) (leBytes 8 (s.cur.getG c).toNat)).scalar (fun s _ => s.complete s.cur))

/-- WAITV (R235). -/
def execWaitv (b c : Reg) (s : State) : Res :=
  let va := s.cur.getG b
  let least := s.cur.getG c
  (s.loadAt (s.agentOf s.sel) va 8).scalar (fun s l =>
    if leNat l ≥ least.toNat then s.complete s.cur else s.finish (s.cur.await (.value va least)))

/-- A drover that waits in WAITV reads its line again (R235): the wait ends, or a check that fails takes its trap there. -/
def State.reread (s : State) (key : Nat) : State :=
  let d := s.drover key
  match d.state, d.wait with
  | .awaiting, some (.value va least) =>
    match s.loadAt (s.agentOf key) va 8 with
    | .ok t l => if leNat l ≥ least.toNat then t.wake key else t
    | .fail t f => ((t.setDrover key { d with state := .issuing, wait := none, stall := none }).regrant key).raise key f none false
    | .wait t => t
  | _, _ => s

/-- WAITV_REREAD (R235). -/
def execWaitvReread (key : Nat) (s : State) : Res := .next (s.reread key)

/-! ### Dependences (R372 to R376) -/

/-- The physical address an access would reach; nothing is changed by asking. -/
def State.whereIs (s : State) (ag : Agent) (va : Word) : Option Nat :=
  match s.translate ag .read va with
  | .ok r => some r.2.pa
  | .error _ => none

/-- The address of a TCB's dependence counter. -/
def counterVa (tcb : Word) : Word := tcb + 0x22

/-- The ranges of two tasks conflict: they overlap and one of them is written (R375). -/
def rangesClash (a b : List (Nat × Nat × Bool × Bool)) : Bool :=
  a.any (fun x => b.any (fun y =>
    decide (x.1 < y.1 + y.2.1) && decide (y.1 < x.1 + x.2.1) && (x.2.2.2 || y.2.2.2)))

/-- An earlier live task of the same process and table conflicts with a task (R373, R375). -/
def State.blocked (s : State) (t : Task) : Bool :=
  s.tasks.any (fun e => let x := e.2
    x.ranges && decide (x.seq < t.seq) && x.ctx == t.ctx && x.die == t.die && rangesClash x.tcb.ranges t.tcb.ranges)

/-- Waiting tasks that nothing blocks become ready (R373). -/
def State.wakeTasks (s : State) : State :=
  { s with tasks := s.tasks.map (fun (e : Nat × Task) =>
      if e.2.st == .waiting && !s.blocked e.2 then (e.1, { e.2 with st := .ready, readyAt := s.cycle }) else e) }

/-- A counter that reached 0 is noticed by the armed task it belongs to (R373). -/
def State.noticeZero (s : State) (pa : Nat) : State :=
  let s := { s with tasks := s.tasks.map (fun (e : Nat × Task) =>
    if e.2.st == TaskSt.armed && s.whereIs e.2.agent (counterVa e.2.tcbVa) == some pa then (e.1, { e.2 with st := .waiting }) else e) }
  s.wakeTasks

/-- One indivisible decrement of a counter, which stays at 0 (R372). The value is the old one. -/
def State.decrement (s : State) (ag : Agent) (tcb : Word) : Acc Nat :=
  match s.amoAt ag (counterVa tcb) 2 none (fun old => if old = 0 then none else some (old - 1)) with
  | .ok t old =>
    if old = 1 then match t.whereIs ag (counterVa tcb) with
      | some pa => .ok (t.noticeZero pa) old
      | none => .ok t old
    else .ok t old
  | r => r

/-- DSIG (R372): a release at SYS scope; a counter at 0 posts a record that names the drover (R385). -/
def execDsig (b : Reg) (s : State) : Res :=
  let d := s.cur
  let tcb := d.getG b
  if tcb.toNat % 128 != 0 then .next (s.raiseScalar { FaultInfo.plain cMISALIGN with va := tcb, wr := true })
  else s.released ((s.decrement (s.agentOf s.sel) tcb).scalar (fun s old =>
    let d := s.cur
    let r : FaultRec := { qfaultRecord 4 0 d.flock 0 d.iaddr tcb with flg := 0, pcore := coreOf s.sel, slot := slotOf s.sel }
    let s := if old = 0 then s.post (dieOf s.sel) d.ctx r none else s
    s.complete s.cur))

/-- TDONE (R371): an arrival in the range release, after the drover's earlier accesses. -/
def execTdone (s : State) : Res :=
  s.released (
    let s := (s.setCur { s.cur.retire with tdone := true }).rangesCheck s.cur.flock
    .next s.wakeTasks)

/-! ### Resident queues and touches (R362 to R365) -/

def Touch.die (t : Touch) (home : Nat) : Nat :=
  match t with
  | .tail _ => 0
  | .qcmd k => dieOf k
  | .accept => home

/-- A count modulo 2^32 from one to another. -/
def count32 (a b : Nat) : Nat := (b + pow2 32 - a % pow2 32) % pow2 32
/-- Records the queue holds. -/
def WorkQueue.held (q : WorkQueue) : Nat := count32 q.head q.tail

/-- Records an acceptance sees: those up to TAIL as it stood before a tail write of the same cycle (R386). -/
def State.visible (s : State) (q : WorkQueue) : Nat :=
  match q.old with
  | some (c, t) => if c = s.cycle then Nat.min q.held (count32 q.head t) else q.held
  | none => q.held

/-- A tail write takes effect, or is discarded with subcode 3 (R365). -/
def State.applyTail (s : State) (h : Nat) (q : WorkQueue) (v : Word) : State :=
  if !topZero v 32 || decide (count32 q.head v.toNat > pow2 q.lcap) then s.qfault q.home q.ctx 3 0 0 h 0 0
  else s.setQueue h { q with tail := v.toNat, old := match q.old with
      | some (c, t) => if c = s.cycle then some (c, t) else some (s.cycle, q.tail)
      | none => some (s.cycle, q.tail) }

/-- The touches that are left to a queue. -/
def State.setTouches (s : State) (h : Nat) (rest : List Touch) : State :=
  match s.queue h with
  | some q => s.setQueue h { q with touches := rest }
  | none => s

/-- The touches of a resident queue are applied in the order they arrived (R363); a QCMD's waits for its drover to issue it
again, unless that drover has left it. -/
def State.applyTouches (s : State) (h fuel : Nat) : State :=
  match fuel, s.queue h with
  | k + 1, some q =>
    if !q.resident then s
    else match q.touches with
      | [] => s
      | .tail v :: rest => ((s.setTouches h rest).applyTail h { q with touches := rest } v).applyTouches h k
      | .accept :: rest => (s.setTouches h rest).applyTouches h k
      | .qcmd key :: rest =>
        let d := s.drover key
        if d.state == .issuing && d.stall == some 14 then s else (s.setTouches h rest).applyTouches h k
  | _, _ => s

/-- A touch of a queue: applied at once, or held for the swap-in (R363). -/
def State.touch (s : State) (h : Nat) (t : Touch) : State :=
  match s.queue h with
  | none => s
  | some q =>
    let l := q.touches ++ [t]
    ({ s with nextAge := s.nextAge + 1 }.setQueue h { q with touches := l, fresh := s.nextAge }).applyTouches h l.length

/-- The function that may reach a handle (R434, R438). -/
def State.reaches (s : State) (fn h : Nat) : Bool :=
  match assocGet s.mgmt.fns fn with
  | some f => f.ranges.any (fun r => decide (r.1 ≤ h) && decide (h < r.1 + r.2))
  | none => false

/-- TAIL_WRITE (R365): a write to BAR2. -/
def execTailWrite (fn off n : Nat) (v : Word) (s : State) : Res :=
  let h := off / 8
  .next (if s.mgmt.ready && n == 8 && off % 8 == 0 && decide (h < 131072) && s.reaches fn h then s.touch h (.tail v) else s)

/-- The address of a queue's table entry (R362). -/
def State.entryVa (s : State) (ctx h : Nat) : Word :=
  (((s.context ctx).map (fun (c : Context) => c.qtab)).getD 0) + BitVec.ofNat 64 (64 * h)

/-- A queue as its table entry gives it; `die` stands for a HOME outside its limits. The flag holds where R364 treats the
entry as ERR = 1. -/
def WorkQueue.ofEntry (q : WorkQueue) (l : List Byte) (die : Nat) : WorkQueue × Bool :=
  let flg := fieldAt l 0x0A 1
  let home := fieldAt l 0x0B 1
  let bad := !zerosAt l 0x0C 4 || !zerosAt l 0x28 24 || flg / 8 != 0 || decide (fieldAt l 8 1 < 4) || decide (fieldAt l 8 1 > 16) ||
    decide (fieldAt l 9 1 > 7) || decide (home > 3)
  ({ q with
     resident := true, ring := wordOf (fieldAt l 0 8), lcap := fieldAt l 8 1, prio := fieldAt l 9 1, valid := flg.testBit 0
     sup := flg.testBit 1, err := flg.testBit 2 || bad, home := if home > 3 then die else home, head := fieldAt l 0x10 4
     tail := fieldAt l 0x14 4, stkb := wordOf (fieldAt l 0x18 8), stkl := fieldAt l 0x20 8 }, bad)

/-- A queue that holds no accepted record whose effect is still to come. -/
def WorkQueue.idle (q : WorkQueue) : Bool := q.pend.isEmpty && q.hold == .none && q.launchRead.isNone && q.tag.isNone

/-- The resident queues of a die, and the one a swap-in writes back: the idle one least recently touched (R363). -/
def State.residentOn (s : State) (die : Nat) : List (Nat × WorkQueue) := s.queues.filter (fun e => e.2.resident && e.2.home == die)
def State.victim (s : State) (die : Nat) : Option (Nat × WorkQueue) :=
  match (s.residentOn die).filter (fun e => e.2.idle) with
  | [] => none
  | e :: rest => some (rest.foldl (fun (a b : Nat × WorkQueue) => if b.2.fresh < a.2.fresh then b else a) e)

/-- The agent of queue-table accesses: the handle's context, at supervisor level (log 35). -/
def tableAgent (ctx die h : Nat) : Agent := sideAgent ctx die 0 (4096 + h) true (.swapIn h)

/-- The hardware fields and TAIL of a queue written back to its entry; none where a store of them fails. -/
def State.writeBack (s : State) (h : Nat) (q : WorkQueue) : Option State :=
  let ag := tableAgent q.ctx q.home h
  let va := s.entryVa q.ctx h
  let flg := q.valid.toNat + 2 * q.sup.toNat + 4 * q.err.toNat
  match s.storeAt ag (va + 0x10) (leBytes 4 q.head ++ leBytes 4 q.tail) with
  | .ok s _ => match s.storeAt ag (va + 0x0A) (leBytes 1 flg) with
    | .ok s _ => some (s.setQueue h { q with resident := false })
    | _ => none
  | _ => none

/-- Room for one more resident queue on a die. -/
def State.makeRoom (s : State) (die : Nat) : Option State :=
  if (s.residentOn die).length < 4096 then some s
  else match s.victim die with
    | some (h, q) => s.writeBack h q
    | none => none

/-- The swap-in cannot read the entry: the touch that caused it is discarded, with subcode 2; a held QCMD ends with −2 (R363). With none held
the acceptance of its records caused it: that is not tried again before a later touch. -/
def State.failSwapIn (s : State) (h : Nat) : State :=
  match s.queue h with
  | none => s
  | some q =>
    match q.touches with
    | [] => (s.setQueue h { q with tag := none, head := q.tail }).qfault q.home q.ctx 2 0 0 h 0 (s.entryVa q.ctx h)
    | t :: rest =>
      let s := s.setQueue h { q with tag := none, touches := rest }
      let s := match t with
        | .qcmd key => s.setDrover key { s.drover key with answers := [(1, false)] }
        | _ => s
      s.qfault (t.die q.home) q.ctx 2 0 0 h 0 (s.entryVa q.ctx h)

/-- A swap-in is due: a touch is held, or records stand in a queue that was written back. -/
def WorkQueue.wanted (q : WorkQueue) : Bool := !q.resident && q.tag.isNone && (!q.touches.isEmpty || q.held != 0)

/-- The swap-in of a queue (R363, R364). -/
def State.swapIn (s : State) (h : Nat) : State :=
  match s.queue h with
  | none => s
  | some q =>
    if !q.wanted then s
    else
      let die := ((q.touches.head?).map (fun (t : Touch) => t.die q.home)).getD q.home
      match s.loadBlock (tableAgent q.ctx die h) (s.entryVa q.ctx h) 64 with
      | .wait t => t
      | .fail t f =>
        if f.suspends then (t.setQueue h { q with tag := some 0 }).awaitFor die q.ctx f 0 0 (wordOf h) (.swapIn h)
        else (t.noteFailure die q.ctx f 0 0 (wordOf h)).failSwapIn h
      | .ok t l =>
        let r := q.ofEntry l die
        match t.makeRoom r.1.home with
        | none => s
        | some t =>
          let t := t.setQueue h r.1
          let t := if r.2 then t.qfault r.1.home q.ctx 2 0 0 h 0 0 else t
          t.applyTouches h (q.touches.length + 1)

/-- QUEUE_SWAP_IN (R363). -/
def execQueueSwapIn (h : Nat) (s : State) : Res := .next (s.swapIn h)

/-! ### QCMD (R370) -/

/-- The ring place of record n. -/
def WorkQueue.recordVa (q : WorkQueue) (n : Nat) : Word := q.ring + BitVec.ofNat 64 (64 * (n % pow2 q.lcap))

/-- The append of QCMD on a resident queue whose turn it is. -/
def State.append (s : State) (a : Reg) (h : Nat) (q : WorkQueue) (l : List Byte) : Res :=
  let key := s.sel
  let d := s.cur
  if !q.valid || q.err then s.completeG a (-2)
  else if q.sup && !d.tr.sup then s.completeG a (-3)
  else if q.held ≥ pow2 q.lcap then s.completeG a (-1)
  else if s.releasePending key then s.notReady 14
  else match s.storeAt { q.agent h with key := key } (q.recordVa q.tail) l with
    | .ok s _ =>
      let s := s.setQueue h { q with tail := (q.tail + 1) % pow2 32, fresh := s.nextAge }
      { s with nextAge := s.nextAge + 1 }.completeG a (wordOf q.tail)
    | .wait s => s.notReady 14
    | .fail s f =>
      let tcb := (((s.flock d.flock).bind (fun x => s.task x.task)).map (fun (t : Task) => t.tcbVa)).getD 0
      let r := engineRecord f (coreOf key) (slotOf key) d.flock tcb (wordOf h)
      if f.suspends then (s.post (dieOf key) d.ctx (r true) (some (.ring key h))).notReady 14
      else
        let s := if f.records then s.post (dieOf key) d.ctx (r false) none else s
        (s.setQueue h { q with err := true }).completeG a (-4)

/-- QCMD with its record read: a queue that is not resident, or has earlier touches held, holds it (R363). -/
def State.submit (s : State) (a : Reg) (h : Nat) (l : List Byte) : Res :=
  match s.queue h with
  | none => s.completeG a (-2)
  | some q0 =>
    if q0.ctx != s.cur.ctx then s.completeG a (-2)
    else if s.awaits (.ring s.sel h) then s.notReady 14
    else
      let s := s.applyTouches h (q0.touches.length + 1)
      match s.queue h with
      | none => s.completeG a (-2)
      | some q =>
        let mine := q.touches.head? == some (.qcmd s.sel)
        if q.resident && (mine || q.touches.isEmpty) then
          let rest := q.touches.drop 1
          match s.append a h { q with touches := rest } l with
          | .next t => .next (t.applyTouches h (rest.length + 1))
          | r => r
        else
          let s := if q.touches.contains (.qcmd s.sel) then s else s.setQueue h { q with touches := q.touches ++ [.qcmd s.sel] }
          s.notReady 14

/-- QCMD (R370). A verdict that ended its ring write or its swap-in stands in `answers`. -/
def execQcmd (a b c : Reg) (s : State) : Res :=
  let d := s.cur
  let g := d.getG b
  let h := g.toNat
  if !topZero g 17 then s.trapIssue cRESCOMB
  else match d.answers with
    | (0, _) :: _ =>
      let s := match s.queue h with
        | some q => s.setQueue h { q with err := true }
        | none => s
      s.complete ({ d with answers := [] }.setG a (-4))
    | _ :: _ => s.complete ({ d with answers := [] }.setG a (-2))
    | [] => (s.loadBlock (s.agentOf s.sel) (d.getG c) 64).scalar (fun s l => s.submit a h l)

/-! ### Acceptance (R366 to R368) -/

/-- Every task that the queue admitted has completed or been aborted. -/
def State.tasksOver (s : State) (h : Nat) : Bool := s.tasks.all (fun e => e.2.handle != h || e.2.st == .ended)

/-- What holds the next record back is over (R366). A FENCE waits until the stores of the earlier records are performed at SYS scope. -/
def State.holdOver (s : State) (h : Nat) (q : WorkQueue) : Bool :=
  match q.hold with
  | .none => true
  | .barrier => s.tasksOver h
  | .waitval _ _ => false
  | .fence => q.pend.isEmpty && !s.releasePending (q.agent h).key

/-- The head record of a queue can be accepted (R364, R368). -/
def State.acceptable (s : State) (h : Nat) (q : WorkQueue) : Bool :=
  q.resident && q.valid && !q.err && q.tag.isNone && s.visible q != 0 && s.holdOver h q

/-- A LAUNCH that waits for room in the matching table of its die (R367). -/
def WorkQueue.stuck (q : WorkQueue) : Bool := q.launchRead.isSome && q.launchSeq.isNone

/-- The queue whose record a die accepts next (R367, R368). -/
def State.chosen (s : State) (die : Nat) : Option Nat :=
  match (s.residentOn die).find? (fun e => e.2.stuck) with
  | some e => some e.1
  | none =>
    let l := (s.residentOn die).filter (fun e => s.acceptable e.1 e.2)
    let best := (l.map (fun (e : Nat × WorkQueue) => e.2.prio)).foldl Nat.min 8
    let hs := (l.filter (fun e => e.2.prio == best)).map (·.1)
    match hs.find? (fun h => decide (h ≥ (s.die die).accPtr)) with
    | some h => some h
    | none => hs.head?

/-- The pointer of the die moves past the queue, and the record is taken from the ring (R368). -/
def State.advance (s : State) (h : Nat) : State :=
  match s.queue h with
  | none => s
  | some q =>
    let s := s.setDie q.home { s.die q.home with accPtr := (h + 1) % 131072 }
    s.setQueue h { q with head := (q.head + 1) % pow2 32, hold := .none, launchRead := none, launchSeq := none, fresh := s.nextAge }

/-- A change to a queue. -/
def State.mapQueue (s : State) (h : Nat) (f : WorkQueue → WorkQueue) : State :=
  match s.queue h with
  | some q => s.setQueue h (f q)
  | none => s

/-- Bytes of a record its kind uses, and the limits of its payload (R366). A payload outside the limits of R366's table is malformed
(DESIGN CHOICE, log 59), but a misaligned TCB VA refuses the launch (R28, R33). -/
def recordUse (kind : Nat) : Nat :=
  match kind with
  | 1 => 16
  | 3 | 4 => 24
  | 5 | 6 => 32
  | _ => 8
def recordBad (l : List Byte) : Bool :=
  let k := fieldAt l 0 1
  decide (k > 7) || !zerosAt l 1 7 || !zerosAt l (recordUse k) (64 - recordUse k) ||
  ((k == 3 || k == 4) && fieldAt l 8 8 % 8 != 0) || (k == 5 && decide (fieldAt l 0x18 8 > pow2 32)) ||
  (k == 6 && (decide (fieldAt l 0x10 8 > 255) || fieldAt l 0x18 8 % 8 != 0))

/-- A record that cannot be read is not accepted: ERR and subcode 2 (R366). -/
def State.refuseRecord (s : State) (h : Nat) : State :=
  match s.queue h with
  | none => s
  | some q => (s.setQueue h { q with err := true, tag := none }).qfault q.home q.ctx 2 0 0 h 0 (q.recordVa q.head)

/-! ### LAUNCH (R28 to R34, R367) -/

/-- One declared range of a TCB: base, length, R, W (R28). -/
def tcbRange (l : List Byte) (i : Nat) : Nat × Nat × Bool × Bool :=
  let b := fieldAt l (0x48 + 16 * i) 8
  (b / 4 * 4, fieldAt l (0x50 + 16 * i) 8, b.testBit 1, b.testBit 0)

/-- A TCB as its 128 bytes give it, after the substitutions of R20. Ranges that take no entry are left out (R375). -/
def Tcb.ofBytes (l : List Byte) : Tcb :=
  let flg := fieldAt l 0x21 1
  { entry := wordOf (fieldAt l 0 8), args := wordOf (fieldAt l 8 8), cores := fieldAt l 0x10 2, drovers := fieldAt l 0x12 1
    place := fieldAt l 0x13 1, lgMin := if fieldAt l 0x14 1 = 0 then 1 else fieldAt l 0x14 1
    lgMax := if fieldAt l 0x15 1 = 0 then 16 else fieldAt l 0x15 1, rows8 := fieldAt l 0x16 1, accs := fieldAt l 0x17 1
    tmem := fieldAt l 0x18 4, stack := fieldAt l 0x1C 4, prio := fieldAt l 0x20 1, sup := flg.testBit 2, tsh := flg.testBit 1
    succ := flg.testBit 0, deps := fieldAt l 0x22 2, succVa := wordOf (fieldAt l 0x28 8), bookVa := wordOf (fieldAt l 0x30 8)
    sigVa := wordOf (fieldAt l 0x38 8), sigVal := wordOf (fieldAt l 0x40 8)
    ranges := ((List.range (fieldAt l 0x24 1)).map (tcbRange l)).filter (fun r => (r.2.2.1 || r.2.2.2) && r.2.1 != 0) }

/-- A TCB that R33 refuses: a limit of R28, R29 or R31 is broken, a res0 byte is set, or no placement could ever hold it
(R25, R379). -/
def tcbBad (l : List Byte) (stkl : Nat) : Bool :=
  let t := Tcb.ofBytes l
  !isCanon t.entry || t.entry.toNat % 4 != 0 || t.cores == 0 || decide (t.cores > 256) || t.drovers == 0 || decide (t.drovers > 8) ||
  decide (t.place > 2) || decide (t.lgMin > 16) || decide (t.lgMax > 16) || decide (t.lgMax < t.lgMin) || t.rows8 == 0 ||
  decide (t.rows8 > 32) || decide (t.accs > 4) || t.tmem % 4096 != 0 || decide (t.tmem > 0x400000) || t.stack % 16 != 0 ||
  decide (t.prio > 7) || decide (fieldAt l 0x21 1 > 7) || decide (fieldAt l 0x24 1 > 3) || !zerosAt l 0x25 3 ||
  !zerosAt l (0x48 + 16 * fieldAt l 0x24 1) (48 - 16 * fieldAt l 0x24 1) ||
  t.succVa.toNat % 8 != 0 || t.sigVa.toNat % 8 != 0 || (t.place == 1 && decide (t.cores > 64)) ||
  decide (t.drovers * t.lgMin > 16) || decide (t.drovers * t.accs > 16) || decide (t.cores * t.drovers * t.stack > stkl)

/-- The task of a LAUNCH as it enters. -/
def newTask (q : WorkQueue) (h : Nat) (va : Word) (t : Tcb) (seq : Nat) (st : TaskSt) : Task :=
  { seq := seq, tcbVa := va, tcb := t, ctx := q.ctx, handle := h, die := q.home, st := st, readyAt := 0, ranges := !t.ranges.isEmpty
    flock := 0, place := [], stack := none, aged := false, stage := 0, blocked := false, aborted := false, tryAt := 0, stored := false, listed := false }

/-- A task takes the next key. -/
def State.addTask (s : State) (t : Task) : State × Nat :=
  ({ s with nextKey := s.nextKey + 1 }.setTask s.nextKey t, s.nextKey)

/-- A refused launch: subcodes 1 and 5 and, once its TCB is known, its successors (R33, R367, R383, R384). -/
def State.refuseLaunch (s : State) (h : Nat) (va : Word) (t : Option Tcb) (bad : Word) : State :=
  match s.queue h with
  | none => s
  | some q =>
    let s := (s.setQueue h { q with tag := none }).advance h
    match t with
    | none => (s.qfault q.home q.ctx 1 0 0 h va bad).qfault q.home q.ctx 5 0 0 h va 0
    | some t =>
      let r := s.addTask { newTask q h va t 0 .waiting with ranges := false }
      (r.1.endAborted r.2 0 1 bad).abortSuccessors r.1.abortDepth r.2

/-- Entries of a die's matching table (R375), with those kept for a LAUNCH that has its number (R367). -/
def State.tableUse (s : State) (die : Nat) : Nat :=
  s.queues.foldl (fun a (e : Nat × WorkQueue) => match e.2.launchSeq, e.2.launchRead with
    | some _, some (_, t) => if e.2.home == die then a + t.ranges.length else a
    | _, _ => a)
    (s.tasks.foldl (fun a (e : Nat × Task) => if e.2.ranges && e.2.die == die then a + e.2.tcb.ranges.length else a) 0)

/-- The counter as memory holds it now, or as the TCB gave it (R373). -/
def State.counterNow (s : State) (ag : Agent) (va : Word) (t : Tcb) : Nat :=
  match s.loadAt ag (counterVa va) 2 with
  | .ok _ l => leNat l
  | _ => t.deps

/-- Steps 4 and 5 of R367: the task enters, aborted at once under a mark (R384). -/
def State.enterTask (s : State) (h : Nat) (q : WorkQueue) (va : Word) (t : Tcb) (seq : Nat) : State :=
  let st : TaskSt := if s.counterNow (q.agent h) va t = 0 then .waiting else .armed
  let r := (s.advance h).addTask (newTask q h va t seq st)
  let s := r.1
  if s.marks.contains (q.ctx, va.toNat) then
    ({ s with marks := s.marks.filter (fun m => m != (q.ctx, va.toNat)) }).abortTask r.2 0 5 0
  else s.wakeTasks

/-- A LAUNCH whose TCB is read and checked: room, the number, the entry (R367). -/
def State.admitLaunch (s : State) (h : Nat) (va : Word) (t : Tcb) : State :=
  match s.queue h with
  | none => s
  | some q =>
    if q.launchSeq.isNone && s.tableUse q.home + t.ranges.length > 4096 then s
    else
      let n := q.launchSeq.getD s.seqNo
      let s := if q.launchSeq.isNone then { s with seqNo := s.seqNo + 1 } else s
      let q := { q with launchSeq := some n }
      let s := s.setQueue h q
      match s.storeAt (q.agent h) (va + 0x78) (leBytes 8 n) with
      | .ok s _ => s.enterTask h q va t n
      | .wait s => s
      | .fail s f =>
        if f.suspends then (s.setQueue h { q with tag := some 0 }).awaitFor q.home q.ctx f 0 va (wordOf h) (.launch h)
        else (s.noteFailure q.home q.ctx f 0 va (wordOf h)).refuseLaunch h va (some t) f.va

/-- The acceptance of a LAUNCH (R367). -/
def State.acceptLaunch (s : State) (h : Nat) (va : Word) : State :=
  match s.queue h with
  | none => s
  | some q =>
    if va.toNat % 128 != 0 then s.refuseLaunch h va none 0
    else match s.loadBlock (q.agent h) va 128 with
    | .wait s => s
    | .fail s f =>
      if f.suspends then (s.setQueue h { q with tag := some 0 }).awaitFor q.home q.ctx f 0 va (wordOf h) (.launch h)
      else (s.noteFailure q.home q.ctx f 0 va (wordOf h)).refuseLaunch h va none f.va
    | .ok s l =>
      let t := Tcb.ofBytes l
      if tcbBad l q.stkl || (t.sup && !q.sup) then s.refuseLaunch h va (some t) 0
      else (s.setQueue h { q with launchRead := some (va, t) }).admitLaunch h va t

/-! ### SIGNAL, COPY and BOOK records, WAITVAL (R366) -/

def Pending.number (p : Pending) : Nat :=
  match p with
  | .signal n _ _ _ _ | .copy n _ _ _ _ | .book n _ _ _ _ => n
def Pending.tagged (p : Pending) (t : Option Nat) : Pending :=
  match p with
  | .signal n va v l _ => .signal n va v l t
  | .copy n a b len _ => .copy n a b len t
  | .book n a c r _ => .book n a c r t
def Pending.waits (p : Pending) : Bool :=
  match p with
  | .signal _ _ _ _ t | .copy _ _ _ _ t | .book _ _ _ _ t => t.isSome

/-- A record's effect is replaced, or it is over. -/
def State.putPending (s : State) (h n : Nat) (p : Pending) : State :=
  s.mapQueue h (fun q => { q with pend := q.pend.map (fun x => if x.number == n then p else x) })
def State.endPending (s : State) (h n : Nat) (err : Bool) : State :=
  s.mapQueue h (fun q => { q with pend := q.pend.filter (fun x => x.number != n), err := q.err || err })

/-- An access of a record's effect has failed: it awaits a verdict, or the record ends with ERR (R366). -/
def State.failPending (s : State) (h : Nat) (q : WorkQueue) (p : Pending) (f : FaultInfo) : State :=
  if f.suspends then (s.putPending h p.number (p.tagged (some 0))).awaitFor q.home q.ctx f 0 0 (wordOf h) (.record h p.number)
  else (s.noteFailure q.home q.ctx f 0 0 (wordOf h)).endPending h p.number true

/-- An effect that is not a COPY's is performed if it can be. -/
def State.performPending (s : State) (h : Nat) (p : Pending) : State :=
  match s.queue h with
  | none => s
  | some q =>
    let ag := q.agent h
    if p.waits then s
    else match p with
      | .signal n va v after _ =>
        if after.any (fun i => ((s.task i).map (fun (t : Task) => t.st != .ended)).getD false) || s.releasePending ag.key then s
        else match s.storeAt ag va (leBytes 8 v.toNat) with
          | .ok s _ => s.endPending h n false
          | .fail s f => s.failPending h q p f
          | .wait s => s
      | .book n profile core result _ =>
        match s.loadProfile ag profile 1 16 with
        | .fail s f => s.failPending h q p f
        | .wait s => s
        | .ok s es =>
          let r := searchWord (s.searchOn ag core 2048 s.bookings es)
          match s.storeAt ag result (leBytes 8 r.toNat) with
          | .ok s _ => s.endPending h n false
          | .fail s f => s.failPending h q p f
          | .wait s => s
      | .copy _ _ _ _ _ => s

/-- The read that ends a WAITVAL (R366). -/
def State.readHold (s : State) (h : Nat) : State :=
  match s.queue h with
  | none => s
  | some q =>
    match q.hold, q.tag with
    | .waitval va v, none =>
      match s.loadAt (q.agent h) va 8 with
      | .ok s l => if leNat l ≥ v.toNat then s.mapQueue h (fun q => { q with hold := .none }) else s
      | .wait s => s
      | .fail s f =>
        if f.suspends then
          (s.setQueue h { q with tag := some 0 }).awaitFor q.home q.ctx f 0 0 (wordOf h) (.record h (count32 1 q.head))
        else (s.noteFailure q.home q.ctx f 0 0 (wordOf h)).mapQueue h (fun q => { q with hold := .none, err := true })
    | _, _ => s

/-- What the accepted records of a queue can still do is tried again. -/
def State.runQueue (s : State) (h : Nat) : State :=
  match s.queue h with
  | none => s
  | some q => q.pend.foldl (fun s p => s.performPending h p) s
def State.runQueues (s : State) : State := s.queues.foldl (fun (s : State) (e : Nat × WorkQueue) => s.runQueue e.1) s
def State.readHolds (s : State) : State := s.queues.foldl (fun (s : State) (e : Nat × WorkQueue) => s.readHold e.1) s

/-- Bytes of a COPY move one by one in ascending address order; where it stops, and why. `cover` lists the lines of the
destination that the copy covers. -/
def copyBytes (ag : Agent) (cover : List Nat) (src dst : Word) (n : Nat) (s : State) : State × Nat × Option Stop :=
  match n with
  | 0 => (s, 0, none)
  | k + 1 =>
    match s.loadAt ag src 1 with
    | .fail s f => (s, n, some (.fault f))
    | .wait s => (s, n, some .wait)
    | .ok s l => match s.storeCover ag dst l cover with
      | .fail s f => (s, n, some (.fault f))
      | .wait s => (s, n, some .wait)
      | .ok s _ => copyBytes ag cover (src + 1) (dst + 1) k s

/-- The lines a copy covers whole, asked only where some line is in error (R410). -/
def State.copyCover (s : State) (dst : Word) (n : Nat) : List Nat :=
  if s.poison.isEmpty && s.bad.isEmpty then []
  else (linesOf dst.toNat n).filter (fun l => decide (dst.toNat ≤ 64 * l) && decide (64 * l + 64 ≤ dst.toNat + n))

/-- A COPY record's work (R366): done, awaiting, or ended by a failure with the bytes before it written. -/
def State.moveCopy (s : State) (h : Nat) (q : WorkQueue) (p : Pending) : State :=
  match p with
  | .copy n src dst len none =>
    let ag := q.agent h
    match copyBytes ag (s.copyCover dst len) src dst len s with
    | (s, left, stop) =>
      let done := BitVec.ofNat 64 (len - left)
      let p := Pending.copy n (src + done) (dst + done) left none
      let s := s.putPending h n p
      match stop with
      | none => if s.releasePending ag.key then s else s.endPending h n false
      | some .wait => s
      | some (.fault f) => s.failPending h q p f
  | _ => s

def WorkQueue.pending (q : WorkQueue) (n : Nat) : Option Pending := q.pend.find? (fun p => p.number == n)

/-- COPY_RECORD_COMPLETE (R366). -/
def execCopyRecordComplete (h n : Nat) (s : State) : Res :=
  match s.queue h with
  | none => .next s
  | some q => match q.pending n with
    | some p => .next (s.moveCopy h q p)
    | none => .next s

/-- The effect of an accepted record that is not a LAUNCH. -/
def State.takeRecord (s : State) (h n : Nat) (l : List Byte) : State :=
  let w := fun off => wordOf (fieldAt l off 8)
  let push := fun (p : Pending) => s.mapQueue h (fun q => { q with pend := q.pend ++ [p] })
  let live := (s.tasks.filter (fun e => e.2.handle == h && e.2.st != .ended)).map (·.1)
  match fieldAt l 0 1 with
  | 2 => s.mapQueue h (fun q => { q with hold := .barrier })
  | 3 => (push (.signal n (w 8) (w 0x10) live none)).runQueue h
  | 4 => (s.mapQueue h (fun q => { q with hold := .waitval (w 8) (w 0x10) })).readHold h
  | 5 => push (.copy n (w 8) (w 0x10) (fieldAt l 0x18 8) none)
  | 6 => (push (.book n (w 8) (fieldAt l 0x10 8) (w 0x18) none)).runQueue h
  | 7 => s.mapQueue h (fun q => { q with hold := .fence })
  | _ => s

/-- The acceptance of the head record of a queue, if its die takes that queue next and the record is of a kind asked for;
a record of no kind is taken by any (R366 to R368). -/
def State.accept_ (s : State) (h : Nat) (kind : Nat → Bool) : State :=
  match s.queue h with
  | none => s
  | some q =>
    if s.chosen q.home != some h then s
    else match q.launchRead with
      | some (va, t) => if kind 1 then s.admitLaunch h va t else s
      | none => match s.loadBlock (q.agent h) (q.recordVa q.head) 64 with
        | .wait t => t
        | .fail t f =>
          if f.suspends then (t.setQueue h { q with tag := some 0 }).awaitFor q.home q.ctx f 0 0 (wordOf h) (.record h q.head)
          else (t.noteFailure q.home q.ctx f 0 0 (wordOf h)).refuseRecord h
        | .ok t l =>
          let k := fieldAt l 0 1
          if !(kind k || decide (k > 7)) then s
          else if recordBad l then ((t.advance h).mapQueue h (fun q => { q with err := true })).qfault q.home q.ctx 2 0 0 h 0 0
          else if k = 1 then t.acceptLaunch h (wordOf (fieldAt l 8 8))
          else (t.advance h).takeRecord h q.head l

/-- NOP_RECORD (R366). -/
def execNopRecord (h : Nat) (s : State) : Res := .next (s.accept_ h (· == 0))
/-- LAUNCH_RECORD (R367). -/
def execLaunchRecord (h : Nat) (s : State) : Res := .next (s.accept_ h (· == 1))
/-- BARRIER_RECORD (R366). -/
def execBarrierRecord (h : Nat) (s : State) : Res := .next (s.accept_ h (· == 2))
/-- SIGNAL_RECORD (R366): the store follows once the earlier tasks of the queue have ended. -/
def execSignalRecord (h : Nat) (s : State) : Res := .next (s.accept_ h (· == 3))
/-- WAITVAL_RECORD (R366). -/
def execWaitvalRecord (h : Nat) (s : State) : Res := .next (s.accept_ h (· == 4))
/-- COPY_RECORD (R366): the copy is performed at its completion. -/
def execCopyRecord (h : Nat) (s : State) : Res := .next (s.accept_ h (· == 5))
/-- BOOK_RECORD (R366). -/
def execBookRecord (h : Nat) (s : State) : Res := .next (s.accept_ h (· == 6))
/-- FENCE_RECORD (R366). -/
def execFenceRecord (h : Nat) (s : State) : Res := .next (s.accept_ h (· == 7))

/-! ### Dispatch and placement (R25, R31, R377 to R380) -/

/-- The rectangle of a flock (R31). -/
def ceilSqrt (n : Nat) : Nat := ((List.range 17).find? (fun w => decide (w * w ≥ n))).getD 16
def Tcb.width (t : Tcb) : Nat :=
  match t.place with
  | 0 => Nat.min 16 (ceilSqrt t.cores)
  | 1 => Nat.min 8 (ceilSqrt t.cores)
  | _ => Nat.min 16 t.cores
def Tcb.height (t : Tcb) : Nat := (t.cores + t.width - 1) / t.width
/-- The cores of a placement in fill order. -/
def Tcb.coresAt (t : Tcb) (x0 y0 : Nat) : List Nat := (List.range t.cores).map (fun i => coreAt (x0 + i % t.width) (y0 + i / t.width))
/-- Mode 1 keeps the rectangle within one die. -/
def Tcb.inDie (t : Tcb) (x0 y0 : Nat) : Bool :=
  t.place != 1 || (x0 / 8 == (x0 + t.width - 1) / 8 && y0 / 8 == (y0 + t.height - 1) / 8)

/-- The drovers that hold slots of a core. -/
def State.onCore (s : State) (core : Nat) : List (Nat × Drover) := s.drovers.filter (fun e => coreOf e.1 == core)

/-- Tile-memory regions that flocks hold on a core: flock, base, length. -/
def State.regionsOn (s : State) (core : Nat) : List (Nat × Nat × Nat) :=
  s.flocks.filterMap (fun (e : Nat × Flock) =>
    match assocGet e.2.tmemBase core with
    | some b => if e.2.tmemLen = 0 then none else some (e.1, b, e.2.tmemLen)
    | none => none)

/-- The lowest base of a region for a flock: clear of every allocation, else of those that are not halted (R25, R407). -/
def State.tileRun (s : State) (core len : Nat) : Option Nat :=
  let rs := s.regionsOn core
  let clear := fun (rs : List (Nat × Nat × Nat)) (b : Nat) => decide (b + len ≤ 0x400000) &&
    rs.all (fun r => decide (b + len ≤ r.2.1) || decide (r.2.1 + r.2.2 ≤ b))
  let bases := (List.range 1024).map (4096 * ·)
  if len = 0 then some 0
  else match bases.find? (clear rs) with
    | some b => some b
    | none => bases.find? (fun b => clear (rs.filter (fun r => !s.flockHalted r.1)) b && s.canClear core 0 b (b + len) &&
        s.saveFree core 2048 0 b (b + len))

/-- Cores that other tasks hold for a booked start or a profile read (R380). -/
def State.coresHeld (s : State) (id : Nat) : List Nat := s.tasks.flatMap (fun (e : Nat × Task) => if e.1 = id then [] else e.2.place)

/-- A core admits a task's drovers (R25, R329): the sums are over its resident drovers, exited and halted ones among them (R19). -/
def State.admits (s : State) (t : Tcb) (core : Nat) : Bool :=
  let l := s.onCore core
  let sum := fun (f : Drover → Nat) => l.foldl (fun a (e : Nat × Drover) => a + f e.2) 0
  let bare := l.foldl (fun a (e : Nat × Drover) =>
    if s.bookings.any (fun b => b.owner == some e.1 && b.withholds != 0) then a else a + e.2.lgMin) (t.drovers * t.lgMin)
  decide (l.length + t.drovers ≤ 8) && decide (sum (·.lgMin) + t.drovers * t.lgMin ≤ 16) &&
    decide (sum (·.accAlloc) + t.drovers * t.accs ≤ 16) &&
    decide (((s.regionsOn core).map (fun r => r.2.2)).sum + t.tmem ≤ 0x400000) && (s.tileRun core t.tmem).isSome &&
    (withheldBy s.bookings core == 0 || decide (bare ≤ 16 - popcount 16 (withheldBy s.bookings core)))

/-- The lowest free run of a stack pool (R379). -/
def freeRun (lo hi size : Nat) (used : List (Nat × Nat)) : Option Nat :=
  let starts := sortBy (fun a b => decide (a ≤ b)) (lo :: used.map (fun (u : Nat × Nat) => u.1 + u.2))
  starts.find? (fun b => decide (lo ≤ b) && decide (b + size ≤ hi) && used.all (fun u => decide (b + size ≤ u.1) || decide (u.1 + u.2 ≤ b)))

/-- The first placement of a task: its cores in fill order, and the base of its stacks (R379). -/
def State.placement (s : State) (id : Nat) (t : Task) : Option (List Nat × Nat) :=
  match s.queue t.handle with
  | none => none
  | some q =>
    let size := t.tcb.cores * t.tcb.drovers * t.tcb.stack
    match freeRun q.stkb.toNat (q.stkb.toNat + q.stkl) size q.stackBlocks with
    | none => none
    | some stk =>
      let w := t.tcb.width
      let h := t.tcb.height
      let origins := (List.range (17 - h)).flatMap (fun y => (List.range (17 - w)).map (fun x => (x, y)))
      let taken := s.coresHeld id
      let ok := (List.range 256).filter (fun c => !taken.contains c && s.admits t.tcb c)
      match origins.find? (fun (o : Nat × Nat) => t.tcb.inDie o.1 o.2 && (t.tcb.coresAt o.1 o.2).all (fun c => ok.contains c)) with
      | some o => some (t.tcb.coresAt o.1 o.2, stk)
      | none => none

/-- A drover as its flock starts (R32, R35). -/
def newDrover (t : Task) (flock : Nat) (cycle : Nat) (cores core ord stk : Nat) (region : Nat) : Drover :=
  let b := t.tcb
  let index := core * b.drovers + ord
  let share := b.tmem / (4096 * b.drovers) * 4096
  let g : List (Reg × Nat) := [(2, stk + (index + 1) * b.stack), (3, b.args.toNat), (4, index), (5, cores * b.drovers), (6, core), (7, t.seq)]
  let d : Drover := { Drover.reset with
    flock := flock, ctx := t.ctx, fcore := core, index := index, rowsAlloc := 8 * b.rows8, accAlloc := b.accs, lgMin := b.lgMin
    lgMax := b.lgMax, tileLo := region + ord * share, tileLen := share, pc := b.entry, state := .issuing
    tr := { TrapRegs.reset with sup := b.sup }, born := cycle }
  g.foldl (fun (d : Drover) e => d.setG e.1 (wordOf e.2)) d

/-- The lowest free drover slots of a core. -/
def State.freeSlotKeys (s : State) (core n : Nat) : List Nat := ((keysOf core).filter (fun k => (assocGet s.drovers k).isNone)).take n

/-- The drovers of a flock on its core of an index, with their tile region (R25, R30, R407). -/
def State.startCore (s : State) (t : Task) (flock cores stk : Nat) (e : Nat × Nat) : State :=
  let base := (s.tileRun e.1 t.tcb.tmem).getD 0
  let s := if t.tcb.tmem = 0 then s else s.clearRegion e.1 flock base (base + t.tcb.tmem)
  let s := match s.flock flock with
    | some f => s.setFlock flock { f with tmemBase := assocPut f.tmemBase e.1 base }
    | none => s
  let s := s.setCore e.1 (s.core e.1)
  ((s.freeSlotKeys e.1 t.tcb.drovers).zipIdx).foldl (fun (s : State) (k : Nat × Nat) =>
    s.setDrover k.1 (newDrover t flock s.cycle cores e.2 k.2 stk base)) s

/-- A flock starts on its cores (R35, R262, R379). Bookings made for the task pass to the drovers of slot ordinal 0 (R338). -/
def State.startFlock (s : State) (id : Nat) (t : Task) (cores : List Nat) (stk : Nat) : State :=
  let f := s.nextFlock
  let fl : Flock :=
    { ctx := t.ctx, task := id, cores := cores, dpc := t.tcb.drovers, gen := 0, coreGen := [], tmemBase := [], tmemLen := t.tcb.tmem
      tsh := t.tcb.tsh, dbg := Debug.reset, ending := false, aborted := false, abortAsked := false }
  let firsts := cores.filterMap (fun c => ((s.freeSlotKeys c 1).head?).map (fun k => (c, k)))
  let s := { s with nextFlock := f + 1 }.setFlock f fl
  let s := cores.zipIdx.foldl (fun (s : State) e => s.startCore t f cores.length stk e) s
  let size := t.tcb.cores * t.tcb.drovers * t.tcb.stack
  let s := s.setTask id { t with st := .running, flock := f, place := [], stack := some (stk, size), blocked := false }
  let s := s.mapQueue t.handle (fun q => { q with stackBlocks := if q.stackBlocks.contains (stk, size) then q.stackBlocks else q.stackBlocks ++ [(stk, size)] })
  let mine := s.bookings.filter (fun b => b.task == some id)
  let s := { s with bookings := s.bookings.map (fun (b : Booking) =>
    if b.task == some id then { b with owner := (firsts.find? (fun e => e.1 == b.core)).map (·.2), task := none, started := true } else b) }
  mine.foldl (fun (s : State) (b : Booking) =>
    match firsts.find? (fun e => e.1 == b.core) with
    | some e => let d := s.drover e.2
      s.setDrover e.2 { d with bks := { d.bks with st := 3, start := wordOf (8 * b.start) } }
    | none => s) s

/-- The entries of a task's profile for its i-th core: its hbm and dlink entries go with the first, its ranges with every core (R338). -/
def entriesFor (es : List BookEntry) (i q : Nat) : List BookEntry :=
  (es.filter (fun e => e.cls ≤ kLink || e.cls == kRange || i == 0)).map (·.shift q)

/-- The search of a task's profile on the calendars of its placement (R338, R380). -/
def State.searchTask (s : State) (t : Task) (cores : List Nat) (es : Option (List BookEntry)) : Except Nat Nat :=
  match es with
  | none => .error 1
  | some es =>
    if s.rangesBad t.agent es then .error 2
    else if cores.any (fun c => linksBad c es) then .error 5
    else match earliest s.quantum es (fun q => cores.all (fun c =>
        s.fitsAt s.bookings c 2048 ((t.tcb.drovers - 1) * t.tcb.lgMin) (es.filter (fun e => e.cls ≤ kLink || e.cls == kRange)) q) &&
        es.all (fun e => s.fitsDie s.bookings (e.shift q))) with
      | some q => .ok q
      | none => .error 3

/-- A booked task: its profile is read and searched on the placement (R380). -/
def State.bookTask (s : State) (id : Nat) (t : Task) (cores : List Nat) (stk : Nat) : State × Bool :=
  match s.loadProfile t.agent t.tcb.bookVa t.tcb.lgMin t.tcb.lgMax with
  | .wait s => (s, false)
  | .fail s f =>
    if f.suspends then
      ((s.setTask id { t with blocked := true, place := cores }).awaitFor t.die t.ctx f 0 t.tcbVa (wordOf t.handle) (.profile id), false)
    else ((s.noteFailure t.die t.ctx f 0 t.tcbVa (wordOf t.handle)).abortTask id 0 6 f.va, false)
  | .ok s es =>
    match s.searchTask t cores es with
    | .ok q =>
      let size := t.tcb.cores * t.tcb.drovers * t.tcb.stack
      let bs := cores.zipIdx.map (fun (e : Nat × Nat) =>
        ({ core := e.1, owner := none, task := some id, start := q, started := false, runStarted := false
           entries := entriesFor (es.getD []) e.2 q } : Booking))
      let s := { s with bookings := s.bookings ++ bs }
      let s := s.mapQueue t.handle (fun q => { q with stackBlocks := q.stackBlocks ++ [(stk, size)] })
      (s.setTask id { t with st := .held q, place := cores, stack := some (stk, size) }, true)
    | .error 3 => (s.setTask id { t with tryAt := 8 * (s.quantum + 1) }, false)
    | .error _ => (s.abortTask id 0 6 0, false)

/-- The ready order (R377). -/
def State.readyOrder (s : State) : List (Nat × Task) :=
  sortBy (fun a b => a.2.tcb.prio < b.2.tcb.prio || (a.2.tcb.prio == b.2.tcb.prio && a.2.seq ≤ b.2.seq))
    (s.tasks.filter (fun e => e.2.st == .ready))

/-- The first ready task has waited 65,536 cycles (R378). -/
def State.ageReady (s : State) : State :=
  match s.readyOrder with
  | (id, t) :: _ => if s.cycle ≥ t.readyAt + 65536 then s.setTask id { t with aged := true } else s
  | [] => s

/-- A task may start unless another has aged that comes before it: no task of equal or lower priority starts until the aged one does,
which may be waiting for its booked start (R378). -/
def State.mayStart (s : State) (t : Task) : Bool :=
  s.tasks.all (fun (e : Nat × Task) =>
    let x := e.2
    !(x.aged && x.st.unstarted) || x.seq == t.seq || decide (t.tcb.prio < x.tcb.prio) || (t.aged && t.tcb.prio == x.tcb.prio && decide (t.seq < x.seq)))

/-- Walk the ready order until one flock starts. -/
def State.dispatchFrom (s : State) (l : List Nat) : State :=
  match l with
  | [] => s
  | id :: rest =>
    match s.task id with
    | none => s.dispatchFrom rest
    | some t =>
    if t.st != .ready || t.blocked || decide (t.tryAt > s.cycle) || !s.mayStart t then s.dispatchFrom rest
    else match s.placement id t with
      | none => s.dispatchFrom rest
      | some (cores, stk) =>
        if t.tcb.bookVa = 0 then s.startFlock id t cores stk
        else match s.bookTask id t cores stk with
          | (s, true) => s
          | (s, false) => s.dispatchFrom rest

/-- The dispatcher (R378). -/
def State.dispatch (s : State) : State :=
  let s := s.wakeTasks.ageReady
  s.dispatchFrom (s.readyOrder.map (·.1))

/-- FLOCK_DISPATCH (R378). -/
def execFlockDispatch (s : State) : Res := .next s.dispatch
/-- READY_AGE_EXPIRY (R378). -/
def execReadyAgeExpiry (s : State) : Res := .next s.ageReady

/-- A booked flock starts once its booked start has come (R338, R380). -/
def State.startHeld (s : State) (id : Nat) : State :=
  match s.task id with
  | none => s
  | some t => match t.st, t.stack with
    | .held q, some (stk, _) => if s.quantum ≥ q then s.startFlock id t t.place stk else s
    | _, _ => s

/-! ### Completion (R37, R381, R384) -/

/-- The decrements of a completing task's successors from one on; the first that waits stops the work (R381). -/
def State.releaseSuccessors (s : State) (id : Nat) (vs : List Word) : State × Bool :=
  match vs with
  | [] => (s, true)
  | v :: rest =>
    match s.task id with
    | none => (s, false)
    | some t =>
      let next := fun (s : State) => match s.task id with
        | some t => s.setTask id { t with stage := t.stage + 1 }
        | none => s
      match s.decrement t.agent v with
      | .ok s old =>
        let s := if old = 0 then s.qfault t.die t.ctx 4 0 t.flock t.handle v 0 else s
        (next s).releaseSuccessors id rest
      | .wait s => (s, false)
      | .fail s f =>
        if f.suspends then
          match s.task id with
          | some t => ((s.setTask id { t with blocked := true }).awaitFor t.die t.ctx f t.flock t.tcbVa (wordOf t.handle) (.successor id), false)
          | none => (s, false)
        else
          let s := s.noteFailure t.die t.ctx f t.flock t.tcbVa (wordOf t.handle)
          (next (s.qfault t.die t.ctx 7 0 t.flock t.handle v f.va)).releaseSuccessors id rest

/-- The task has ended: its stacks are free, and the records that waited for it go on (R366, R379, R381). -/
def State.endTask (s : State) (id : Nat) : State :=
  match s.task id with
  | none => s
  | some t =>
    let s := s.freeStack t.handle t.stack
    (s.setTask id { t with st := .ended, ranges := false, stack := none }).wakeTasks.runQueues

/-- Step 3 of R381 from the task's stage on, then its end. -/
def State.finishSuccessors (s : State) (id : Nat) : State :=
  match s.task id with
  | none => s
  | some t =>
    if t.aborted && !t.tcb.succ then ((s.abortSuccessors s.abortDepth id).wakeTasks).runQueues
    else match s.successors t.agent t.tcb.succVa with
      | .wait s => s
      | .fail s _ => s
      | .ok s (vs, bad) =>
        let s := match bad with
          | some a => if t.listed then s else (s.setTask id { t with listed := true }).qfault t.die t.ctx 7 0 t.flock t.handle t.tcbVa a
          | none => s
        match s.releaseSuccessors id (vs.drop (t.stage - 1)) with
        | (s, true) => s.endTask id
        | (s, false) => s

/-- The completion store is behind: the ranges retire (R376, R381). -/
def State.retireTask (s : State) (id : Nat) : State :=
  match s.task id with
  | none => s
  | some t => ((s.setTask id { t with ranges := false, stage := 1, blocked := false }).wakeTasks).finishSuccessors id

/-- A completing flock's work, as far as it goes (R381): the successors follow once the completion store is performed (R37). -/
def State.completeTask (s : State) (id : Nat) : State :=
  match s.task id with
  | none => s
  | some t =>
    if t.st != .ending || t.blocked then s
    else if t.stage ≥ 1 then s.finishSuccessors id
    else if (s.flockKeys t.flock).any s.releasePending then s
    else
      let s := s.releaseFlock t.flock
      if t.tcb.sigVa = 0 then s.retireTask id
      else if t.stored then (if s.releasePending t.agent.key then s else s.retireTask id)
      else match s.storeAt t.agent t.tcb.sigVa (leBytes 8 t.tcb.sigVal.toNat) with
        | .ok s _ => if s.releasePending t.agent.key then s.setTask id { t with stored := true } else s.retireTask id
        | .wait s => s
        | .fail s f =>
          if f.suspends then
            (s.setTask id { t with blocked := true }).awaitFor t.die t.ctx f t.flock t.tcbVa (wordOf t.handle) (.completion id)
          else ((s.noteFailure t.die t.ctx f t.flock t.tcbVa (wordOf t.handle)).qfault t.die t.ctx 8 0 t.flock t.handle t.tcbVa f.va).retireTask id

/-- FLOCK_COMPLETION (R381). -/
def execFlockCompletion (task : Nat) (s : State) : Res := .next (s.completeTask task)

end Sys2Proof.Machine
end

