-- ==== Sys2Proof/Machine/Host.lean ====
section
/-! DEFINITION. What reaches the package from outside: verdicts and the die control pages (R401 to R403), pre-emption and
resumption (R404 to R409), the management window and its commands (R432 to R458), the host window, scale-out, power, debug triggers. -/
namespace Sys2Proof.Machine

/-! ### Verdicts (R400, R402) -/

/-- A suspended drover whose records all have their verdicts acts on them: it repeats the access, or traps with the
lowest element that received DENY (R400, R402, R409). A word whose own fetch was repeated issues for the first time (R419). -/
def State.conclude (s : State) (key : Nat) : State :=
  let d := s.drover key
  match d.state, d.susp with
  | .trapped, some t =>
    if d.pending.all (fun p => d.answers.any (fun a => a.1 == p.1)) then
      match d.pending.find? (fun p => d.answers.contains (p.1, false)) with
      | none =>
        let word := t.ex && t.fpc == t.epc
        s.setDrover key { d with
          state := .issuing, susp := none, pending := [], answers := [], stall := none, resume := d.resume || !word, again := d.again || !word }
      | some (_, f) => s.takeTrap key (if t.cause = cCHAINF then t else { t with cause := f.cause, va := f.va, wr := f.wr })
    else s
  | _, _ => s

/-- A verdict for a record of a drover. -/
def State.answer (s : State) (key region : Nat) (retry : Bool) : State :=
  let d := s.drover key
  match d.pending.find? (fun p => p.2.va.toNat / 4096 == region) with
  | some (e, _) => (s.setDrover key { d with answers := d.answers ++ [(e, retry)] }).conclude key
  | none => s

/-- A verdict for a queue's record n: its read, the value a WAITVAL waits for, or an accepted record's effect (R366). -/
def State.answerRecord (s : State) (h n : Nat) (retry : Bool) : State :=
  match s.queue h with
  | none => s
  | some q =>
    match q.pending n with
    | some p => if retry then (s.putPending h n (p.tagged none)).runQueue h else s.endPending h n true
    | none =>
      if retry then s.setQueue h { q with tag := none }
      else if n = q.head then s.refuseRecord h
      else s.setQueue h { q with tag := none, hold := .none, err := true }

/-- The verdict of a record reaches one of its requesters (R402). -/
def State.resolve (s : State) (region : Nat) (retry : Bool) (q : Requester) : State :=
  match q with
  | .drover key | .chain key _ => s.answer key region retry
  | .transfer drv ch id =>
    match s.transferOf drv ch id with
    | none => s
    | some t => if retry then s.setTransfer (coreOf drv) { t with tag := none } else s.endTransfer (coreOf drv) t false
  | .record h n => s.answerRecord h n retry
  | .swapIn h => if retry then s.mapQueue h (fun q => { q with tag := none }) else s.failSwapIn h
  | .ring key _ => if retry then s else s.setDrover key { s.drover key with answers := [(0, false)] }
  | .launch h =>
    match s.queue h with
    | none => s
    | some q =>
      if retry then s.setQueue h { q with tag := none }
      else match q.launchRead with
        | some (va, t) => s.refuseLaunch h va (some t) (va + 0x78)
        | none =>
          -- the record names the TCB whose read failed
          let va := match s.loadBlock (q.agent h) (q.recordVa q.head) 64 with
            | .ok _ l => wordOf (fieldAt l 8 8)
            | _ => 0
          s.refuseLaunch h va none va
  | .profile id =>
    match s.task id with
    | none => s
    | some t => if retry then s.setTask id { t with blocked := false, place := [] } else s.abortTask id 0 6 t.tcb.bookVa
  | .completion id =>
    match s.task id with
    | none => s
    | some t =>
      if retry then s.setTask id { t with blocked := false }
      else (s.qfault t.die t.ctx 8 0 t.flock t.handle t.tcbVa t.tcb.sigVa).retireTask id
  | .successor id =>
    match s.task id with
    | none => s
    | some t =>
      let s := s.setTask id { t with blocked := false }
      if retry then s
      else match s.successors t.agent t.tcb.succVa with
        | .ok s (vs, _) =>
          let v := vs.getD (t.stage - 1) 0
          let s := s.setTask id { t with blocked := false, stage := t.stage + 1 }
          s.qfault t.die t.ctx 7 0 t.flock t.handle v (counterVa v)
        | _ => s

/-- VERD (R401, R402). -/
def State.verdict (s : State) (die : Nat) (v : Word) : State :=
  let tag := bitsOf v 0 32
  let d := s.die die
  match d.awaited.find? (fun a => a.tag == tag) with
  | none => s
  | some a =>
    if !topZero v 34 || decide (bitsOf v 32 2 > 1) then s
    else a.who.foldl (fun s q => s.resolve a.region (bitsOf v 32 2 == 0) q) (s.setDie die { d with awaited := d.awaited.filter (fun x => x.tag != tag) })

/-- VERD written (R402). -/
def execVerd (die : Nat) (v : Word) (s : State) : Res := .next (s.verdict die v)

/-! ### Invalidation and HEAD (R401, R403) -/

/-- A write to INVB starts the next invalidation of the die. -/
def State.startInval (s : State) (die : Nat) (v : Word) : State :=
  let d := s.die die
  if !topZero v 34 then s
  else
    let x : Inval := { k := d.invStarted + 1, ctx := bitsOf v 0 16, all := v.getLsbD 32, vpn := bitsOf d.inva 12 44, np := bitsOf v 16 16 + 1, pkg := v.getLsbD 33 }
    s.setDie die { d with invStarted := d.invStarted + 1, invals := d.invals ++ [x] }

/-- INVB written (R403). -/
def execInvb (die : Nat) (v : Word) (s : State) : Res := .next (s.startInval die v)

/-- Whether an invalidation covers a cached translation. -/
def Inval.covers (x : Inval) (t : TlbEntry) : Bool :=
  t.ctx == x.ctx && (x.all || (decide (t.vpn < x.vpn + x.np) && decide (x.vpn < t.vpn + t.pages)))

/-- Drop what an invalidation covers on a die or on the package. -/
def State.dropTlb (s : State) (die : Nat) (x : Inval) : State :=
  { s with dies := s.dies.map (fun (e : Nat × Die) =>
      if x.pkg || e.1 == die then (e.1, { e.2 with tlb := e.2.tlb.filter (fun t => !x.covers t), tlb1 := e.2.tlb1.map (fun c => (c.1, c.2.filter (fun t => !x.covers t))) }) else e) }

/-- INVALIDATION_COMPLETE (R403): the oldest invalidation of the die completes, once no access sent through a port is
outstanding. -/
def execInvalidationComplete (die : Nat) (s : State) : Res :=
  let d := s.die die
  match d.invals with
  | [] => .next s
  | x :: rest =>
    if !s.unacked.isEmpty || !s.reqs.isEmpty then .next s
    else .next ((s.setDie die { d with invals := rest, invDone := x.k % pow2 32 }).dropTlb die x)

/-- A write of HEAD frees ring room, if it is accepted (R397, R401). -/
def State.writeHead (s : State) (die : Nat) (v : Word) : State :=
  let d := s.die die
  if !topZero v 32 || decide (count32 d.head v.toNat > count32 d.head d.tail) then s
  else (s.setDie die { d with head := v.toNat }).drainBacklog die (d.backlog.length + 1)

/-- HEAD_WRITE (R401). -/
def execHeadWrite (die : Nat) (v : Word) (s : State) : Res := .next (s.writeHead die v)

/-- An aligned 8-byte write to a register of a die control page (R401). -/
def State.controlWrite (s : State) (die off : Nat) (v : Word) : State :=
  match off with
  | 0x00 => s.verdict die v
  | 0x08 => if topZero v 56 && zeroBits v 0 12 then s.setDie die { s.die die with inva := v } else s
  | 0x10 => s.startInval die v
  | 0x20 => s.writeHead die v
  | _ => s

/-! ### Pre-emption and resumption (R404 to R409, R348) -/

/-- What a halt does beside halting the drover: its run breaks as by a pre-emption, its booking ends with ST 5, its search is abandoned
with ST 5 (R348, R404, R405, R416). -/
def State.settleHalt (s : State) (key : Nat) : State :=
  let d := s.drover key
  let s := if d.cst.run then s.breakRun key 2 cPREEMPT 0xFF 0 none else s
  let s := if d.bks.st = 2 || d.bks.st = 3 then s.endBooking key 5 else s
  if d.bks.search.isSome || d.bks.st = 1 then
    let s := if d.bks.st = 1 then s.setBks key 5 d.bks.ref 0 else s
    s.setDrover key { s.drover key with bks := { (s.drover key).bks with search := none } }
  else s

/-- A drover halts at its halt point (R404): a capture is discarded, its lane groups released; a debug halt keeps its state alike
(R416). -/
def State.haltNow (s : State) (key : Nat) (dbg : Bool) : State :=
  let s := ((s.settleHalt key).dropCapture key).emitLanes key
  s.setDrover key ((s.drover key).halt dbg false 0)

/-- A drover halts for a pre-emption; one that is halted for debug already stays so. -/
def State.halt (s : State) (key : Nat) : State :=
  let d := s.drover key
  if d.state = .exited then s
  else
    let s := if d.state = .halted then s.settleHalt key else s.haltNow key false
    s.setDrover key { s.drover key with preempted := true }

/-- A run broken by a pre-emption goes on before the drover's next instruction (R312, R409). -/
def State.resumeBroken (s : State) (key : Nat) : State :=
  let d := s.drover key
  if d.cst.rs && (d.run.bind (·.brk)).any (fun b => b.kind == 2 && !b.owed) then
    match s.resumeRun key with
    | .ok s _ => s
    | .fail s f => if d.susp.isSome then s else s.raise key f none false
    | .wait s => s
  else s

/-- A drover that nothing holds halted resumes (R409, R416), once what it accessed before the halt is performed (R263): its run goes on, a
verdict that has come is acted on, and execution continues at EPC. -/
def State.unhalt (s : State) (key : Nat) : State :=
  let d := s.drover key
  if d.state != .halted || d.dbgHalt || d.preempted || s.releasePending key then s
  else match d.susp with
    | some _ => ((s.setDrover key { d with state := .trapped }).resumeBroken key).conclude key
    | none =>
      let d := d.unhold
      let s := match d.wait with
        | some _ => s.setDrover key { d with state := .awaiting }
        | none => (s.setDrover key { d with state := .issuing }).regrant key
      s.resumeBroken key

/-- The drovers of a context. -/
def State.contextKeys (s : State) (ctx : Nat) : List Nat := (s.drovers.filter (fun e => e.2.ctx == ctx)).map (·.1)

/-- Every drover of a context halts (R404). -/
def State.preemptContext (s : State) (ctx : Nat) : State := (s.contextKeys ctx).foldl (fun s k => s.halt k) s

/-- A halted context resumes; a flock whose save area fails its check is aborted (R408, R409). -/
def State.resumeContext (s : State) (ctx : Nat) (bad : List Nat) : State :=
  let keys := s.contextKeys ctx
  let s := ((keys.map (fun k => (s.drover k).flock)).eraseDups.filter (fun f => bad.contains f)).foldl (fun s f => s.abortFlock f cMEMUE) s
  keys.foldl (fun s k =>
    if (assocGet s.drovers k).isNone then s
    else (s.setDrover k { s.drover k with preempted := false }).unhalt k) s

/-- DEBUG_RELEASE (R416): the instruction the drover halted at issues without a match, or it would halt there again (log 52). -/
def execDebugRelease (key : Nat) (s : State) : Res :=
  if (s.drover key).dbgHalt then .next ((s.setDrover key { s.drover key with dbgHalt := false, skip1 := true }).unhalt key) else .next s

/-! ### Commands (R437, R438) -/

def State.fn (s : State) (n : Nat) : MgmtFn := assocGetD s.mgmt.fns MgmtFn.reset n
def State.setFn (s : State) (n : Nat) (f : MgmtFn) : State := { s with mgmt := { s.mgmt with fns := assocPut s.mgmt.fns n f } }

/-- CODE of CSTAT (R437). -/
def okCode : Nat := 0
def malformed : Nat := 1
def notPermitted : Nat := 2
def noResource : Nat := 3
def notVerified : Nat := 4

/-- A DOORBELL write of a function starts its command, unless one is in progress or the part is not ready: its effect, CODE
and RES, which COMMAND_COMPLETION will show (R437, R438). -/
def State.command (s : State) (n : Nat) (f : State → State × Nat × Nat) : Res :=
  if !s.mgmt.ready || decide (n > 32) || (s.fn n).busy then .next s
  else
    let r := f s
    .next (r.1.setFn n { r.1.fn n with busy := true, pendCode := r.2.1, pendRes := r.2.2 })

/-- A command refused with a CODE. -/
def failed (code : Nat) (s : State) : State × Nat × Nat := (s, code, 0)
/-- A command done. -/
def done (s : State) : State × Nat × Nat := (s, okCode, 0)

/-- Only the physical function may give the command. -/
def pfOnly (n : Nat) (f : State → State × Nat × Nat) (s : State) : State × Nat × Nat := if n = 0 then f s else failed notPermitted s

/-- A command on a context: it exists, and a VF created it (log 37). -/
def onContext (n : Nat) (ctx : Word) (f : Context → State → State × Nat × Nat) (s : State) : State × Nat × Nat :=
  match s.context ctx.toNat with
  | none => failed (if n = 0 then malformed else notPermitted) s
  | some c => if n != 0 && c.fn != n then failed notPermitted s else f c s

/-- COMMAND_COMPLETION (R436, R438): CSTAT shows the result, and the source's vector is raised. -/
def execCommandCompletion (n : Nat) (s : State) : Res :=
  let f := s.fn n
  if f.busy then .next ((s.setFn n { f with busy := false, code := f.pendCode, res := f.pendRes }).interrupt 5) else .next s

/-- The lowest number from `k` on that names no context. -/
def State.freeCtx (s : State) (k fuel : Nat) : Option Nat :=
  match fuel with
  | 0 => none
  | n + 1 => if (s.context k).isNone then some k else s.freeCtx (k + 1) n

/-- CTXNEW (R438, R445). -/
def execCtxnew (n : Nat) (root qtab pool len conf : Word) (owner : Option (List Byte)) (s : State) : Res :=
  s.command n (fun s =>
    let bad := root.toNat % 4096 != 0 || !isHbm root.toNat 4096 || !topZero conf 1
    if bad then failed malformed s
    else if conf = 1 && !(owner.any (fun o => o.length == 128)) then failed malformed s
    else match s.freeCtx 1 65535 with
      | none => failed noResource s
      | some c =>
        let key := if conf = 1 then s.nextCtx else 0
        let x : Context :=
          { root := root.toNat, qtab := qtab, pool := pool, poolLen := len.toNat, conf := conf == 1, key := key, fn := n
            owner := if conf = 1 then owner.getD [] else [], grantTren := 0, grantSlog := 0, grantUntil := none }
        let s := { s with ctxs := assocPut s.ctxs c x, nextCtx := s.nextCtx + 1 }
        (s.setFn n { s.fn n with ctxs := (s.fn n).ctxs ++ [c] }, okCode, c))

/-- The tasks of a context that are not over. -/
def State.tasksOf (s : State) (ctx : Nat) : List Nat := (s.tasks.filter (fun e => e.2.ctx == ctx && e.2.st != .ended)).map (·.1)

/-- A task of a deleted context goes: aborted under R383 unless it is completing (R386), its later accesses discarded. -/
def State.killTask (s : State) (id : Nat) : State :=
  match s.task id with
  | none => s
  | some t =>
    let s := match t.st with
      | .ending => (s.releaseFlock t.flock).freeStack t.handle t.stack
      | _ => s.endAborted id 0 5 0
    match s.task id with
    | some t => s.setTask id { t with st := .ended, ranges := false, stack := none }
    | none => s

/-- R458 in its order. -/
def State.deleteContext (s : State) (ctx : Nat) : State :=
  let s := { s with queues := s.queues.filter (fun e => e.2.ctx != ctx) }
  let s := (s.tasksOf ctx).foldl (fun s id => s.killTask id) s
  let s := { s with
    dies := s.dies.map (fun (e : Nat × Die) => (e.1, { e.2 with
      awaited := e.2.awaited.filter (fun a => a.ctx != ctx)
      backlog := e.2.backlog.filter (fun b => b.2.1 != ctx || b.2.2.isNone)
      tlb := e.2.tlb.filter (fun t => t.ctx != ctx), tlb1 := e.2.tlb1.map (fun (c : Nat × List TlbEntry) => (c.1, c.2.filter (fun t => t.ctx != ctx))) }))
    marks := s.marks.filter (fun m => m.1 != ctx)
    ctxs := assocDel s.ctxs ctx }
  { s with mgmt := { s.mgmt with fns := s.mgmt.fns.map (fun (e : Nat × MgmtFn) => (e.1, { e.2 with
      ctxs := e.2.ctxs.filter (fun c => c != ctx), bar4 := e.2.bar4.filter (fun b => b.1 != ctx) })) } }

/-- CTXDEL (R438, R458). -/
def execCtxdel (n : Nat) (ctx : Word) (s : State) : Res :=
  s.command n (onContext n ctx (fun _ s => done (s.deleteContext ctx.toNat).wakeTasks))

/-- PREEMPT (R404). -/
def execPreempt (n : Nat) (ctx : Word) (s : State) : Res := s.command n (onContext n ctx (fun _ s => done (s.preemptContext ctx.toNat)))

/-- RESUME (R409). `bad` names the flocks whose save area fails its check code (R408). -/
def execResume (n : Nat) (ctx : Word) (bad : List Nat) (s : State) : Res :=
  s.command n (onContext n ctx (fun _ s => done (s.resumeContext ctx.toNat bad).wakeTasks))

/-- ABORT (R383): it takes effect at the end of its cycle, so that a flock whose last drover exits in that cycle completes (R386). -/
def execAbort (n : Nat) (flock : Word) (s : State) : Res :=
  s.command n (fun s =>
    match s.flock flock.toNat with
    | none => failed malformed s
    | some f => onContext n (wordOf f.ctx) (fun _ s => done (s.setFlock flock.toNat { f with abortAsked := true })) s)

/-- The aborts asked in a cycle take effect (R383). -/
def State.performAborts (s : State) : State :=
  let fs := (s.flocks.filter (fun (e : Nat × Flock) => e.2.abortAsked)).map (·.1)
  if fs.isEmpty then s
  else
    let s := { s with flocks := s.flocks.map (fun (e : Nat × Flock) => (e.1, { e.2 with abortAsked := false })) }
    (fs.foldl (fun (s : State) f => s.abortFlock f 0) s).wakeTasks.runQueues

/-- A queue's ERR falls and its HEAD becomes TAIL (R364); of a queue that is not resident, in its table entry. -/
def State.clearQueue (s : State) (h : Nat) (q : WorkQueue) : Option State :=
  if q.resident then
    some ((s.dropRequesters (fun r => r == .record h q.head || r == .launch h)).setQueue h
      { q with err := false, head := q.tail, launchRead := none, launchSeq := none, tag := none })
  else
    let ag := tableAgent q.ctx q.home h
    let va := s.entryVa q.ctx h
    match s.loadBlock ag va 64 with
    | .ok s l =>
      match s.storeAt ag (va + 0x0A) (leBytes 1 (fieldAt l 0x0A 1 - 4 * (fieldAt l 0x0A 1 / 4 % 2))) with
      | .ok s _ => match s.storeAt ag (va + 0x10) (leBytes 4 (fieldAt l 0x14 4)) with
        | .ok s _ => some (s.setQueue h { q with err := false, head := fieldAt l 0x14 4, tail := fieldAt l 0x14 4 })
        | _ => none
      | _ => none
    | _ => none

/-- QCLR (R364, R438). -/
def execQclrCommand (n : Nat) (h : Word) (s : State) : Res :=
  s.command n (fun s =>
    if n != 0 && !s.reaches n h.toNat then failed notPermitted s
    else match s.queue h.toNat with
      | none => failed malformed s
      | some q => match s.clearQueue h.toNat q with
        | some s => done s
        | none => failed malformed s)

/-- QRANGE (R434, R438). -/
def execQrange (n : Nat) (who first count : Word) (s : State) : Res :=
  s.command n (pfOnly n (fun s =>
    if decide (who.toNat > 32) || decide (first.toNat + count.toNat > 131072) then failed malformed s
    else
      let f := s.fn who.toNat
      done (s.setFn who.toNat { f with ranges := f.ranges ++ [(first.toNat, count.toNat)] })))

/-- A handle newly bound to a context: not resident, nothing held. -/
def WorkQueue.bound (ctx : Nat) : WorkQueue :=
  { ctx := ctx, resident := false, ring := 0, lcap := 4, prio := 0, valid := false, sup := false, err := false, home := 0, head := 0, tail := 0
    stkb := 0, stkl := 0, hold := .none, pend := [], touches := [], stackBlocks := [], fresh := 0, launchRead := none, launchSeq := none, tag := none, old := none }

/-- QBIND (R362, R438). -/
def execQbind (n : Nat) (ctx first count : Word) (s : State) : Res :=
  s.command n (onContext n ctx (fun _ s =>
    let hs := (List.range count.toNat).map (fun i => first.toNat + i)
    if decide (first.toNat + count.toNat > 131072) then failed notPermitted s
    else if hs.any (fun h => !s.reaches n h || (s.queue h).any (fun q => q.ctx != ctx.toNat)) then failed notPermitted s
    else done (hs.foldl (fun s h => if (s.queue h).isSome then s else s.setQueue h (WorkQueue.bound ctx.toNat)) s)))

/-- FRQ (R397): records that waited for a ring are posted. -/
def execFrq (n : Nat) (die base : Word) (s : State) : Res :=
  s.command n (pfOnly n (fun s =>
    if decide (die.toNat > 3) || base.toNat % 65536 != 0 || !isHbm base.toNat 65544 then failed malformed s
    else
      let d := s.die die.toNat
      done ((s.setDie die.toNat { d with frqb := some base.toNat }).drainBacklog die.toNat (d.backlog.length + 1))))

/-- TRACE (R427): mode 0 RING, 1 STOP. -/
def execTrace (n : Nat) (base mode : Word) (s : State) : Res :=
  s.command n (pfOnly n (fun s =>
    if !isHbm base.toNat 0x10000000 || !topZero mode 1 then failed malformed s
    else done { s with trace := { s.trace with base := some base.toNat, stop := mode == 1, pos := 0 } }))

/-- Whether a 128-byte token is signed under a key over its first 32 bytes. -/
def tokenSigned (key l : List Byte) : Bool := Config.p384Verify key (l.take 32) ((l.drop 32).take 96)

/-- GRANT (R447). -/
def execGrant (n : Nat) (ctx : Word) (token : Option (List Byte)) (s : State) : Res :=
  s.command n (onContext n ctx (fun c s =>
    match token with
    | none => failed notVerified s
    | some l =>
      let expiry := fieldAt l 8 8
      if c.conf && l.length == 128 && fieldAt l 0 1 == 1 && fieldAt l 2 2 == ctx.toNat && decide (expiry > s.cycle) && tokenSigned c.owner l then
        done { s with ctxs := assocPut s.ctxs ctx.toNat { c with grantTren := fieldAt l 4 1, grantSlog := fieldAt l 5 1, grantUntil := some expiry } }
      else failed notVerified s))

/-- The 48 bytes of a digest, first byte first. -/
def digestBytes (d : BitVec 384) : List Byte := leBytes 48 d.toNat

/-- UNLOCK in the order of R449. -/
def State.unlock (s : State) (l : List Byte) : State :=
  let conf := s.ctxs.filter (fun e => e.2.conf)
  let s := conf.foldl (fun (s : State) (e : Nat × Context) => (s.tasksOf e.1).foldl (fun s id => s.abortTask id 0 5 0) s) s
  { s with
    ctxs := s.ctxs.map (fun (e : Nat × Context) => if e.2.conf then (e.1, { e.2 with key := 0 }) else e)
    mgmt := { s.mgmt with
      cacheKeyEpoch := s.mgmt.cacheKeyEpoch + 1, lcs := .debug, ucnt := s.mgmt.ucnt + 1
      meas := Config.sha384 (digestBytes s.mgmt.meas ++ digestBytes (Config.sha384 l)) } }

/-- UNLOCK (R449). -/
def execUnlock (n : Nat) (token : Option (List Byte)) (s : State) : Res :=
  s.command n (pfOnly n (fun s =>
    match token with
    | none => failed notVerified s
    | some l =>
      if l.length == 128 && fieldAt l 0 1 == 1 && fieldAt l 2 1 == 1 && fieldAt l 8 16 == s.mgmt.device.toNat &&
          fieldAt l 0x18 8 == s.mgmt.ucnt && tokenSigned Config.debugKey l then done (s.unlock l)
      else failed notVerified s))

def Lifecycle.code (l : Lifecycle) : Nat :=
  match l with
  | .manufacture => 0
  | .production => 1
  | .debug => 2
  | .retired => 3

/-- The host aperture (R432). -/
def hostBase : Nat := 0xF000000000000

/-- The report of ATTEST (R450). -/
def attestReport (m : Mgmt) (nonce : List Byte) : List Byte :=
  let body := leBytes 2 1 ++ leBytes 2 m.lcs.code ++ leBytes 4 m.fw ++ leBytes 16 m.device.toNat ++ nonce ++ digestBytes m.meas ++ leBytes 8 m.ucnt
  body ++ (List.range 96).map (fun i => Config.attestSign m.keyEpoch body i)

/-- ATTEST (R450). -/
def execAttest (n : Nat) (nonce : List Byte) (va : Word) (s : State) : Res :=
  s.command n (fun s =>
    if nonce.length != 32 || !topZero va 48 then failed malformed s
    else done { s with posted := s.posted ++ ((attestReport s.mgmt nonce).zipIdx.map (fun e => (hostBase + va.toNat + e.2, e.1))) })

/-- PCAP (R444). -/
def execPcap (n : Nat) (die watts : Word) (s : State) : Res :=
  s.command n (pfOnly n (fun s =>
    if decide (die.toNat > 3) || decide (watts.toNat < 300) || decide (watts.toNat > 700) then failed malformed s
    else done (s.setDie die.toNat { s.die die.toNat with pcap := watts.toNat })))

/-- WINDOW (R434). -/
def execWindow (n : Nat) (ctx base : Word) (s : State) : Res :=
  s.command n (onContext n ctx (fun _ s => done (s.setFn n { s.fn n with bar4 := some (ctx.toNat, base) })))

/-- IRQMAP (R436; sources as log 22 numbers them). -/
def execIrqmap (n : Nat) (source vector who : Word) (s : State) : Res :=
  s.command n (pfOnly n (fun s =>
    if decide (source.toNat > 6) || decide (vector.toNat ≥ 2048) || decide (who.toNat > 32) then failed malformed s
    else
      let rest := s.mgmt.irqMap.filter (fun e => !(e.1 == source.toNat && e.2.2 == who.toNat))
      done { s with mgmt := { s.mgmt with irqMap := rest ++ [(source.toNat, vector.toNat, who.toNat)] } }))

/-! ### The state map (R430, R446; offsets of other blocks than drovers as log 38 gives them) -/

/-- A confidential context's state is denied, unless a grant runs or debug access is open (R446, R447, R449). -/
def State.denied (s : State) (ctx : Nat) : Bool :=
  match s.context ctx with
  | some c => c.conf && c.grantUntil.isNone && s.mgmt.lcs != .debug
  | none => false

/-- The 8-byte units of a resident queue's entry. -/
def WorkQueue.unit (q : WorkQueue) (i : Nat) : Nat :=
  match i with
  | 0 => q.ring.toNat
  | 1 => q.lcap + 256 * q.prio + 65536 * (q.valid.toNat + 2 * q.sup.toNat + 4 * q.err.toNat) + pow2 24 * q.home
  | 2 => q.head + pow2 32 * q.tail
  | 3 => q.stkb.toNat
  | 4 => q.stkl
  | _ => 0

/-- A number for each drover state of R19. -/
def DroverState.code (d : DroverState) : Nat :=
  match d with
  | .issuing => 0
  | .awaiting => 1
  | .trapped => 2
  | .halted => 3
  | .exited => 4

/-- The offset of a block's snapshot registers: cycle count, event count, state summary (log 38; R428 does not say what a summary holds:
a free value, log 39). -/
def snapOff : Nat := 0x3FFFF00

/-- A register of the state map: its value, or a CODE. -/
def State.mapRead (s : State) (addr : Word) : Except Nat Word :=
  let die := bitsOf addr 44 4
  let src := bitsOf addr 38 6
  let inst := bitsOf addr 26 12
  let off := bitsOf addr 0 26
  let key := 512 * die + inst
  let snap := s.mgmt.snaps.find? (fun (x : SnapReg) => x.die == die && x.src == src && x.inst == inst)
  if !topZero addr 48 || off % 8 != 0 || decide (die > 4) then .error malformed
  else if decide (off ≥ snapOff) && snap.isSome && !(src == srcDrover && s.denied (s.drover key).ctx) then
    match snap, (off - snapOff) / 8 with
    | some x, 0 => .ok (wordOf x.cyc)
    | some x, 1 => .ok (wordOf x.events)
    | some x, 2 => .ok (Config.stateSummary s.mgmt.snapNo (traceId x.die x.src x.inst))
    | _, _ => .error malformed
  else if src = srcDrover && die < 4 && inst < 512 then
    if s.denied (s.drover key).ctx then .error notPermitted
    else if assignedSr (off / 8) then .ok (s.srRead key (off / 8))
    else if off / 8 = 0x1000 then .ok (wordOf ((s.drover key).state.code + 256 * (s.drover key).dbgHalt.toNat))
    else .error malformed
  else if src = 0 && die < 4 && inst < 64 then
    match off with
    | 0 => .ok (wordOf s.cycle)
    | 8 => .ok (wordOf (s.core (64 * die + inst)).rr)
    | _ => .error malformed
  else if src = srcSequencer && die < 4 && inst < 64 && off = 0 then
    match (s.core (64 * die + inst)).srs.owner with
    | some k => if s.denied (s.drover k).ctx then .error notPermitted else .ok (s.core (64 * die + inst)).srs.word
    | none => .ok 0
  else if src = 11 && die < 4 then
    match s.queue (off / 64) with
    | some q =>
      if s.denied q.ctx then .error notPermitted
      else if q.resident && q.home == die then .ok (wordOf (q.unit (off % 64 / 8))) else .error malformed
    | none => .error malformed
  else if src = 14 && die < 4 then
    match off with
    | 0 => .ok (wordOf (s.die die).head)
    | 8 => .ok (wordOf (s.die die).tail)
    | _ => .error malformed
  else if src = 15 && die < 4 then
    match off with
    | 0 => .ok (wordOf (s.die die).corrected)
    | 8 => .ok (wordOf (s.die die).uncorrected)
    | 16 => .ok (wordOf (s.die die).pcap)
    | 24 => .ok (wordOf (s.die die).throttled)
    | _ => .error malformed
  else .error malformed

/-- SMRD (R430): the value stands in bytes 16 to 23 of CMD, its low half in RES (log 38). -/
def execSmrd (n : Nat) (addr : Word) (s : State) : Res :=
  s.command n (pfOnly n (fun s =>
    let put := fun (v : Word) =>
      let f := s.fn n
      s.setFn n { f with cmd := (f.cmd &&& ~~~((0xFFFFFFFFFFFFFFFF : BitVec 512) <<< 128)) ||| (v.setWidth 512 <<< 128) }
    match s.mapRead addr with
    | .ok v => (put v, okCode, bitsOf v 0 32)
    | .error c => (put 0, c, 0)))

/-- SMWR (R430): only a drover halted for debug takes the write; BUSY otherwise. -/
def execSmwr (n : Nat) (addr v : Word) (s : State) : Res :=
  s.command n (pfOnly n (fun s =>
    let die := bitsOf addr 44 4
    let inst := bitsOf addr 26 12
    let off := bitsOf addr 0 26
    let key := 512 * die + inst
    if !topZero addr 48 || off % 8 != 0 || decide (die > 3) then failed malformed s
    else if bitsOf addr 38 6 != srcDrover || decide (inst ≥ 512) then failed noResource s
    else if s.denied (s.drover key).ctx then failed notPermitted s
    else if !((s.drover key).state == .halted && (s.drover key).dbgHalt) then failed noResource s
    else if assignedSr (off / 8) && srWritable true (off / 8) && s.srOk key (off / 8) v then done (s.srWrite key (off / 8) v)
    else failed malformed s))

/-- A write of n bytes into the CMD block. -/
def writeCmd (c : BitVec 512) (off n : Nat) (v : Word) : BitVec 512 :=
  let m : BitVec 512 := BitVec.ofNat 512 (pow2 (8 * n) - 1)
  (c &&& ~~~(m <<< (8 * off))) ||| ((v.setWidth 512 &&& m) <<< (8 * off))

/-- REGISTER_WRITE (R401, R437): CMD of a function's management window, a DOORBELL write with an opcode that no command has, or a
register of a die's control page. Other offsets discard the write. -/
def execRegisterWrite (page : Option Nat) (fn off n : Nat) (v : Word) (s : State) : Res :=
  match page with
  | some die => .next (if n = 8 && off % 8 == 0 && decide (die < 4) then s.controlWrite die off v else s)
  | none =>
    if !s.mgmt.ready || decide (fn > 32) then .next s
    else if 0x40 ≤ off && off + n ≤ 0x80 && n ≤ 8 then .next (s.setFn fn { s.fn fn with cmd := writeCmd (s.fn fn).cmd (off - 0x40) n v })
    else if off = 0x80 then
      let op := (s.fn fn).cmd.toNat % 256
      if op = 0 || op > 18 then s.command fn (failed malformed) else .next s
    else .next s

/-! ### The host window and the host port (R434, R435) -/

/-- The agent of BAR4 accesses: the I/O die acts in the bound context, and the page's SO does not bar it (log 35). -/
def windowAgent (ctx : Nat) : Agent := sideAgent ctx 4 0 2048 true (.swapIn 0)

/-- Where byte i of a BAR4 access lands: HBM through a page with HS, or nowhere. -/
def State.windowByte (s : State) (ctx : Nat) (want : Want) (va : Word) : Option (State × Place) :=
  match s.locate (windowAgent ctx) want va 1 with
  | .ok (s, p) => if pteHS p.pte && isHbm p.pa 1 then some (s, p) else none
  | .error _ => none

/-- The bytes of a BAR4 read: none where a page refuses it; the flag is set where a line is poisoned. -/
def State.windowBytes (s : State) (ctx : Nat) (va : Word) (n : Nat) : State × Option (List Byte) × Bool :=
  (List.range n).foldl (fun (acc : State × Option (List Byte) × Bool) i =>
    match acc.2.1 with
    | none => acc
    | some l => match acc.1.windowByte ctx .read (va + BitVec.ofNat 64 i) with
      | none => (acc.1, none, acc.2.2)
      | some (s, p) =>
        if s.lineBad (p.pa / 64) then (s.markPoison (p.pa / 64), some (l ++ [0]), true)
        else (s.correct [p.pa / 64], some (l ++ [s.viewByte p.key p.pa]), acc.2.2)) (s, some [], false)

def State.serve (s : State) (x : Served) : State := { s with served := s.served ++ [x] }

/-- HOST_WINDOW_READ (R411, R434, R443): the completion the host receives. -/
def execHostWindowRead (fn off n : Nat) (s : State) : Res :=
  if !s.mgmt.ready then .next (s.serve (.data (List.replicate n 0)))
  else match (s.fn fn).bar4 with
    | none => .next (s.serve .refused)
    | some (ctx, base) =>
      if off + n > pow2 36 then .next (s.serve .refused)
      else match s.windowBytes ctx (base + BitVec.ofNat 64 off) n with
        | (s, none, _) => .next (s.serve .refused)
        | (s, some _, true) => .next (s.serve .poisoned)
        | (s, some l, false) => .next (s.serve (.data l))

/-- Bytes of a BAR4 write, each through its own page; those that a page refuses are discarded. -/
def State.windowStore (s : State) (ctx : Nat) (va : Word) (l : List Byte) (cover : List Nat) : State :=
  match l with
  | [] => s
  | b :: rest =>
    let s := match s.windowByte ctx .write va with
      | none => s
      | some (t, p) => match t.writePlace (windowAgent ctx) p va [b] (if cover.contains (va.toNat / 64) then [p.pa / 64] else []) with
        | .ok t _ => t
        | .fail t _ => t
        | .wait t => t
    s.windowStore ctx (va + 1) rest cover

/-- HOST_WINDOW_WRITE (R434, R443). -/
def execHostWindowWrite (fn off : Nat) (bytes : List Byte) (s : State) : Res :=
  match (s.fn fn).bar4 with
  | some (ctx, base) =>
    if !s.mgmt.ready || off + bytes.length > pow2 36 then .next s
    else
      let va := base + BitVec.ofNat 64 off
      .next (s.windowStore ctx va bytes (s.copyCover va bytes.length))
  | none => .next s

/-- The answer to the oldest outstanding request at an address. -/
def State.answerRequest (s : State) (pa n : Nat) (data : Option Nat) : State :=
  match s.reqs.find? (fun r => r.pa == pa && r.n == n) with
  | none => s
  | some r => { s with reqs := s.reqs.erase r, reps := s.reps ++ [⟨r.who, r.flock, r.pa, r.n, r.kind, data⟩] }

/-- HOST_COMPLETION (R435). -/
def execHostCompletion (pa n : Nat) (data : Option Nat) (s : State) : Res :=
  if isHost pa then .next (s.answerRequest pa n data) else .next s

/-! ### Scale-out (R439, R440) -/

/-- RDMA_READ_RESPONSE (R440). -/
def execRdmaReadResponse (pa n : Nat) (data : Option Nat) (s : State) : Res :=
  if isScaleOut pa then .next (s.answerRequest pa n data) else .next s

/-- A registered region that a queue pair may reach. -/
def State.registered (s : State) (qp pa n : Nat) : Bool :=
  !s.qpErr.contains qp && isHbm pa n && s.regions.any (fun r => r.1 == qp && decide (r.2.1 ≤ pa) && decide (pa + n ≤ r.2.1 + r.2.2))

/-- RDMA_WRITE_IN (R410, R412, R439): a poisoned line that the write does not cover keeps its content. -/
def execRdmaWriteIn (qp pa : Nat) (bytes : List Byte) (s : State) : Res :=
  if !s.registered qp pa bytes.length then .next s
  else
    let whole := fun (l : Nat) => decide (pa ≤ 64 * l) && decide (64 * l + 64 ≤ pa + bytes.length)
    let s := (linesOf pa bytes.length).foldl (fun s l => if whole l then s.clearPoison l else s.markPoison l) s
    .next ((bytes.zipIdx).foldl (fun (s : State) (e : Byte × Nat) => if s.lineBad ((pa + e.2) / 64) then s else s.putByte 0 (pa + e.2) e.1) s)

/-- RDMA_READ_IN (R411, R439). -/
def execRdmaReadIn (qp pa n : Nat) (s : State) : Res :=
  if !s.registered qp pa n then .next (s.serve .refused)
  else match (linesOf pa n).find? (fun l => s.lineBad l) with
    | some l => .next ((s.markPoison l).serve .poisoned)
    | none => .next ((s.correct (linesOf pa n)).serve (.data (s.viewBytes 0 pa n)))

/-- RDMA_SEND_IN (R439; log 19). -/
def execRdmaSendIn (qp : Nat) (bytes : List Byte) (s : State) : Res :=
  if s.qpErr.contains qp then .next s else .next { s with sends := s.sends ++ [(qp, bytes)] }

/-- The first n entries of a queue pair go. -/
def dropAcked (l : List (Nat × Nat)) (qp n : Nat) : List (Nat × Nat) :=
  match l, n with
  | [], _ => []
  | l, 0 => l
  | e :: rest, k + 1 => if e.1 = qp then dropAcked rest qp k else e :: dropAcked rest qp (k + 1)

/-- RDMA_ACK (R440). A drover whose CHWAIT waited for its run's writes resumes (R257). -/
def execRdmaAck (qp n : Nat) (s : State) : Res :=
  .next (s.drovers.foldl (fun (s : State) (e : Nat × Drover) => s.wakeChain e.1) { s with unacked := dropAcked s.unacked qp n })

/-- CONGESTION_NOTIFICATION (R439): honoured by timing, which the model leaves out; the package counts it. -/
def execCongestionNotification (_qp : Nat) (s : State) : Res := .next { s with cnps := s.cnps + 1 }

/-- QUEUE_PAIR_ERROR (R440): outstanding reads of the queue pair fail. -/
def execQueuePairError (qp : Nat) (s : State) : Res :=
  let mine := fun (r : OutReq) => isScaleOut r.pa && qpOf r.pa == qp
  .next { s with
    qpErr := if s.qpErr.contains qp then s.qpErr else s.qpErr ++ [qp]
    reps := s.reps ++ ((s.reqs.filter mine).map (fun (r : OutReq) => ({ who := r.who, flock := r.flock, pa := r.pa, n := r.n, kind := r.kind, data := none } : OutRep)))
    reqs := s.reqs.filter (fun r => !mine r) }

/-! ### Power, bring-up, scrub (R442, R443, R448) -/

/-- POWER_ON (R443): the firmware is measured into MEAS. -/
def execPowerOn (s : State) : Res :=
  if s.mgmt.ready || s.mgmt.err || s.mgmt.booting then .next s
  else .next { s with mgmt := { s.mgmt with booting := true, meas := Config.bootMeasurement, bootMeas := Config.bootMeasurement } }

/-- BRING_UP_COMPLETE (R443). -/
def execBringUpComplete (ok : Bool) (s : State) : Res :=
  if s.mgmt.booting then .next { s with mgmt := { s.mgmt with booting := false, ready := ok, err := !ok } } else .next s

/-- COLD_RESET (R443, R448): the package is at reset and boots again; from DEBUG the lifecycle returns to PRODUCTION, with fresh
device keys and a fresh translation-cache key (R455). The unlock count, firmware and identifier stay. -/
def execColdReset (s : State) : Res :=
  let m := s.mgmt
  let dbg := m.lcs == .debug
  .next { State.reset with mgmt := { Mgmt.reset with
    booting := true, lcs := if dbg then .production else m.lcs, meas := Config.bootMeasurement, bootMeas := Config.bootMeasurement
    fw := m.fw, device := m.device, ucnt := m.ucnt, keyEpoch := if dbg then m.keyEpoch + 1 else m.keyEpoch
    cacheKeyEpoch := if dbg then m.cacheKeyEpoch + 1 else m.cacheKeyEpoch } }

/-- SCRUB (R442): a line with an uncorrectable error is poisoned and counted; no record is posted. -/
def execScrub (s : State) : Res :=
  let s := s.correct s.soft
  let found := fun (n : Nat) => (s.bad.filter (fun l => l * 64 / 0x3000000000 == n)).length
  .next { s with
    poison := s.poison ++ s.bad.filter (fun l => !s.poison.contains l), bad := []
    dies := s.dies.map (fun (e : Nat × Die) => (e.1, { e.2 with uncorrected := e.2.uncorrected + found e.1 })) }

/-! ### Snapshots and lockstep (R428, R429) -/

/-- The blocks of the package (R12 to R16, R430): a core's front end, stream engines, copy engine, gather engine, tile table, calendar,
sequencer, matrix units and lane groups, its drover slots; a die's calendar, queue table, matching table, TLB, fault queue and memory
controller; the I/O die's queue and matching side and the Cittern. Listed are those of a core or die that holds state (log 39). -/
def coreBlocks (c : Nat) : List (Nat × Nat × Nat) :=
  [0, 2, 3, 4, 5, 6, 7, 8, 9].map (fun src => (dieOfCore c, src, c % 64))
def dieBlocks (n : Nat) : List (Nat × Nat × Nat) := [10, 11, 12, 13, 14, 15].map (fun src => (n, src, 0))
def State.blocks (s : State) : List (Nat × Nat × Nat) :=
  s.cores.flatMap (fun (e : Nat × Core) => coreBlocks e.1) ++
    s.drovers.map (fun (e : Nat × Drover) => (dieOf e.1, srcDrover, e.1 % 512)) ++
    s.dies.flatMap (fun (e : Nat × Die) => dieBlocks e.1) ++ [(4, 16, 0)]

/-- Every block latches a trigger and emits SNAP: its snapshot registers hold its cycle count and how many records it has emitted
(R428). -/
def State.snapshot (s : State) : State :=
  let n := s.mgmt.snapNo + 1
  let regs := s.blocks.map (fun x => ({ die := x.1, src := x.2.1, inst := x.2.2, cyc := s.cycle, events := assocGetD s.trace.seqs 0 (traceId x.1 x.2.1 x.2.2) } : SnapReg))
  let s := { s with mgmt := { s.mgmt with snapNo := n, snapLatched := true, snaps := regs } }
  s.blocks.foldl (fun (s : State) x => s.emitRaw 0x16 0 x.1 x.2.1 x.2.2 (if x.2.1 = srcDrover then x.2.2 % 8 else 0xFF) (leBytes 4 n)) s

/-- SNAPSHOT_TRIGGER (R428). -/
def execSnapshotTrigger (s : State) : Res := .next s.snapshot

/-- A drover halts for debug outside an instruction of its own (R416, R421, R429). -/
def State.haltForDebug (s : State) (key : Nat) : State :=
  let d := s.drover key
  if d.state = .exited then s
  else if d.state = .halted then s.setDrover key { d with dbgHalt := true }
  else s.haltNow key true

/-- LOCKSTEP_MISMATCH (R429): the report, a trigger, both partitions halted for debug. -/
def execLockstepMismatch (issuer k : Nat) (va x y : Word) (s : State) : Res :=
  let s := { s with mgmt := { s.mgmt with lockReports := s.mgmt.lockReports ++ [({ issuer := issuer, k := k, va := va, dataA := x, dataB := y } : LockReport)] } }
  let s := (s.interrupt 6).snapshot
  .next (s.drovers.foldl (fun (s : State) (e : Nat × Drover) => s.haltForDebug e.1) s)

/-! ### Engine accesses (R224, R366) -/

/-- How many records have been posted, or wait, or were joined. -/
def State.posts (s : State) : Nat :=
  s.dies.foldl (fun a (e : Nat × Die) => a + e.2.tail + e.2.backlog.length + (e.2.awaited.map (fun (w : Awaited) => w.who.length)).sum) 0

/-- An attempt at an engine's work counts only where it fails, which posts a record. -/
def State.onlyFailing (s t : State) : State := if t.posts = s.posts then s else t

/-- The attempt that an engine access belongs to. -/
def State.attempt (s : State) (e : EngineAccess) : State :=
  match e with
  | .transfer key ch id => s.transferFault key ch id
  | .swapIn h => s.onlyFailing (s.swapIn h)
  | .ringRead h => s.onlyFailing (s.accept_ h (fun _ => true))
  | .launch h => s.onlyFailing (s.accept_ h (· == 1))
  | .record h n =>
    match s.queue h with
    | none => s
    | some q => match q.pending n with
      | some p => s.onlyFailing ((s.performPending h p).moveCopy h q p)
      | none => s.onlyFailing (s.readHold h)
  | .completion id | .successor id => s.onlyFailing (s.completeTask id)
  | .profile _ => s.onlyFailing s.dispatch

/-- ENGINE_ACCESS_FAULT (R224). -/
def execEngineAccessFault (e : EngineAccess) (s : State) : Res := .next (s.attempt e)

end Sys2Proof.Machine
end

