-- ==== Sys2Proof/Machine/Front.lean ====
section
/-! DEFINITION. The front end: what a word runs (`runRow`, the arms of `exec` on a row and its word), the order of the checks at
issue (R104, R419, R421, R422), the iterations of a REP (R154), and which drover of a core issues (R17). -/
namespace Sys2Proof.Machine

/-! ### The two events of a word that does not run -/

/-- NON_INSTRUCTION_WORD (R102): a word that is no instruction traps ILLOP with no effect. -/
def execNonInstructionWord (w : BitVec 32) (s : State) : Res :=
  match decodeRow w with
  | .error _ => s.trapIssue cILLOP
  | .ok r => if r.wf w then .next s else s.trapIssue cILLOP

/-- The fault on a fetch: on a handler's first word it aborts the flock (R133, R146). -/
def State.fetchFault (s : State) (f : FaultInfo) : State :=
  let key := s.sel
  let d := s.cur
  if d.atHandler then
    let s := if f.records then s.post (dieOf key) d.ctx (s.recordOfDrover key f d.iaddr 0 false false) none else s
    s.abortFlock d.flock f.cause
  else s.raise key f none d.partly

/-- INSTRUCTION_FETCH_FAULT (R133): the fetch of the drover's next word, where it fails. -/
def execInstructionFetchFault (s : State) : Res :=
  match s.fetchAt (s.agentOf s.sel) s.cur.iaddr with
  | .fail s f => .next (s.fetchFault f)
  | _ => .next s

/-! ### Rows -/

/-- The meaning of a row's word: exec of the instruction it decodes to, without building that instruction. -/
def runRow (r : Row) (w : BitVec 32) (s : State) : Res :=
  match r with
  | .add => execAdd (fA w) (fB w) (hiC (fHi w)) s
  | .sub => execSub (fA w) (fB w) (hiC (fHi w)) s
  | .mul => execMul (fA w) (fB w) (hiC (fHi w)) s
  | .mulh => execMulh (fA w) (fB w) (hiC (fHi w)) s
  | .mulhu => execMulhu (fA w) (fB w) (hiC (fHi w)) s
  | .mulhsu => execMulhsu (fA w) (fB w) (hiC (fHi w)) s
  | .div => execDiv (fA w) (fB w) (hiC (fHi w)) s
  | .divu => execDivu (fA w) (fB w) (hiC (fHi w)) s
  | .rem => execRem (fA w) (fB w) (hiC (fHi w)) s
  | .remu => execRemu (fA w) (fB w) (hiC (fHi w)) s
  | .and => execAnd (fA w) (fB w) (hiC (fHi w)) s
  | .or => execOr (fA w) (fB w) (hiC (fHi w)) s
  | .xor => execXor (fA w) (fB w) (hiC (fHi w)) s
  | .andn => execAndn (fA w) (fB w) (hiC (fHi w)) s
  | .orn => execOrn (fA w) (fB w) (hiC (fHi w)) s
  | .shl => execShl (fA w) (fB w) (hiC (fHi w)) s
  | .shr => execShr (fA w) (fB w) (hiC (fHi w)) s
  | .sra => execSra (fA w) (fB w) (hiC (fHi w)) s
  | .ror => execRor (fA w) (fB w) (hiC (fHi w)) s
  | .slt => execSlt (fA w) (fB w) (hiC (fHi w)) s
  | .sltu => execSltu (fA w) (fB w) (hiC (fHi w)) s
  | .min => execMin (fA w) (fB w) (hiC (fHi w)) s
  | .max => execMax (fA w) (fB w) (hiC (fHi w)) s
  | .minu => execMinu (fA w) (fB w) (hiC (fHi w)) s
  | .maxu => execMaxu (fA w) (fB w) (hiC (fHi w)) s
  | .clz => execClz (fA w) (fB w) s
  | .ctz => execCtz (fA w) (fB w) s
  | .popc => execPopc (fA w) (fB w) s
  | .exts => execExts (fA w) (fB w) (hiC (fHi w)) s
  | .extz => execExtz (fA w) (fB w) (hiC (fHi w)) s
  | .bswp => execBswp (fA w) (fB w) s
  | .selnz => execSelnz (fA w) (fB w) (hiC (fHi w)) s
  | .addi => execAddi (fA w) (fB w) (fHi w) s
  | .andi => execAndi (fA w) (fB w) (fHi w) s
  | .ori => execOri (fA w) (fB w) (fHi w) s
  | .xori => execXori (fA w) (fB w) (fHi w) s
  | .slti => execSlti (fA w) (fB w) (fHi w) s
  | .sltiu => execSltiu (fA w) (fB w) (fHi w) s
  | .shli => execShli (fA w) (fB w) (hiLow6 (fHi w)) s
  | .shri => execShri (fA w) (fB w) (hiLow6 (fHi w)) s
  | .srai => execSrai (fA w) (fB w) (hiLow6 (fHi w)) s
  | .li => execLi (fA w) (imm18 (fHi w) (fB w)) s
  | .lih => execLih (fA w) (imm18 (fHi w) (fB w)) s
  | .adpc => execAdpc (fA w) (imm18 (fHi w) (fB w)) s
  | .jal => execJal (fA w) (imm18 (fHi w) (fB w)) s
  | .jalr => execJalr (fA w) (fB w) (fHi w) s
  | .beq => execBeq (fA w) (fB w) (fHi w) s
  | .bne => execBne (fA w) (fB w) (fHi w) s
  | .blt => execBlt (fA w) (fB w) (fHi w) s
  | .bge => execBge (fA w) (fB w) (fHi w) s
  | .bltu => execBltu (fA w) (fB w) (fHi w) s
  | .bgeu => execBgeu (fA w) (fB w) (fHi w) s
  | .ldb => execLdb (fA w) (fB w) (fHi w) s
  | .ldbz => execLdbz (fA w) (fB w) (fHi w) s
  | .ldh => execLdh (fA w) (fB w) (fHi w) s
  | .ldhz => execLdhz (fA w) (fB w) (fHi w) s
  | .ldw => execLdw (fA w) (fB w) (fHi w) s
  | .ldwz => execLdwz (fA w) (fB w) (fHi w) s
  | .ldd => execLdd (fA w) (fB w) (fHi w) s
  | .stb => execStb (fA w) (fB w) (fHi w) s
  | .sth => execSth (fA w) (fB w) (fHi w) s
  | .stw => execStw (fA w) (fB w) (fHi w) s
  | .std => execStd (fA w) (fB w) (fHi w) s
  | .amoswp => execAmoswp (fA w) (fB w) (hiC (fHi w)) (fX w) s
  | .amoadd => execAmoadd (fA w) (fB w) (hiC (fHi w)) (fX w) s
  | .amoand => execAmoand (fA w) (fB w) (hiC (fHi w)) (fX w) s
  | .amoor => execAmoor (fA w) (fB w) (hiC (fHi w)) (fX w) s
  | .amoxor => execAmoxor (fA w) (fB w) (hiC (fHi w)) (fX w) s
  | .amomin => execAmomin (fA w) (fB w) (hiC (fHi w)) (fX w) s
  | .amomax => execAmomax (fA w) (fB w) (hiC (fHi w)) (fX w) s
  | .amominu => execAmominu (fA w) (fB w) (hiC (fHi w)) (fX w) s
  | .amomaxu => execAmomaxu (fA w) (fB w) (hiC (fHi w)) (fX w) s
  | .amocas => execAmocas (fA w) (fB w) (hiC (fHi w)) (fX w) s
  | .fence => execFence (hiOrder (fHi w)) (hiScope (fHi w)) s
  | .nop => execNop s
  | .trap => execTrap (cb (fHi w) (fB w)) s
  | .eret => execEret s
  | .brk => execBrk (cb (fHi w) (fB w)) s
  | .svc => execSvc (cb (fHi w) (fB w)) s
  | .wait => execWait (fB w) s
  | .yield => execYield s
  | .srd => execSrd (fA w) (cb (fHi w) (fB w)) s
  | .swr => execSwr (fA w) (cb (fHi w) (fB w)) s
  | .winb => execWinb (fB w) s
  | .rep => execRep (fB w) (hiC (fHi w)) (low3 (fA w)) s
  | .exit => execExit s
  | .setvl => execSetvl (fA w) (fB w) s
  | .setvty => execSetvty (fA w) (fB w) s
  | .settl => execSettl (fA w) (fB w) s
  | .getg => execGetg (fA w) s
  | .vadd => execVadd (fA w) (fB w) (hiC (fHi w)) (fX w) s
  | .vsub => execVsub (fA w) (fB w) (hiC (fHi w)) (fX w) s
  | .vrsub => execVrsub (fA w) (fB w) (hiC (fHi w)) (fX w) s
  | .vmul => execVmul (fA w) (fB w) (hiC (fHi w)) (fX w) s
  | .vmulh => execVmulh (fA w) (fB w) (hiC (fHi w)) (fX w) s
  | .vmulhu => execVmulhu (fA w) (fB w) (hiC (fHi w)) (fX w) s
  | .vmacc => execVmacc (fA w) (fB w) (hiC (fHi w)) (fX w) s
  | .vnmsac => execVnmsac (fA w) (fB w) (hiC (fHi w)) (fX w) s
  | .vdiv => execVdiv (fA w) (fB w) (hiC (fHi w)) (fX w) s
  | .vdivu => execVdivu (fA w) (fB w) (hiC (fHi w)) (fX w) s
  | .vrem => execVrem (fA w) (fB w) (hiC (fHi w)) (fX w) s
  | .vremu => execVremu (fA w) (fB w) (hiC (fHi w)) (fX w) s
  | .vsadd => execVsadd (fA w) (fB w) (hiC (fHi w)) (fX w) s
  | .vssub => execVssub (fA w) (fB w) (hiC (fHi w)) (fX w) s
  | .vabsd => execVabsd (fA w) (fB w) (hiC (fHi w)) (fX w) s
  | .vaddS => execVaddS (fA w) (fB w) (hiC (fHi w)) (fX w) s
  | .vsubS => execVsubS (fA w) (fB w) (hiC (fHi w)) (fX w) s
  | .vrsubS => execVrsubS (fA w) (fB w) (hiC (fHi w)) (fX w) s
  | .vmulS => execVmulS (fA w) (fB w) (hiC (fHi w)) (fX w) s
  | .vmulhS => execVmulhS (fA w) (fB w) (hiC (fHi w)) (fX w) s
  | .vmulhuS => execVmulhuS (fA w) (fB w) (hiC (fHi w)) (fX w) s
  | .vmaccS => execVmaccS (fA w) (fB w) (hiC (fHi w)) (fX w) s
  | .vnmsacS => execVnmsacS (fA w) (fB w) (hiC (fHi w)) (fX w) s
  | .vdivS => execVdivS (fA w) (fB w) (hiC (fHi w)) (fX w) s
  | .vdivuS => execVdivuS (fA w) (fB w) (hiC (fHi w)) (fX w) s
  | .vremS => execVremS (fA w) (fB w) (hiC (fHi w)) (fX w) s
  | .vremuS => execVremuS (fA w) (fB w) (hiC (fHi w)) (fX w) s
  | .vsaddS => execVsaddS (fA w) (fB w) (hiC (fHi w)) (fX w) s
  | .vssubS => execVssubS (fA w) (fB w) (hiC (fHi w)) (fX w) s
  | .vabsdS => execVabsdS (fA w) (fB w) (hiC (fHi w)) (fX w) s
  | .vand => execVand (fA w) (fB w) (hiC (fHi w)) (fX w) s
  | .vor => execVor (fA w) (fB w) (hiC (fHi w)) (fX w) s
  | .vxor => execVxor (fA w) (fB w) (hiC (fHi w)) (fX w) s
  | .vandn => execVandn (fA w) (fB w) (hiC (fHi w)) (fX w) s
  | .vshl => execVshl (fA w) (fB w) (hiC (fHi w)) (fX w) s
  | .vshr => execVshr (fA w) (fB w) (hiC (fHi w)) (fX w) s
  | .vsra => execVsra (fA w) (fB w) (hiC (fHi w)) (fX w) s
  | .vmin => execVmin (fA w) (fB w) (hiC (fHi w)) (fX w) s
  | .vmax => execVmax (fA w) (fB w) (hiC (fHi w)) (fX w) s
  | .vminu => execVminu (fA w) (fB w) (hiC (fHi w)) (fX w) s
  | .vmaxu => execVmaxu (fA w) (fB w) (hiC (fHi w)) (fX w) s
  | .vsel => execVsel (fA w) (fB w) (hiC (fHi w)) s
  | .vmov => execVmov (fA w) (hiC (fHi w)) (fX w) s
  | .vandS => execVandS (fA w) (fB w) (hiC (fHi w)) (fX w) s
  | .vorS => execVorS (fA w) (fB w) (hiC (fHi w)) (fX w) s
  | .vxorS => execVxorS (fA w) (fB w) (hiC (fHi w)) (fX w) s
  | .vandnS => execVandnS (fA w) (fB w) (hiC (fHi w)) (fX w) s
  | .vshlS => execVshlS (fA w) (fB w) (hiC (fHi w)) (fX w) s
  | .vshrS => execVshrS (fA w) (fB w) (hiC (fHi w)) (fX w) s
  | .vsraS => execVsraS (fA w) (fB w) (hiC (fHi w)) (fX w) s
  | .vminS => execVminS (fA w) (fB w) (hiC (fHi w)) (fX w) s
  | .vmaxS => execVmaxS (fA w) (fB w) (hiC (fHi w)) (fX w) s
  | .vminuS => execVminuS (fA w) (fB w) (hiC (fHi w)) (fX w) s
  | .vmaxuS => execVmaxuS (fA w) (fB w) (hiC (fHi w)) (fX w) s
  | .vselS => execVselS (fA w) (fB w) (hiC (fHi w)) s
  | .vmovS => execVmovS (fA w) (hiC (fHi w)) (fX w) s
  | .vaddi => execVaddi (fA w) (fB w) (hiLow8 (fHi w)) (fX w) s
  | .vmuli => execVmuli (fA w) (fB w) (hiLow8 (fHi w)) (fX w) s
  | .vshli => execVshli (fA w) (fB w) (hiLow8 (fHi w)) (fX w) s
  | .vshri => execVshri (fA w) (fB w) (hiLow8 (fHi w)) (fX w) s
  | .vsrai => execVsrai (fA w) (fB w) (hiLow8 (fHi w)) (fX w) s
  | .vandi => execVandi (fA w) (fB w) (hiLow8 (fHi w)) (fX w) s
  | .vori => execVori (fA w) (fB w) (hiLow8 (fHi w)) (fX w) s
  | .vli => execVli (fA w) (hiLow8 (fHi w)) (fX w) s
  | .vfadd => execVfadd (fA w) (fB w) (hiC (fHi w)) (fX w) s
  | .vfsub => execVfsub (fA w) (fB w) (hiC (fHi w)) (fX w) s
  | .vfmul => execVfmul (fA w) (fB w) (hiC (fHi w)) (fX w) s
  | .vfma => execVfma (fA w) (fB w) (hiC (fHi w)) (fX w) s
  | .vfms => execVfms (fA w) (fB w) (hiC (fHi w)) (fX w) s
  | .vfnma => execVfnma (fA w) (fB w) (hiC (fHi w)) (fX w) s
  | .vfdiv => execVfdiv (fA w) (fB w) (hiC (fHi w)) (fX w) s
  | .vfmin => execVfmin (fA w) (fB w) (hiC (fHi w)) (fX w) s
  | .vfmax => execVfmax (fA w) (fB w) (hiC (fHi w)) (fX w) s
  | .vfsgn => execVfsgn (fA w) (fB w) (hiC (fHi w)) (fX w) s
  | .vfaddS => execVfaddS (fA w) (fB w) (hiC (fHi w)) (fX w) s
  | .vfsubS => execVfsubS (fA w) (fB w) (hiC (fHi w)) (fX w) s
  | .vfmulS => execVfmulS (fA w) (fB w) (hiC (fHi w)) (fX w) s
  | .vfmaS => execVfmaS (fA w) (fB w) (hiC (fHi w)) (fX w) s
  | .vfmsS => execVfmsS (fA w) (fB w) (hiC (fHi w)) (fX w) s
  | .vfnmaS => execVfnmaS (fA w) (fB w) (hiC (fHi w)) (fX w) s
  | .vfdivS => execVfdivS (fA w) (fB w) (hiC (fHi w)) (fX w) s
  | .vfminS => execVfminS (fA w) (fB w) (hiC (fHi w)) (fX w) s
  | .vfmaxS => execVfmaxS (fA w) (fB w) (hiC (fHi w)) (fX w) s
  | .vfsgnS => execVfsgnS (fA w) (fB w) (hiC (fHi w)) (fX w) s
  | .vfsqrt => execVfsqrt (fA w) (fB w) (fX w) s
  | .vfrcp => execVfrcp (fA w) (fB w) (fX w) s
  | .vfrsq => execVfrsq (fA w) (fB w) (fX w) s
  | .vfexp2 => execVfexp2 (fA w) (fB w) (fX w) s
  | .vflog2 => execVflog2 (fA w) (fB w) (fX w) s
  | .vfsin => execVfsin (fA w) (fB w) (fX w) s
  | .vfcos => execVfcos (fA w) (fB w) (fX w) s
  | .vftanh => execVftanh (fA w) (fB w) (fX w) s
  | .vfsigm => execVfsigm (fA w) (fB w) (fX w) s
  | .vfabs => execVfabs (fA w) (fB w) (fX w) s
  | .vfneg => execVfneg (fA w) (fB w) (fX w) s
  | .vfclass => execVfclass (fA w) (fB w) (fX w) s
  | .vfrnd => execVfrnd (fA w) (fB w) (fX w) s
  | .vcmpEq => execVcmpEq (fA w) (fB w) (hiC (fHi w)) (fX w) s
  | .vcmpNe => execVcmpNe (fA w) (fB w) (hiC (fHi w)) (fX w) s
  | .vcmpLt => execVcmpLt (fA w) (fB w) (hiC (fHi w)) (fX w) s
  | .vcmpGe => execVcmpGe (fA w) (fB w) (hiC (fHi w)) (fX w) s
  | .vcmpLtu => execVcmpLtu (fA w) (fB w) (hiC (fHi w)) (fX w) s
  | .vcmpGeu => execVcmpGeu (fA w) (fB w) (hiC (fHi w)) (fX w) s
  | .vcmpEqS => execVcmpEqS (fA w) (fB w) (hiC (fHi w)) (fX w) s
  | .vcmpNeS => execVcmpNeS (fA w) (fB w) (hiC (fHi w)) (fX w) s
  | .vcmpLtS => execVcmpLtS (fA w) (fB w) (hiC (fHi w)) (fX w) s
  | .vcmpGeS => execVcmpGeS (fA w) (fB w) (hiC (fHi w)) (fX w) s
  | .vcmpLtuS => execVcmpLtuS (fA w) (fB w) (hiC (fHi w)) (fX w) s
  | .vcmpGeuS => execVcmpGeuS (fA w) (fB w) (hiC (fHi w)) (fX w) s
  | .vfcmpEq => execVfcmpEq (fA w) (fB w) (hiC (fHi w)) (fX w) s
  | .vfcmpNe => execVfcmpNe (fA w) (fB w) (hiC (fHi w)) (fX w) s
  | .vfcmpLt => execVfcmpLt (fA w) (fB w) (hiC (fHi w)) (fX w) s
  | .vfcmpLe => execVfcmpLe (fA w) (fB w) (hiC (fHi w)) (fX w) s
  | .vfcmpUn => execVfcmpUn (fA w) (fB w) (hiC (fHi w)) (fX w) s
  | .vfcmpOr => execVfcmpOr (fA w) (fB w) (hiC (fHi w)) (fX w) s
  | .vcvt => execVcvt (fA w) (fB w) (low5 (hiC (fHi w))) (fX w) s
  | .vcvtk => execVcvtk (fA w) (fB w) (low5 (hiC (fHi w))) (fX w) s
  | .vwid => execVwid (fA w) (fB w) (fX w) s
  | .vnar => execVnar (fA w) (fB w) (fX w) s
  | .vxchS => execVxchS (fA w) (fB w) (hiC (fHi w)) (fX w) s
  | .vxch => execVxch (fA w) (fB w) (hiC (fHi w)) (fX w) s
  | .vslup => execVslup (fA w) (fB w) (hiC (fHi w)) (fX w) s
  | .vsldn => execVsldn (fA w) (fB w) (hiC (fHi w)) (fX w) s
  | .vperm => execVperm (fA w) (fB w) (hiC (fHi w)) (fX w) s
  | .vbcast => execVbcast (fA w) (fB w) (hiC (fHi w)) (fX w) s
  | .vextr => execVextr (fA w) (fB w) (hiC (fHi w)) s
  | .vins => execVins (fA w) (fB w) (hiC (fHi w)) (fX w) s
  | .vcomp => execVcomp (fA w) (fB w) (fX w) s
  | .vexpd => execVexpd (fA w) (fB w) (fX w) s
  | .viota => execViota (fA w) (fX w) s
  | .vrev => execVrev (fA w) (fB w) (fX w) s
  | .vrsum => execVrsum (fA w) (fB w) (hiC (fHi w)) (fX w) s
  | .vrmin => execVrmin (fA w) (fB w) (hiC (fHi w)) (fX w) s
  | .vrmax => execVrmax (fA w) (fB w) (hiC (fHi w)) (fX w) s
  | .vrminu => execVrminu (fA w) (fB w) (hiC (fHi w)) (fX w) s
  | .vrmaxu => execVrmaxu (fA w) (fB w) (hiC (fHi w)) (fX w) s
  | .vrand => execVrand (fA w) (fB w) (hiC (fHi w)) (fX w) s
  | .vror => execVror (fA w) (fB w) (hiC (fHi w)) (fX w) s
  | .vrxor => execVrxor (fA w) (fB w) (hiC (fHi w)) (fX w) s
  | .vrfsum => execVrfsum (fA w) (fB w) (hiC (fHi w)) (fX w) s
  | .vrfmin => execVrfmin (fA w) (fB w) (hiC (fHi w)) (fX w) s
  | .vrfmax => execVrfmax (fA w) (fB w) (hiC (fHi w)) (fX w) s
  | .vscanAdd => execVscanAdd (fA w) (fB w) (hiC (fHi w)) (fX w) s
  | .vfscanAdd => execVfscanAdd (fA w) (fB w) (hiC (fHi w)) (fX w) s
  | .vscanlin => execVscanlin (fA w) (fB w) (hiC (fHi w)) (fX w) s
  | .pand => execPand (fA w) (fB w) (hiC (fHi w)) s
  | .por => execPor (fA w) (fB w) (hiC (fHi w)) s
  | .pxor => execPxor (fA w) (fB w) (hiC (fHi w)) s
  | .pandn => execPandn (fA w) (fB w) (hiC (fHi w)) s
  | .pnot => execPnot (fA w) (fB w) s
  | .pset => execPset (fA w) s
  | .pclr => execPclr (fA w) s
  | .pcnt => execPcnt (fA w) (fB w) s
  | .pfirst => execPfirst (fA w) (fB w) s
  | .pmov => execPmov (fA w) (fB w) s
  | .pfromv => execPfromv (fA w) (fB w) s
  | .ptov => execPtov (fA w) (fB w) s
  | .vld => execVld (fA w) (fB w) (fX w) s
  | .vldFf => execVldFf (fA w) (fB w) (fX w) s
  | .vlds => execVlds (fA w) (fB w) (hiC (fHi w)) (fX w) s
  | .vldsFf => execVldsFf (fA w) (fB w) (hiC (fHi w)) (fX w) s
  | .vldg => execVldg (fA w) (fB w) (hiC (fHi w)) (fX w) s
  | .vldx => execVldx (fA w) (fB w) (hiC (fHi w)) (fX w) s
  | .vldxFf => execVldxFf (fA w) (fB w) (hiC (fHi w)) (fX w) s
  | .vldb => execVldb (fA w) (fB w) (hiC (fHi w)) (fX w) s
  | .vldbFf => execVldbFf (fA w) (fB w) (hiC (fHi w)) (fX w) s
  | .vpfd => execVpfd (fB w) (hiC (fHi w)) s
  | .vst => execVst (fA w) (fB w) (fX w) s
  | .vsts => execVsts (fA w) (fB w) (hiC (fHi w)) (fX w) s
  | .vstg => execVstg (fA w) (fB w) (hiC (fHi w)) (fX w) s
  | .vstx => execVstx (fA w) (fB w) (hiC (fHi w)) (fX w) s
  | .vstb => execVstb (fA w) (fB w) (low5 (hiC (fHi w))) (fX w) s
  | .vamoadd => execVamoadd (fA w) (fB w) (hiC (fHi w)) (fX w) s
  | .vamomin => execVamomin (fA w) (fB w) (hiC (fHi w)) (fX w) s
  | .vamomax => execVamomax (fA w) (fB w) (hiC (fHi w)) (fX w) s
  | .vamoswp => execVamoswp (fA w) (fB w) (hiC (fHi w)) (fX w) s
  | .vamofadd => execVamofadd (fA w) (fB w) (hiC (fHi w)) (fX w) s
  | .talloc => execTalloc (fA w) (fB w) (hiC (fHi w)) s
  | .tallocZ => execTallocZ (fA w) (fB w) (hiC (fHi w)) s
  | .tfree => execTfree (fB w) s
  | .tstat => execTstat (fA w) (fB w) (hiC (fHi w)) s
  | .tstatMask => execTstatMask (fA w) (fB w) (hiC (fHi w)) s
  | .tldR => execTldR (fA w) (fB w) (hiC (fHi w)) (fX w) s
  | .tldC => execTldC (fA w) (fB w) (hiC (fHi w)) (fX w) s
  | .tstR => execTstR (fA w) (fB w) (hiC (fHi w)) (fX w) s
  | .tstC => execTstC (fA w) (fB w) (hiC (fHi w)) (fX w) s
  | .cpyin => execCpyin (fA w) (fB w) (hiC (fHi w)) s
  | .cpyg => execCpyg (fA w) (fB w) (hiC (fHi w)) s
  | .cpymc => execCpymc (fA w) (fB w) (hiC (fHi w)) s
  | .cpyout => execCpyout (fA w) (fB w) (hiC (fHi w)) s
  | .cwait => execCwait (fB w) s
  | .sbind => execSbind (fA w) (fB w) (hiC (fHi w)) s
  | .sunbind => execSunbind (fA w) s
  | .sstat => execSstat (fA w) (fB w) s
  | .sstatMask => execSstatMask (fA w) (fB w) s
  | .kld => execKld (fA w) (fB w) (hiC (fHi w)) s
  | .kst => execKst (fA w) (fB w) (hiC (fHi w)) s
  | .kmov => execKmov (fA w) (fB w) s
  | .kset => execKset (fA w) (fB w) s
  | .tshape => execTshape (fA w) (fB w) (hiC (fHi w)) s
  | .mzero => execMzero (fA w) s
  | .mldop => execMldop (fA w) (fB w) (hiC (fHi w)) s
  | .mldopFf => execMldopFf (fA w) (fB w) (hiC (fHi w)) s
  | .mxoa => execMxoa (fB w) (hiC (fHi w)) (fnLow (hiFn (fHi w))) (low5 (fA w)) s
  | .mxos => execMxos (fB w) (hiC (fHi w)) (fnLow (hiFn (fHi w))) (low5 (fA w)) s
  | .mlda => execMlda (fA w) (fB w) (hiC (fHi w)) s
  | .msta => execMsta (fA w) (fB w) (hiC (fHi w)) s
  | .mrd => execMrd (fA w) (fB w) s
  | .mwr => execMwr (fA w) (fB w) s
  | .smmul => execSmmul (fA w) (fB w) (hiC (fHi w)) (fX w) s
  | .smmult => execSmmult (fA w) (fB w) (hiC (fHi w)) (fX w) s
  | .smchol => execSmchol (fA w) (fB w) (fX w) s
  | .smlup => execSmlup (fA w) (fB w) (hiC (fHi w)) (fX w) s
  | .smsolc => execSmsolc (fA w) (fB w) (fX w) s
  | .smsolp => execSmsolp (fA w) (fB w) (hiC (fHi w)) (fX w) s
  | .smtran => execSmtran (fA w) (fB w) (fX w) s
  | .chcfg => execChcfg (fB w) s
  | .chend => execChend s
  | .chrun => execChrun (fB w) (hiC (fHi w)) s
  | .chwait => execChwait s
  | .chstat => execChstat (fA w) (fB w) s
  | .chsave => execChsave (fB w) s
  | .chload => execChload (fB w) s
  | .chdrop => execChdrop s
  | .turn => execTurn (fA w) (fB w) (hiC (fHi w)) (fX w) s
  | .link => execLink (fB w) s
  | .qpush => execQpush (fA w) (fB w) s
  | .qpop => execQpop (fA w) (fB w) s
  | .qspace => execQspace (fA w) (fB w) s
  | .qcnt => execQcnt (fA w) (fB w) s
  | .qclr => execQclr (fA w) s
  | .book => execBook (fA w) (fB w) s
  | .bkqry => execBkqry (fA w) (fB w) s
  | .bkrel => execBkrel s
  | .bkwait => execBkwait s
  | .srscfg => execSrscfg (fB w) s
  | .srsstep => execSrsstep s
  | .srsmap => execSrsmap (fA w) (fB w) s
  | .srsclr => execSrsclr s
  | .srssig => execSrssig (fB w) s
  | .barw => execBarw (fB w) s
  | .signal => execSignal (fB w) (hiC (fHi w)) s
  | .waitv => execWaitv (fB w) (hiC (fHi w)) s
  | .qcmd => execQcmd (fA w) (fB w) (hiC (fHi w)) s
  | .tdone => execTdone s
  | .dsig => execDsig (fB w) s

/-! ### REP's stepped fields (R154) -/

/-- A field moved by j strides, if it stays within 0 to 127. -/
def stepField (f : Reg) (stride : Int) (j : Nat) (on : Bool) : Option Reg :=
  if on then
    let v : Int := f.toNat + j * stride
    if 0 ≤ v && v ≤ 127 then some (BitVec.ofInt 7 v) else none
  else some f

/-- The word of iteration j. -/
def stepWord (w : BitVec 32) (fm : BitVec 3) (stride : Int) (j : Nat) : Option (BitVec 32) :=
  match stepField (fA w) stride j (fm.getLsbD 2), stepField (fB w) stride j (fm.getLsbD 1),
      stepField (hiC (fHi w)) stride j (fm.getLsbD 0) with
  | some a, some b, some c => some (pack (fOp w) (fX w) a b (hiFn (fHi w) ++ c))
  | _, _, _ => none

/-- The word that issues: the fetched one, or the repeated word with the fields of its iteration. -/
def Drover.issueWord (d : Drover) (w : BitVec 32) : Option (BitVec 32) :=
  if d.reps.go then stepWord w d.reps.fm d.reps.strd.toInt (d.reps.total - d.reps.cnt.toNat) else some w

/-! ### Checks at issue -/

/-- An instruction that executes during a capture; other words are captured, and never match (R292, R419). -/
def Row.executes (r : Row) : Bool :=
  match r with
  | .setvty | .settl | .tshape | .link | .chend => true
  | _ => false

/-- The row of a word that is an instruction. -/
def rowOf (w : BitVec 32) : Option Row :=
  match decodeRow w with
  | .ok r => if r.wf w then some r else none
  | .error _ => none

/-- The instruction breakpoints that an issuing word matches (R419). -/
def breakHits (g : Debug) (sup : Bool) (stro : Nat) (pc : Word) : List Nat :=
  if !g.dctl.getLsbD 0 then []
  else (List.range 8).filter (fun i => g.iba.toList.getD i 0 == pc && ctlAdmits (g.ibc.toList.getD i 0) sup stro)

/-- Whether breakpoints are looked at: not under SKIP1, nor where the word has issued before and goes on after a suspension or a halt
(log 52). -/
def Drover.matchable (d : Drover) : Bool := !d.skip1 && !d.again && !d.repBack

/-- DCTL.SSTOP of a flock (R418). -/
def State.sstop (s : State) (flock : Nat) : Bool := (s.debug flock).dctl.getLsbD 2

/-- A breakpoint's trap, or debug halt (R419). -/
def State.takeBreak (s : State) (hits : List Nat) : State :=
  let d := s.cur
  let s := s.setHits d.flock [] hits
  if (s.debug d.flock).dctl.getLsbD 1 then s.debugHalt s.sel false 0
  else s.takeTrap s.sel { d.trapOf cBRKPT with va := wordOf (0x10000 + hits.headD 0), ex := true, partway := d.partly }

/-- A strip ends at SETVL, CHRUN and EXIT (R417). -/
def Row.endsStrip (r : Row) : Bool :=
  match r with
  | .setvl | .chrun | .exit => true
  | _ => false

/-- The register that a BOOK or BKQRY still has to write holds back the instructions that name it (R44, R333, R334). -/
def Drover.awaitsSearch (d : Drover) (w : BitVec 32) : Bool :=
  match d.bks.search with
  | none => false
  | some x => x.reg != 0 && (fA w == x.reg || fB w == x.reg || hiC (fHi w) == x.reg)

/-- The word the drover issues has been fetched: breakpoint, strip stop, encoding, dependences, then its meaning (R104). -/
def State.issueFetched (s : State) (w : BitVec 32) : Res :=
  let d := s.cur
  let row := rowOf w
  let captured := d.capture.isSome && !(row.any Row.executes)
  let hits := if captured || !d.matchable then [] else breakHits (s.debug d.flock) d.tr.sup d.stro d.iaddr
  if !hits.isEmpty then .next (s.takeBreak hits)
  else if row.any Row.endsStrip && s.sstop d.flock then .next (s.debugHalt s.sel false 0)
  else if d.awaitsSearch w then s.notReady 2
  else if d.capture.isSome then execCaptureWord w s
  else match d.issueWord w with
    | none => s.trapIssue cWINOV
    | some w =>
      match rowOf w with
      | none => execNonInstructionWord w s
      | some r => runRow r w s

/-- A stepped drover takes STEP before the next instruction it would execute (R422). -/
def State.stepTrap (s : State) : State :=
  let d := s.cur
  s.takeTrap s.sel { d.trapOf cSTEP with epc := d.pc, fpc := d.pc, partway := d.partly }

/-- The executing drover holds its lane groups, or is granted them now (R24, R26). A drover without a grant asks at its SETVL. -/
def State.withLanes (s : State) : State × Bool :=
  let d := s.cur
  if d.granted && (d.request.isSome || d.lgm == 0) then s.grantPoint s.sel else (s, true)

/-- The executing drover issues its next instruction, or finds that it is not ready. -/
def State.issueCur (s : State) : Res :=
  match s.withLanes with
  | (s, false) => s.notReady 6
  | (s, true) =>
    let d := s.cur
    if d.stepping && d.stepped then .next s.stepTrap
    else if d.reps.go then s.issueFetched d.reps.ins
    else match s.fetchAt (s.agentOf s.sel) d.pc with
      | .wait s => s.notReady 15
      | .fail s f => .next (s.fetchFault f)
      | .ok s w => s.issueFetched w

/-- A drover issues. -/
def State.issue (s : State) (key : Nat) : Res := { s with sel := key }.issueCur

/-! ### The front end of a core (R17) -/

/-- A drover that may have an instruction to issue. -/
def Drover.mightIssue (d : Drover) : Bool := d.state == .issuing && !d.yielding
/-- One whose next instruction is not known to wait. -/
def Drover.fresh (d : Drover) : Bool := d.mightIssue && d.stall.isNone && d.request.isNone

/-- The drovers of a core that may issue, from the rotating pointer on. -/
def State.turnOrder (s : State) (core : Nat) : List Nat :=
  ((List.range 8).map (fun i => 8 * core + ((s.core core).rr + i) % 8)).filter (fun k => (s.drover k).mightIssue)

/-- What an issue does to the core: the pointer stands one slot past the drover, and YIELDs count it (R17, R150). -/
def State.noteIssue (s : State) (core key : Nat) : State :=
  let s := s.setCore core { s.core core with rr := (slotOf key + 1) % 8 }
  (keysOf core).foldl (fun (s : State) k =>
    if k = key || (s.drover k).yieldUntil.isNone then s
    else s.setDrover k { s.drover k with yieldFor := (s.drover k).yieldFor.filter (· != key) }) s

/-- The first of some drovers whose instruction is ready issues it; those before it are not ready. The key tells which. -/
def State.frontEnd (s : State) (core : Nat) (keys : List Nat) : Host.Outcome (State × Option Nat) Fault Refusal :=
  match keys with
  | [] => .next (s, none)
  | k :: rest =>
    match s.issue k with
    | .fault f => .fault f
    | .refused r => .refused r
    | .next t =>
      if (t.drover k).stall.isSome then t.frontEnd core rest
      else .next (t.noteIssue core k, some k)

end Sys2Proof.Machine
end

