-- ==== Sys2Proof/Machine/Cycle.lean ====
section
/-! DEFINITION. The passing of cycles: lane counts (R426), samples (R425), stops of drovers that are not issuing (R421), expiries
(R150, R299, R447), calendar quanta (R325); and the events that a number of cycles brings about. One cycle count serves the package
(log 3). -/
namespace Sys2Proof.Machine

/-! ### Lane counts (R426) -/

def LaneCount.zero : LaneCount := { c := 0, u := 0, m := 0, b := 0, d := 0, s := 0 }
/-- A cycle in which no instruction of the drover occupies the group. -/
def LaneCount.stalled : LaneCount := { c := 1, u := 0, m := 0, b := 0, d := 0, s := 64 }
/-- A cycle of start-up dead time: a migration, a refill, a chain placement. -/
def LaneCount.dead : LaneCount := { c := 1, u := 0, m := 0, b := 0, d := 64, s := 0 }
def LaneCount.add (x y : LaneCount) : LaneCount :=
  { c := x.c + y.c, u := x.u + y.u, m := x.m + y.m, b := x.b + y.b, d := x.d + y.d, s := x.s + y.s }

/-- Start-up dead time of a cycle: one in which a grant migrated or refilled the rectangle, or in which a run of the drover that is to be
chained is not yet placed (log 40). -/
def Drover.deadCycle (d : Drover) : Bool :=
  d.dead || (d.cst.run && !d.cst.tmp && (d.run.map (fun r => !r.placed)).getD false)

/-- Each group the drover holds counts a cycle; what occupied it is used up. -/
def Drover.countLanes (d : Drover) : Drover :=
  let gs := (List.range 16).filter (fun g => d.lgm.getLsbD g)
  let use := fun (g : Nat) => if d.deadCycle then LaneCount.dead else assocGetD d.occupied LaneCount.stalled g
  { d with
    occupied := [], laneMask := d.lgm, dead := false
    lanes := gs.map (fun g => (g, (assocGetD d.lanes LaneCount.zero g).add (use g))) }

/-- A group whose interval has reached 2^31 cycles. -/
def laneFull (e : Nat × LaneCount) : Bool := decide (e.2.c ≥ pow2 31)

/-- The intervals of full groups end. -/
def State.emitFull (s : State) (key : Nat) : State :=
  let d := s.drover key
  if d.lanes.any laneFull then
    let s := (s.setDrover key { d with lanes := d.lanes.filter laneFull }).emitLanes key
    s.setDrover key { s.drover key with lanes := d.lanes.filter (fun e => !laneFull e) }
  else s

/-- A cycle of a drover's lane groups; a grant change ended their intervals. -/
def State.laneCycle (s : State) (key : Nat) : State :=
  let d := s.drover key
  if d.lgm = 0 && d.laneMask = 0 then s
  else
    let s := if d.laneMask = d.lgm then s else s.emitLanes key
    (s.setDrover key (s.drover key).countLanes).emitFull key

/-! ### Samples (R425) -/

/-- The sampling period of a drover's flock, 0 for none. -/
def State.slog (s : State) (flock : Nat) : Nat := bitsOf (s.debug flock).dctl 24 5

def DroverState.number (d : DroverState) : Nat :=
  match d with
  | .issuing => 0
  | .awaiting => 1
  | .trapped => 2
  | .halted => 3
  | .exited => 4

/-- The lowest reason of R425 that held in the cycle: the drover issued, or it stands ready, or why its next instruction would not issue:
an attempt tells, and is taken back. No reason holds for a halted drover. -/
def State.reason (s : State) (key : Nat) (issued : Bool) : Nat :=
  let d := s.drover key
  if issued then 0
  else match d.state with
    | .issuing =>
      if d.yielding then 1
      else match s.issue key with
        | .next t => ((t.drover key).stall).getD 1
        | _ => 1
    | .awaiting => 9
    | .trapped => 13
    | _ => 0xFF

/-- A sample is due: a whole number of periods has passed since the drover's start. -/
def State.sampleDue (s : State) (d : Drover) : Bool :=
  s.slog d.flock != 0 && decide (s.cycle > d.born) && (s.cycle - d.born) % pow2 (s.slog d.flock) == 0

/-- A context of a granted trace is sampled no more often than the grant allows (R447). -/
def State.sampleAllowed (s : State) (d : Drover) : Bool :=
  !s.isConf d.ctx || ((s.context d.ctx).map (fun (c : Context) => decide (s.slog d.flock ≤ c.grantSlog))).getD false

def State.sample (s : State) (issued : Option Nat) (key : Nat) : State :=
  let d := s.drover key
  if d.resident && s.sampleDue d && s.sampleAllowed d then
    s.emit d.flock d.ctx clsSample 0x03 0 (coreOf key) srcDrover (slotOf key)
      (leBytes 8 d.pc.toNat ++ leBytes 8 d.strp.toNat ++ leBytes 6 d.stro ++ leBytes 1 (s.reason key (issued == some key)) ++
        leBytes 1 d.state.number ++ leBytes 4 d.flock)
  else s

/-! ### Expiries and stops -/

/-- A YIELD ends after 64 cycles (R150). -/
def State.expireYield (s : State) (key : Nat) : State :=
  let d := s.drover key
  match d.yieldUntil with
  | some n => if n ≤ s.cycle || d.yieldFor.isEmpty then s.setDrover key { d with yieldUntil := none, yieldFor := [] } else s
  | none => s

/-- Trace grants end at their expiry (R447). -/
def State.expireGrants (s : State) : State :=
  { s with ctxs := s.ctxs.map (fun (e : Nat × Context) =>
      match e.2.grantUntil with
      | some u => if u ≤ s.cycle then (e.1, { e.2 with grantUntil := none }) else e
      | none => e) }

/-- A drover that nothing holds halted resumes; the rest of a debug halt is done (R404, R405, R416); a strip stop takes a drover that is
not issuing at once (R421). -/
def State.stopIdle (s : State) (key : Nat) : State :=
  let d := s.drover key
  if d.state == .halted && !d.dbgHalt && !d.preempted then s.unhalt key
  else if d.state == .halted then s.settleHalt key
  else if (d.state == .awaiting || d.state == .trapped) && s.sstop d.flock then s.haltForDebug key else s

/-! ### One cycle -/

/-- What a cycle does to a drover. -/
def State.tickDrover (s : State) (issued : Option Nat) (key : Nat) : State :=
  ((((s.laneCycle key).sample issued key).expireYield key).placeTimeout key).stopIdle key

/-- What the blocks do at a quantum boundary: the calendars (R325), fault breaks delivered to waiting drovers (R314), the re-reads
of WAITV and WAITVAL (R235, R366). -/
def State.boundary (s : State) : State :=
  let s := s.beginQuantum
  let keys := s.drovers.map (·.1)
  let s := keys.foldl (fun (s : State) k => (s.failOver k).breakWaiter k) s
  let s := keys.foldl (fun (s : State) k => s.reread k) s
  s.readHolds

/-- Tasks that wait for a booked start (R380). -/
def State.heldTasks (s : State) : List Nat :=
  (s.tasks.filter (fun e => match e.2.st with
    | .held _ => true
    | _ => false)).map (·.1)

/-- A cycle passes; `issued` is the drover whose instruction issued in it. At its end the aborts asked in it take effect, and waiting tasks
notice what retired in it (R376, R386). -/
def State.tick (s : State) (issued : Option Nat) : State :=
  let s := s.performAborts.wakeTasks
  let s : State := { s with cycle := s.cycle + 1 }
  let s : State := (s.drovers.map (·.1)).foldl (fun (s : State) k => s.tickDrover issued k) s
  let s := s.expireGrants
  let s := if s.cycle % 8 = 1 then s.startBookings s.quantum true else s
  if s.cycle % 8 = 0 then
    let s := s.boundary
    s.heldTasks.foldl (fun (s : State) i => s.startHeld i) s
  else s

/-- Cycles in which nothing issues. -/
def State.pass (s : State) (n : Nat) : State :=
  match n with
  | 0 => s
  | k + 1 => (s.tick none).pass k

/-- Cycles pass up to a cycle count. -/
def State.passTo (s : State) (c : Nat) : State := s.pass (c - s.cycle)

/-- A cycle in which the front end of a core has its turn. -/
def State.issueCore (s : State) (core : Nat) : Res :=
  match s.frontEnd core (s.turnOrder core) with
  | .next (t, k) => .next (t.tick k)
  | .fault f => .fault f
  | .refused r => .refused r

/-! ### The events that time brings: cycles pass until each is due -/

/-- QUANTUM_BOUNDARY (R325). -/
def execQuantumBoundary (s : State) : Res := .next (s.passTo (8 * (s.quantum + 1)))

/-- BOOKED_START (R337). -/
def execBookedStart (key : Nat) (s : State) : Res :=
  match s.bookingOf key with
  | some b => .next (if b.started then s else s.passTo (8 * b.start + if (s.drover key).state == .issuing then 1 else 0))
  | none => .next s

/-- The first quantum after all entries of a booking, and after the first of its lg, mtx and strm entries to end. -/
def Booking.end_ (b : Booking) : Nat := b.entries.foldl (fun a e => if e.cls = kRange then a else Nat.max a e.until_) 0
def Booking.deadline (b : Booking) : Option Nat :=
  b.entries.foldl (fun a e =>
    if e.cls = kLg || e.cls = kMtx || e.cls = kStrm then some (match a with
      | some x => Nat.min x e.until_
      | none => e.until_) else a) none

/-- BOOKING_END (R337): a booking under which no run started ends with its last quantum. -/
def execBookingEnd (key : Nat) (s : State) : Res :=
  match s.bookingOf key with
  | some b => .next (if b.started && !b.runStarted then s.passTo (8 * b.end_) else s)
  | none => .next s

/-- BOOK_SEARCH_END (R333; log 30). -/
def execBookSearchEnd (key : Nat) (s : State) : Res :=
  .next (if (s.drover key).bks.search.isSome then s.passTo (8 * (s.quantum + 1)) else s)

/-- OVERRUN (R342). -/
def execOverrun (key : Nat) (s : State) : Res :=
  match s.bookingOf key with
  | some b => match b.started && b.runStarted, b.deadline with
    | true, some q => .next (s.passTo (8 * q))
    | _, _ => .next s
  | none => .next s

/-- TRACE_SAMPLE (R425). -/
def execTraceSample (key : Nat) (s : State) : Res :=
  let d := s.drover key
  let p := pow2 (s.slog d.flock)
  .next (if d.resident && s.slog d.flock != 0 then s.passTo (d.born + p * ((s.cycle - d.born) / p + 1)) else s)

/-- LANE_COUNT_EXPIRY (R426). -/
def execLaneCountExpiry (key g : Nat) (s : State) : Res :=
  let d := s.drover key
  .next (if d.lgm.getLsbD g && d.laneMask = d.lgm then s.pass (pow2 31 - (assocGetD d.lanes LaneCount.zero g).c) else s)

/-- TRACE_GRANT_EXPIRY (R447). -/
def execTraceGrantExpiry (ctx : Nat) (s : State) : Res :=
  match (s.context ctx).bind (fun (c : Context) => c.grantUntil) with
  | some u => .next (s.passTo u)
  | none => .next s

/-- CHAIN_PLACEMENT_TIMEOUT (R299). -/
def execChainPlacementTimeout (key : Nat) (s : State) : Res :=
  let d := s.drover key
  match d.run with
  | some r => .next (if d.cst.run && !r.placed then s.passTo (r.since + 256) else s)
  | none => .next s

/-- YIELD_TIMEOUT (R150). -/
def execYieldTimeout (key : Nat) (s : State) : Res :=
  match (s.drover key).yieldUntil with
  | some n => .next (s.passTo n)
  | none => .next s

/-- BOOKED_FLOCK_START (R380). -/
def execBookedFlockStart (task : Nat) (s : State) : Res :=
  match s.task task with
  | some t => match t.st with
    | .held q => .next (s.passTo (8 * q))
    | _ => .next s
  | none => .next s

end Sys2Proof.Machine
end

