-- ==== Sys2Proof/Machine/Background.lean ====
section
/-! DEFINITION. What the engines, the queues, the dispatcher, the management controller and the runs do on their own. The spec gives
no order between them and the drovers; with nothing on the agenda the model gives each its turn (log 1, log 14). -/
namespace Sys2Proof.Machine

/-- A piece of work that a block does without being told. -/
inductive Job where
  | fire (key node : Nat)
  | complete (key : Nat)
  | transfer (key ch id : Nat)
  | swapIn (h : Nat)
  | accept (h : Nat)
  | copy (h n : Nat)
  | pendings (h : Nat)
  | dispatch
  | finish (task : Nat)
  | command (fn : Nat)
  | inval (die : Nat)
  | reclaim (key : Nat)
  | retry (core : Nat)
  deriving DecidableEq, Repr

/-- The work of a drover's run. -/
def runJobs (e : Nat × Drover) : List Job :=
  if e.2.cst.run then
    ((List.range ((e.2.template.map (fun (t : Template) => t.nodes.length)).getD 0)).map (Job.fire e.1)) ++ [Job.complete e.1, Job.reclaim e.1]
  else []

/-- The work of a queue. -/
def queueJobs (e : Nat × WorkQueue) : List Job :=
  (if e.2.wanted then [Job.swapIn e.1] else []) ++ (if e.2.pend.isEmpty then [] else [Job.pendings e.1]) ++
    e.2.pend.filterMap (fun p => match p with
      | .copy n _ _ _ none => some (Job.copy e.1 n)
      | _ => none)

/-- The work of a core: its transfers, and a drover that found its instruction not ready. -/
def State.coreJobs (s : State) (e : Nat × Core) : List Job :=
  e.2.transfers.map (fun (t : Transfer) => Job.transfer t.drv t.ch t.id) ++
    (if (keysOf e.1).any (fun k => (s.drover k).mightIssue) then [Job.retry e.1] else [])

/-- All the work there is. -/
def State.jobs (s : State) : List Job :=
  s.drovers.flatMap runJobs ++ s.cores.flatMap s.coreJobs ++ s.queues.flatMap queueJobs ++
    (List.range 4).filterMap (fun n => (s.chosen n).map Job.accept) ++
    (if s.tasks.any (fun e => e.2.st == .ready || e.2.st == .waiting) then [Job.dispatch] else []) ++
    s.tasks.filterMap (fun e => if e.2.st == .ending then some (Job.finish e.1) else none) ++
    s.mgmt.fns.filterMap (fun e => if e.2.busy then some (Job.command e.1) else none) ++
    s.dies.filterMap (fun e => if e.2.invals.isEmpty then none else some (Job.inval e.1))

/-- The core's front end as a job, or one step of a block and a cycle. -/
def State.runJob (s : State) (j : Job) : Res :=
  let cycle := fun (r : Res) => match r with
    | .next t => .next (t.tick none)
    | other => other
  match j with
  | .fire key k => cycle (execChainNodeFire key k s)
  | .complete key => cycle (execChainRunComplete key s)
  | .transfer key ch id => cycle (execCopyTransferComplete key ch id s)
  | .swapIn h => cycle (execQueueSwapIn h s)
  | .accept h => cycle (.next (s.accept_ h (fun _ => true)))
  | .copy h n => cycle (execCopyRecordComplete h n s)
  | .pendings h => cycle (.next (s.runQueue h))
  | .dispatch => cycle (execFlockDispatch s)
  | .finish id => cycle (execFlockCompletion id s)
  | .command n => cycle (execCommandCompletion n s)
  | .inval n => cycle (execInvalidationComplete n s)
  | .reclaim key => cycle (execLaneReclamation key s)
  | .retry core => s.issueCore core

/-- One job, by turns; with none, a cycle passes. -/
def State.doJob (s : State) : Res :=
  match s.jobs[s.turn % s.jobs.length]? with
  | some j => { s with turn := s.turn + 1 }.runJob j
  | none => .next (s.tick none)

/-- The cores on which a drover may have an instruction ready, the one after the last first. -/
def State.freshCores (s : State) : List Nat :=
  let cs := (s.cores.map (·.1)).filter (fun c => (keysOf c).any (fun k => (s.drover k).fresh))
  cs.filter (fun c => decide (c > coreOf s.sel)) ++ cs.filter (fun c => decide (c ≤ coreOf s.sel))

/-- A step with nothing on the agenda: cores issue by turns, and once in eight cycles, or when no drover is ready, a job is done. -/
def State.free (s : State) : Res :=
  match s.freshCores with
  | c :: _ => if s.cycle % 8 = 0 then s.doJob else s.issueCore c
  | [] => s.doJob

end Sys2Proof.Machine
end

