-- ==== Sys2Proof/Machine/Dispatch.lean ====
section
/-! DEFINITION. One arm per instruction and per event: the meaning of each. -/
namespace Sys2Proof.Machine

def exec (i : Instr) (s : State) : Host.Outcome State Fault Refusal :=
  match i with
  | .add a b c => Sys2Proof.Machine.execAdd a b c s
  | .sub a b c => Sys2Proof.Machine.execSub a b c s
  | .mul a b c => Sys2Proof.Machine.execMul a b c s
  | .mulh a b c => Sys2Proof.Machine.execMulh a b c s
  | .mulhu a b c => Sys2Proof.Machine.execMulhu a b c s
  | .mulhsu a b c => Sys2Proof.Machine.execMulhsu a b c s
  | .div a b c => Sys2Proof.Machine.execDiv a b c s
  | .divu a b c => Sys2Proof.Machine.execDivu a b c s
  | .rem a b c => Sys2Proof.Machine.execRem a b c s
  | .remu a b c => Sys2Proof.Machine.execRemu a b c s
  | .and a b c => Sys2Proof.Machine.execAnd a b c s
  | .or a b c => Sys2Proof.Machine.execOr a b c s
  | .xor a b c => Sys2Proof.Machine.execXor a b c s
  | .andn a b c => Sys2Proof.Machine.execAndn a b c s
  | .orn a b c => Sys2Proof.Machine.execOrn a b c s
  | .shl a b c => Sys2Proof.Machine.execShl a b c s
  | .shr a b c => Sys2Proof.Machine.execShr a b c s
  | .sra a b c => Sys2Proof.Machine.execSra a b c s
  | .ror a b c => Sys2Proof.Machine.execRor a b c s
  | .slt a b c => Sys2Proof.Machine.execSlt a b c s
  | .sltu a b c => Sys2Proof.Machine.execSltu a b c s
  | .min a b c => Sys2Proof.Machine.execMin a b c s
  | .max a b c => Sys2Proof.Machine.execMax a b c s
  | .minu a b c => Sys2Proof.Machine.execMinu a b c s
  | .maxu a b c => Sys2Proof.Machine.execMaxu a b c s
  | .clz a b => Sys2Proof.Machine.execClz a b s
  | .ctz a b => Sys2Proof.Machine.execCtz a b s
  | .popc a b => Sys2Proof.Machine.execPopc a b s
  | .exts a b c => Sys2Proof.Machine.execExts a b c s
  | .extz a b c => Sys2Proof.Machine.execExtz a b c s
  | .bswp a b => Sys2Proof.Machine.execBswp a b s
  | .selnz a b c => Sys2Proof.Machine.execSelnz a b c s
  | .addi a b im => Sys2Proof.Machine.execAddi a b im s
  | .andi a b im => Sys2Proof.Machine.execAndi a b im s
  | .ori a b im => Sys2Proof.Machine.execOri a b im s
  | .xori a b im => Sys2Proof.Machine.execXori a b im s
  | .slti a b im => Sys2Proof.Machine.execSlti a b im s
  | .sltiu a b im => Sys2Proof.Machine.execSltiu a b im s
  | .shli a b sh => Sys2Proof.Machine.execShli a b sh s
  | .shri a b sh => Sys2Proof.Machine.execShri a b sh s
  | .srai a b sh => Sys2Proof.Machine.execSrai a b sh s
  | .li a im => Sys2Proof.Machine.execLi a im s
  | .lih a im => Sys2Proof.Machine.execLih a im s
  | .adpc a im => Sys2Proof.Machine.execAdpc a im s
  | .jal a im => Sys2Proof.Machine.execJal a im s
  | .jalr a b im => Sys2Proof.Machine.execJalr a b im s
  | .beq a b im => Sys2Proof.Machine.execBeq a b im s
  | .bne a b im => Sys2Proof.Machine.execBne a b im s
  | .blt a b im => Sys2Proof.Machine.execBlt a b im s
  | .bge a b im => Sys2Proof.Machine.execBge a b im s
  | .bltu a b im => Sys2Proof.Machine.execBltu a b im s
  | .bgeu a b im => Sys2Proof.Machine.execBgeu a b im s
  | .ldb a b im => Sys2Proof.Machine.execLdb a b im s
  | .ldbz a b im => Sys2Proof.Machine.execLdbz a b im s
  | .ldh a b im => Sys2Proof.Machine.execLdh a b im s
  | .ldhz a b im => Sys2Proof.Machine.execLdhz a b im s
  | .ldw a b im => Sys2Proof.Machine.execLdw a b im s
  | .ldwz a b im => Sys2Proof.Machine.execLdwz a b im s
  | .ldd a b im => Sys2Proof.Machine.execLdd a b im s
  | .stb a b im => Sys2Proof.Machine.execStb a b im s
  | .sth a b im => Sys2Proof.Machine.execSth a b im s
  | .stw a b im => Sys2Proof.Machine.execStw a b im s
  | .std a b im => Sys2Proof.Machine.execStd a b im s
  | .amoswp a b c o => Sys2Proof.Machine.execAmoswp a b c o s
  | .amoadd a b c o => Sys2Proof.Machine.execAmoadd a b c o s
  | .amoand a b c o => Sys2Proof.Machine.execAmoand a b c o s
  | .amoor a b c o => Sys2Proof.Machine.execAmoor a b c o s
  | .amoxor a b c o => Sys2Proof.Machine.execAmoxor a b c o s
  | .amomin a b c o => Sys2Proof.Machine.execAmomin a b c o s
  | .amomax a b c o => Sys2Proof.Machine.execAmomax a b c o s
  | .amominu a b c o => Sys2Proof.Machine.execAmominu a b c o s
  | .amomaxu a b c o => Sys2Proof.Machine.execAmomaxu a b c o s
  | .amocas a b c o => Sys2Proof.Machine.execAmocas a b c o s
  | .fence k sh => Sys2Proof.Machine.execFence k sh s
  | .nop => Sys2Proof.Machine.execNop s
  | .trap n => Sys2Proof.Machine.execTrap n s
  | .eret => Sys2Proof.Machine.execEret s
  | .brk n => Sys2Proof.Machine.execBrk n s
  | .svc n => Sys2Proof.Machine.execSvc n s
  | .wait b => Sys2Proof.Machine.execWait b s
  | .yield => Sys2Proof.Machine.execYield s
  | .srd a sh => Sys2Proof.Machine.execSrd a sh s
  | .swr a sh => Sys2Proof.Machine.execSwr a sh s
  | .winb b => Sys2Proof.Machine.execWinb b s
  | .rep b c f => Sys2Proof.Machine.execRep b c f s
  | .exit => Sys2Proof.Machine.execExit s
  | .setvl a b => Sys2Proof.Machine.execSetvl a b s
  | .setvty a b => Sys2Proof.Machine.execSetvty a b s
  | .settl a b => Sys2Proof.Machine.execSettl a b s
  | .getg a => Sys2Proof.Machine.execGetg a s
  | .vadd a b c m => Sys2Proof.Machine.execVadd a b c m s
  | .vsub a b c m => Sys2Proof.Machine.execVsub a b c m s
  | .vrsub a b c m => Sys2Proof.Machine.execVrsub a b c m s
  | .vmul a b c m => Sys2Proof.Machine.execVmul a b c m s
  | .vmulh a b c m => Sys2Proof.Machine.execVmulh a b c m s
  | .vmulhu a b c m => Sys2Proof.Machine.execVmulhu a b c m s
  | .vmacc a b c m => Sys2Proof.Machine.execVmacc a b c m s
  | .vnmsac a b c m => Sys2Proof.Machine.execVnmsac a b c m s
  | .vdiv a b c m => Sys2Proof.Machine.execVdiv a b c m s
  | .vdivu a b c m => Sys2Proof.Machine.execVdivu a b c m s
  | .vrem a b c m => Sys2Proof.Machine.execVrem a b c m s
  | .vremu a b c m => Sys2Proof.Machine.execVremu a b c m s
  | .vsadd a b c m => Sys2Proof.Machine.execVsadd a b c m s
  | .vssub a b c m => Sys2Proof.Machine.execVssub a b c m s
  | .vabsd a b c m => Sys2Proof.Machine.execVabsd a b c m s
  | .vaddS a b c m => Sys2Proof.Machine.execVaddS a b c m s
  | .vsubS a b c m => Sys2Proof.Machine.execVsubS a b c m s
  | .vrsubS a b c m => Sys2Proof.Machine.execVrsubS a b c m s
  | .vmulS a b c m => Sys2Proof.Machine.execVmulS a b c m s
  | .vmulhS a b c m => Sys2Proof.Machine.execVmulhS a b c m s
  | .vmulhuS a b c m => Sys2Proof.Machine.execVmulhuS a b c m s
  | .vmaccS a b c m => Sys2Proof.Machine.execVmaccS a b c m s
  | .vnmsacS a b c m => Sys2Proof.Machine.execVnmsacS a b c m s
  | .vdivS a b c m => Sys2Proof.Machine.execVdivS a b c m s
  | .vdivuS a b c m => Sys2Proof.Machine.execVdivuS a b c m s
  | .vremS a b c m => Sys2Proof.Machine.execVremS a b c m s
  | .vremuS a b c m => Sys2Proof.Machine.execVremuS a b c m s
  | .vsaddS a b c m => Sys2Proof.Machine.execVsaddS a b c m s
  | .vssubS a b c m => Sys2Proof.Machine.execVssubS a b c m s
  | .vabsdS a b c m => Sys2Proof.Machine.execVabsdS a b c m s
  | .vand a b c m => Sys2Proof.Machine.execVand a b c m s
  | .vor a b c m => Sys2Proof.Machine.execVor a b c m s
  | .vxor a b c m => Sys2Proof.Machine.execVxor a b c m s
  | .vandn a b c m => Sys2Proof.Machine.execVandn a b c m s
  | .vshl a b c m => Sys2Proof.Machine.execVshl a b c m s
  | .vshr a b c m => Sys2Proof.Machine.execVshr a b c m s
  | .vsra a b c m => Sys2Proof.Machine.execVsra a b c m s
  | .vmin a b c m => Sys2Proof.Machine.execVmin a b c m s
  | .vmax a b c m => Sys2Proof.Machine.execVmax a b c m s
  | .vminu a b c m => Sys2Proof.Machine.execVminu a b c m s
  | .vmaxu a b c m => Sys2Proof.Machine.execVmaxu a b c m s
  | .vsel a b c => Sys2Proof.Machine.execVsel a b c s
  | .vmov a c m => Sys2Proof.Machine.execVmov a c m s
  | .vandS a b c m => Sys2Proof.Machine.execVandS a b c m s
  | .vorS a b c m => Sys2Proof.Machine.execVorS a b c m s
  | .vxorS a b c m => Sys2Proof.Machine.execVxorS a b c m s
  | .vandnS a b c m => Sys2Proof.Machine.execVandnS a b c m s
  | .vshlS a b c m => Sys2Proof.Machine.execVshlS a b c m s
  | .vshrS a b c m => Sys2Proof.Machine.execVshrS a b c m s
  | .vsraS a b c m => Sys2Proof.Machine.execVsraS a b c m s
  | .vminS a b c m => Sys2Proof.Machine.execVminS a b c m s
  | .vmaxS a b c m => Sys2Proof.Machine.execVmaxS a b c m s
  | .vminuS a b c m => Sys2Proof.Machine.execVminuS a b c m s
  | .vmaxuS a b c m => Sys2Proof.Machine.execVmaxuS a b c m s
  | .vselS a b c => Sys2Proof.Machine.execVselS a b c s
  | .vmovS a c m => Sys2Proof.Machine.execVmovS a c m s
  | .vaddi a b im m => Sys2Proof.Machine.execVaddi a b im m s
  | .vmuli a b im m => Sys2Proof.Machine.execVmuli a b im m s
  | .vshli a b im m => Sys2Proof.Machine.execVshli a b im m s
  | .vshri a b im m => Sys2Proof.Machine.execVshri a b im m s
  | .vsrai a b im m => Sys2Proof.Machine.execVsrai a b im m s
  | .vandi a b im m => Sys2Proof.Machine.execVandi a b im m s
  | .vori a b im m => Sys2Proof.Machine.execVori a b im m s
  | .vli a im m => Sys2Proof.Machine.execVli a im m s
  | .vfadd a b c m => Sys2Proof.Machine.execVfadd a b c m s
  | .vfsub a b c m => Sys2Proof.Machine.execVfsub a b c m s
  | .vfmul a b c m => Sys2Proof.Machine.execVfmul a b c m s
  | .vfma a b c m => Sys2Proof.Machine.execVfma a b c m s
  | .vfms a b c m => Sys2Proof.Machine.execVfms a b c m s
  | .vfnma a b c m => Sys2Proof.Machine.execVfnma a b c m s
  | .vfdiv a b c m => Sys2Proof.Machine.execVfdiv a b c m s
  | .vfmin a b c m => Sys2Proof.Machine.execVfmin a b c m s
  | .vfmax a b c m => Sys2Proof.Machine.execVfmax a b c m s
  | .vfsgn a b c m => Sys2Proof.Machine.execVfsgn a b c m s
  | .vfaddS a b c m => Sys2Proof.Machine.execVfaddS a b c m s
  | .vfsubS a b c m => Sys2Proof.Machine.execVfsubS a b c m s
  | .vfmulS a b c m => Sys2Proof.Machine.execVfmulS a b c m s
  | .vfmaS a b c m => Sys2Proof.Machine.execVfmaS a b c m s
  | .vfmsS a b c m => Sys2Proof.Machine.execVfmsS a b c m s
  | .vfnmaS a b c m => Sys2Proof.Machine.execVfnmaS a b c m s
  | .vfdivS a b c m => Sys2Proof.Machine.execVfdivS a b c m s
  | .vfminS a b c m => Sys2Proof.Machine.execVfminS a b c m s
  | .vfmaxS a b c m => Sys2Proof.Machine.execVfmaxS a b c m s
  | .vfsgnS a b c m => Sys2Proof.Machine.execVfsgnS a b c m s
  | .vfsqrt a b m => Sys2Proof.Machine.execVfsqrt a b m s
  | .vfrcp a b m => Sys2Proof.Machine.execVfrcp a b m s
  | .vfrsq a b m => Sys2Proof.Machine.execVfrsq a b m s
  | .vfexp2 a b m => Sys2Proof.Machine.execVfexp2 a b m s
  | .vflog2 a b m => Sys2Proof.Machine.execVflog2 a b m s
  | .vfsin a b m => Sys2Proof.Machine.execVfsin a b m s
  | .vfcos a b m => Sys2Proof.Machine.execVfcos a b m s
  | .vftanh a b m => Sys2Proof.Machine.execVftanh a b m s
  | .vfsigm a b m => Sys2Proof.Machine.execVfsigm a b m s
  | .vfabs a b m => Sys2Proof.Machine.execVfabs a b m s
  | .vfneg a b m => Sys2Proof.Machine.execVfneg a b m s
  | .vfclass a b m => Sys2Proof.Machine.execVfclass a b m s
  | .vfrnd a b m => Sys2Proof.Machine.execVfrnd a b m s
  | .vcmpEq a b c m => Sys2Proof.Machine.execVcmpEq a b c m s
  | .vcmpNe a b c m => Sys2Proof.Machine.execVcmpNe a b c m s
  | .vcmpLt a b c m => Sys2Proof.Machine.execVcmpLt a b c m s
  | .vcmpGe a b c m => Sys2Proof.Machine.execVcmpGe a b c m s
  | .vcmpLtu a b c m => Sys2Proof.Machine.execVcmpLtu a b c m s
  | .vcmpGeu a b c m => Sys2Proof.Machine.execVcmpGeu a b c m s
  | .vcmpEqS a b c m => Sys2Proof.Machine.execVcmpEqS a b c m s
  | .vcmpNeS a b c m => Sys2Proof.Machine.execVcmpNeS a b c m s
  | .vcmpLtS a b c m => Sys2Proof.Machine.execVcmpLtS a b c m s
  | .vcmpGeS a b c m => Sys2Proof.Machine.execVcmpGeS a b c m s
  | .vcmpLtuS a b c m => Sys2Proof.Machine.execVcmpLtuS a b c m s
  | .vcmpGeuS a b c m => Sys2Proof.Machine.execVcmpGeuS a b c m s
  | .vfcmpEq a b c m => Sys2Proof.Machine.execVfcmpEq a b c m s
  | .vfcmpNe a b c m => Sys2Proof.Machine.execVfcmpNe a b c m s
  | .vfcmpLt a b c m => Sys2Proof.Machine.execVfcmpLt a b c m s
  | .vfcmpLe a b c m => Sys2Proof.Machine.execVfcmpLe a b c m s
  | .vfcmpUn a b c m => Sys2Proof.Machine.execVfcmpUn a b c m s
  | .vfcmpOr a b c m => Sys2Proof.Machine.execVfcmpOr a b c m s
  | .vcvt a b c m => Sys2Proof.Machine.execVcvt a b c m s
  | .vcvtk a b c m => Sys2Proof.Machine.execVcvtk a b c m s
  | .vwid a b m => Sys2Proof.Machine.execVwid a b m s
  | .vnar a b m => Sys2Proof.Machine.execVnar a b m s
  | .vxchS a b c m => Sys2Proof.Machine.execVxchS a b c m s
  | .vxch a b c m => Sys2Proof.Machine.execVxch a b c m s
  | .vslup a b c m => Sys2Proof.Machine.execVslup a b c m s
  | .vsldn a b c m => Sys2Proof.Machine.execVsldn a b c m s
  | .vperm a b c m => Sys2Proof.Machine.execVperm a b c m s
  | .vbcast a b c m => Sys2Proof.Machine.execVbcast a b c m s
  | .vextr a b c => Sys2Proof.Machine.execVextr a b c s
  | .vins a b c m => Sys2Proof.Machine.execVins a b c m s
  | .vcomp a b m => Sys2Proof.Machine.execVcomp a b m s
  | .vexpd a b m => Sys2Proof.Machine.execVexpd a b m s
  | .viota a m => Sys2Proof.Machine.execViota a m s
  | .vrev a b m => Sys2Proof.Machine.execVrev a b m s
  | .vrsum a b c m => Sys2Proof.Machine.execVrsum a b c m s
  | .vrmin a b c m => Sys2Proof.Machine.execVrmin a b c m s
  | .vrmax a b c m => Sys2Proof.Machine.execVrmax a b c m s
  | .vrminu a b c m => Sys2Proof.Machine.execVrminu a b c m s
  | .vrmaxu a b c m => Sys2Proof.Machine.execVrmaxu a b c m s
  | .vrand a b c m => Sys2Proof.Machine.execVrand a b c m s
  | .vror a b c m => Sys2Proof.Machine.execVror a b c m s
  | .vrxor a b c m => Sys2Proof.Machine.execVrxor a b c m s
  | .vrfsum a b c m => Sys2Proof.Machine.execVrfsum a b c m s
  | .vrfmin a b c m => Sys2Proof.Machine.execVrfmin a b c m s
  | .vrfmax a b c m => Sys2Proof.Machine.execVrfmax a b c m s
  | .vscanAdd a b c m => Sys2Proof.Machine.execVscanAdd a b c m s
  | .vfscanAdd a b c m => Sys2Proof.Machine.execVfscanAdd a b c m s
  | .vscanlin a b c m => Sys2Proof.Machine.execVscanlin a b c m s
  | .pand a b c => Sys2Proof.Machine.execPand a b c s
  | .por a b c => Sys2Proof.Machine.execPor a b c s
  | .pxor a b c => Sys2Proof.Machine.execPxor a b c s
  | .pandn a b c => Sys2Proof.Machine.execPandn a b c s
  | .pnot a b => Sys2Proof.Machine.execPnot a b s
  | .pset a => Sys2Proof.Machine.execPset a s
  | .pclr a => Sys2Proof.Machine.execPclr a s
  | .pcnt a b => Sys2Proof.Machine.execPcnt a b s
  | .pfirst a b => Sys2Proof.Machine.execPfirst a b s
  | .pmov a b => Sys2Proof.Machine.execPmov a b s
  | .pfromv a b => Sys2Proof.Machine.execPfromv a b s
  | .ptov a b => Sys2Proof.Machine.execPtov a b s
  | .vld a b m => Sys2Proof.Machine.execVld a b m s
  | .vldFf a b m => Sys2Proof.Machine.execVldFf a b m s
  | .vlds a b c m => Sys2Proof.Machine.execVlds a b c m s
  | .vldsFf a b c m => Sys2Proof.Machine.execVldsFf a b c m s
  | .vldg a b c m => Sys2Proof.Machine.execVldg a b c m s
  | .vldx a b c m => Sys2Proof.Machine.execVldx a b c m s
  | .vldxFf a b c m => Sys2Proof.Machine.execVldxFf a b c m s
  | .vldb a b c m => Sys2Proof.Machine.execVldb a b c m s
  | .vldbFf a b c m => Sys2Proof.Machine.execVldbFf a b c m s
  | .vpfd b c => Sys2Proof.Machine.execVpfd b c s
  | .vst a b m => Sys2Proof.Machine.execVst a b m s
  | .vsts a b c m => Sys2Proof.Machine.execVsts a b c m s
  | .vstg a b c m => Sys2Proof.Machine.execVstg a b c m s
  | .vstx a b c m => Sys2Proof.Machine.execVstx a b c m s
  | .vstb a b c m => Sys2Proof.Machine.execVstb a b c m s
  | .vamoadd a b c m => Sys2Proof.Machine.execVamoadd a b c m s
  | .vamomin a b c m => Sys2Proof.Machine.execVamomin a b c m s
  | .vamomax a b c m => Sys2Proof.Machine.execVamomax a b c m s
  | .vamoswp a b c m => Sys2Proof.Machine.execVamoswp a b c m s
  | .vamofadd a b c m => Sys2Proof.Machine.execVamofadd a b c m s
  | .talloc a b c => Sys2Proof.Machine.execTalloc a b c s
  | .tallocZ a b c => Sys2Proof.Machine.execTallocZ a b c s
  | .tfree b => Sys2Proof.Machine.execTfree b s
  | .tstat a b c => Sys2Proof.Machine.execTstat a b c s
  | .tstatMask a b c => Sys2Proof.Machine.execTstatMask a b c s
  | .tldR a b c m => Sys2Proof.Machine.execTldR a b c m s
  | .tldC a b c m => Sys2Proof.Machine.execTldC a b c m s
  | .tstR a b c m => Sys2Proof.Machine.execTstR a b c m s
  | .tstC a b c m => Sys2Proof.Machine.execTstC a b c m s
  | .cpyin a b c => Sys2Proof.Machine.execCpyin a b c s
  | .cpyg a b c => Sys2Proof.Machine.execCpyg a b c s
  | .cpymc a b c => Sys2Proof.Machine.execCpymc a b c s
  | .cpyout a b c => Sys2Proof.Machine.execCpyout a b c s
  | .cwait b => Sys2Proof.Machine.execCwait b s
  | .sbind a b c => Sys2Proof.Machine.execSbind a b c s
  | .sunbind a => Sys2Proof.Machine.execSunbind a s
  | .sstat a b => Sys2Proof.Machine.execSstat a b s
  | .sstatMask a b => Sys2Proof.Machine.execSstatMask a b s
  | .kld a b c => Sys2Proof.Machine.execKld a b c s
  | .kst a b c => Sys2Proof.Machine.execKst a b c s
  | .kmov a b => Sys2Proof.Machine.execKmov a b s
  | .kset a b => Sys2Proof.Machine.execKset a b s
  | .tshape a b c => Sys2Proof.Machine.execTshape a b c s
  | .mzero a => Sys2Proof.Machine.execMzero a s
  | .mldop a b c => Sys2Proof.Machine.execMldop a b c s
  | .mldopFf a b c => Sys2Proof.Machine.execMldopFf a b c s
  | .mxoa b c n f => Sys2Proof.Machine.execMxoa b c n f s
  | .mxos b c n f => Sys2Proof.Machine.execMxos b c n f s
  | .mlda a b c => Sys2Proof.Machine.execMlda a b c s
  | .msta a b c => Sys2Proof.Machine.execMsta a b c s
  | .mrd a b => Sys2Proof.Machine.execMrd a b s
  | .mwr a b => Sys2Proof.Machine.execMwr a b s
  | .smmul a b c m => Sys2Proof.Machine.execSmmul a b c m s
  | .smmult a b c m => Sys2Proof.Machine.execSmmult a b c m s
  | .smchol a b m => Sys2Proof.Machine.execSmchol a b m s
  | .smlup a b c m => Sys2Proof.Machine.execSmlup a b c m s
  | .smsolc a b m => Sys2Proof.Machine.execSmsolc a b m s
  | .smsolp a b c m => Sys2Proof.Machine.execSmsolp a b c m s
  | .smtran a b m => Sys2Proof.Machine.execSmtran a b m s
  | .chcfg b => Sys2Proof.Machine.execChcfg b s
  | .chend => Sys2Proof.Machine.execChend s
  | .chrun b c => Sys2Proof.Machine.execChrun b c s
  | .chwait => Sys2Proof.Machine.execChwait s
  | .chstat a b => Sys2Proof.Machine.execChstat a b s
  | .chsave b => Sys2Proof.Machine.execChsave b s
  | .chload b => Sys2Proof.Machine.execChload b s
  | .chdrop => Sys2Proof.Machine.execChdrop s
  | .turn a b c m => Sys2Proof.Machine.execTurn a b c m s
  | .link b => Sys2Proof.Machine.execLink b s
  | .qpush a b => Sys2Proof.Machine.execQpush a b s
  | .qpop a b => Sys2Proof.Machine.execQpop a b s
  | .qspace a b => Sys2Proof.Machine.execQspace a b s
  | .qcnt a b => Sys2Proof.Machine.execQcnt a b s
  | .qclr a => Sys2Proof.Machine.execQclr a s
  | .book a b => Sys2Proof.Machine.execBook a b s
  | .bkqry a b => Sys2Proof.Machine.execBkqry a b s
  | .bkrel => Sys2Proof.Machine.execBkrel s
  | .bkwait => Sys2Proof.Machine.execBkwait s
  | .srscfg b => Sys2Proof.Machine.execSrscfg b s
  | .srsstep => Sys2Proof.Machine.execSrsstep s
  | .srsmap a b => Sys2Proof.Machine.execSrsmap a b s
  | .srsclr => Sys2Proof.Machine.execSrsclr s
  | .srssig b => Sys2Proof.Machine.execSrssig b s
  | .barw b => Sys2Proof.Machine.execBarw b s
  | .signal b c => Sys2Proof.Machine.execSignal b c s
  | .waitv b c => Sys2Proof.Machine.execWaitv b c s
  | .qcmd a b c => Sys2Proof.Machine.execQcmd a b c s
  | .tdone => Sys2Proof.Machine.execTdone s
  | .dsig b => Sys2Proof.Machine.execDsig b s
  | .captureWord w => Sys2Proof.Machine.execCaptureWord w s
  | .tailWrite fn off n v => Sys2Proof.Machine.execTailWrite fn off n v s
  | .queueSwapIn h => Sys2Proof.Machine.execQueueSwapIn h s
  | .hostWindowRead fn off n => Sys2Proof.Machine.execHostWindowRead fn off n s
  | .hostWindowWrite fn off bytes => Sys2Proof.Machine.execHostWindowWrite fn off bytes s
  | .hostCompletion pa n data => Sys2Proof.Machine.execHostCompletion pa n data s
  | .registerWrite page fn off n v => Sys2Proof.Machine.execRegisterWrite page fn off n v s
  | .ctxnew fn root qtab pool len conf owner => Sys2Proof.Machine.execCtxnew fn root qtab pool len conf owner s
  | .ctxdel fn ctx => Sys2Proof.Machine.execCtxdel fn ctx s
  | .preempt fn ctx => Sys2Proof.Machine.execPreempt fn ctx s
  | .resume fn ctx bad => Sys2Proof.Machine.execResume fn ctx bad s
  | .abort fn flock => Sys2Proof.Machine.execAbort fn flock s
  | .qclrCommand fn h => Sys2Proof.Machine.execQclrCommand fn h s
  | .qrange fn who first count => Sys2Proof.Machine.execQrange fn who first count s
  | .qbind fn ctx first count => Sys2Proof.Machine.execQbind fn ctx first count s
  | .frq fn die base => Sys2Proof.Machine.execFrq fn die base s
  | .trace fn base mode => Sys2Proof.Machine.execTrace fn base mode s
  | .grant fn ctx token => Sys2Proof.Machine.execGrant fn ctx token s
  | .unlock fn token => Sys2Proof.Machine.execUnlock fn token s
  | .attest fn nonce va => Sys2Proof.Machine.execAttest fn nonce va s
  | .pcap fn die watts => Sys2Proof.Machine.execPcap fn die watts s
  | .window fn ctx base => Sys2Proof.Machine.execWindow fn ctx base s
  | .irqmap fn source vector who => Sys2Proof.Machine.execIrqmap fn source vector who s
  | .smrd fn addr => Sys2Proof.Machine.execSmrd fn addr s
  | .smwr fn addr v => Sys2Proof.Machine.execSmwr fn addr v s
  | .commandCompletion fn => Sys2Proof.Machine.execCommandCompletion fn s
  | .verd die v => Sys2Proof.Machine.execVerd die v s
  | .invb die v => Sys2Proof.Machine.execInvb die v s
  | .invalidationComplete die => Sys2Proof.Machine.execInvalidationComplete die s
  | .headWrite die v => Sys2Proof.Machine.execHeadWrite die v s
  | .powerOn => Sys2Proof.Machine.execPowerOn s
  | .bringUpComplete ok => Sys2Proof.Machine.execBringUpComplete ok s
  | .coldReset => Sys2Proof.Machine.execColdReset s
  | .scrub => Sys2Proof.Machine.execScrub s
  | .quantumBoundary => Sys2Proof.Machine.execQuantumBoundary s
  | .bookedStart key => Sys2Proof.Machine.execBookedStart key s
  | .bookingEnd key => Sys2Proof.Machine.execBookingEnd key s
  | .bookSearchEnd key => Sys2Proof.Machine.execBookSearchEnd key s
  | .overrun key => Sys2Proof.Machine.execOverrun key s
  | .snapshotTrigger => Sys2Proof.Machine.execSnapshotTrigger s
  | .lockstepMismatch issuer k va x y => Sys2Proof.Machine.execLockstepMismatch issuer k va x y s
  | .traceSample key => Sys2Proof.Machine.execTraceSample key s
  | .laneCountExpiry key g => Sys2Proof.Machine.execLaneCountExpiry key g s
  | .traceGrantExpiry ctx => Sys2Proof.Machine.execTraceGrantExpiry ctx s
  | .debugRelease key => Sys2Proof.Machine.execDebugRelease key s
  | .laneGrant key => Sys2Proof.Machine.execLaneGrant key s
  | .laneReclamation key => Sys2Proof.Machine.execLaneReclamation key s
  | .chainPlacementTimeout key => Sys2Proof.Machine.execChainPlacementTimeout key s
  | .chainNodeFire key node => Sys2Proof.Machine.execChainNodeFire key node s
  | .chainRunComplete key => Sys2Proof.Machine.execChainRunComplete key s
  | .yieldTimeout key => Sys2Proof.Machine.execYieldTimeout key s
  | .waitvReread key => Sys2Proof.Machine.execWaitvReread key s
  | .copyTransferComplete key ch id => Sys2Proof.Machine.execCopyTransferComplete key ch id s
  | .engineAccessFault e => Sys2Proof.Machine.execEngineAccessFault e s
  | .nopRecord h => Sys2Proof.Machine.execNopRecord h s
  | .launchRecord h => Sys2Proof.Machine.execLaunchRecord h s
  | .barrierRecord h => Sys2Proof.Machine.execBarrierRecord h s
  | .signalRecord h => Sys2Proof.Machine.execSignalRecord h s
  | .waitvalRecord h => Sys2Proof.Machine.execWaitvalRecord h s
  | .copyRecord h => Sys2Proof.Machine.execCopyRecord h s
  | .copyRecordComplete h n => Sys2Proof.Machine.execCopyRecordComplete h n s
  | .bookRecord h => Sys2Proof.Machine.execBookRecord h s
  | .fenceRecord h => Sys2Proof.Machine.execFenceRecord h s
  | .flockDispatch => Sys2Proof.Machine.execFlockDispatch s
  | .readyAgeExpiry => Sys2Proof.Machine.execReadyAgeExpiry s
  | .bookedFlockStart task => Sys2Proof.Machine.execBookedFlockStart task s
  | .flockCompletion task => Sys2Proof.Machine.execFlockCompletion task s
  | .rdmaWriteIn qp pa bytes => Sys2Proof.Machine.execRdmaWriteIn qp pa bytes s
  | .rdmaReadIn qp pa n => Sys2Proof.Machine.execRdmaReadIn qp pa n s
  | .rdmaSendIn qp bytes => Sys2Proof.Machine.execRdmaSendIn qp bytes s
  | .rdmaAck qp n => Sys2Proof.Machine.execRdmaAck qp n s
  | .congestionNotification qp => Sys2Proof.Machine.execCongestionNotification qp s
  | .nonInstructionWord w => Sys2Proof.Machine.execNonInstructionWord w s
  | .instructionFetchFault => Sys2Proof.Machine.execInstructionFetchFault s
  | .rdmaReadResponse pa n data => Sys2Proof.Machine.execRdmaReadResponse pa n data s
  | .queuePairError qp => Sys2Proof.Machine.execQueuePairError qp s

end Sys2Proof.Machine
end

