-- ==== Sys2Proof/Machine/Step.lean ====
section
/-! DEFINITION. One step of the package: the agenda says what happens next, and where it says nothing the drovers and the blocks take
their turns (log 1). Also the state in which an instruction stands where the next step fetches (log 13). -/
namespace Sys2Proof.Machine

/-- One turn. An event is a row of the event table: a word's instruction happens only by being issued. -/
def State.turnOf (s : State) (t : Turn) : Host.Outcome State Fault Refusal :=
  match t with
  | .issue core => s.issueCore core
  | .pass n => .next (s.pass n)
  | .control die off v => .next (s.controlWrite die off v)
  | .event i => if (encode i).isSome then .next s else exec i s

/-- One step. -/
def step (s : State) : Host.Outcome State Fault Refusal :=
  match s.agenda with
  | t :: rest => { s with agenda := rest }.turnOf t
  | [] => s.free

/-- The page that holds the placed instruction, and its entry: readable, writable, executable; encrypted in a confidential
context. -/
def placePage : Nat := 0x10
def placePte (conf : Bool) : Word := BitVec.ofNat 64 (0x60F + (if conf then 0x100 else 0) + placePage * 4096)

/-- The drover of core 0, slot 0, about to issue at its pc. -/
def placedDrover (d : Drover) : Drover :=
  { d with
    flock := if d.flock = 0 then 1 else d.flock, pc := canon d.pc &&& ~~~(3 : Word)
    state := .issuing, wait := none, stall := none, request := none, yieldUntil := none, yieldFor := [], granted := d.granted && d.lgm != 0
    reps := { d.reps with go := false }, capture := none, stepping := false, skip1 := true, bks := { d.bks with search := none } }

/-- The flock of the placed drover, if it has none. -/
def placedFlock (ctx : Nat) : Flock :=
  { ctx := ctx, task := 0, cores := [0], dpc := 1, gen := 0, coreGen := [], tmemBase := [], tmemLen := 0, tsh := false, dbg := Debug.reset
    ending := false, aborted := false, abortAsked := false }

/-- An instruction placed where the next step fetches: a drover stands at its address, whose page is mapped. -/
def State.withFetchWord (s : State) (nbits w : Nat) : State :=
  let d := placedDrover (s.drover 0)
  let conf := s.isConf d.ctx
  let key := if conf then ((s.context d.ctx).map (fun (c : Context) => c.key)).getD 0 else 0
  let vpn := (d.pc.extractLsb' 0 56).toNat / 4096
  let pa := placePage * 4096 + d.pc.toNat % 4096
  let e : TlbEntry := { ctx := d.ctx, vpn := vpn, pages := 1, ppn := placePage, pte := placePte conf, pteAddr := 0 }
  let s := (s.setDrover 0 d).setFlock d.flock ((s.flock d.flock).getD (placedFlock d.ctx))
  let s := s.setCore 0 { s.core 0 with rr := 0 }
  let s := s.setDie 0 { s.die 0 with tlb := e :: (s.die 0).tlb }
  let s := (s.clearPoison (pa / 64)).putBytes key pa (leBytes 4 (w % pow2 nbits))
  { s with agenda := .issue 0 :: s.agenda }

end Sys2Proof.Machine
end

