-- ==== Sys2Proof/Safety.lean ====
section
/-! DEFINITION. What counts as a safe run, and the words in which the statements speak of one: how an instruction completes, what it
leaves unchanged, how a trap is taken. -/
namespace Sys2Proof.Machine

/-- The canonical form of memory, and of the key numbers kept beside it. -/
def State.memOk (s : State) : Prop := Memory.wf s.mem = true ∧ rising s.encTag = true

/-- The tables of the state are in canonical form too: every key once, in rising order. -/
def State.Tidy (s : State) : Prop :=
  rising s.drovers = true ∧ rising s.cores = true ∧ rising s.dies = true ∧ rising s.flocks = true ∧ rising s.tasks = true ∧
    rising s.queues = true ∧ rising s.ctxs = true

/-- A byte of HBM, as it stands in memory. -/
def State.byte (s : State) (a : Nat) : Byte := Memory.get s.mem a

/-- Bits lo to lo + n − 1 of a word, as a number. -/
def bits (w : Word) (lo n : Nat) : Nat := w.toNat / 2 ^ lo % 2 ^ n

/-! ### Completion -/

/-- Where a drover stands after its instruction: at the next word; inside a REP at the REP again, and after the last iteration
behind the repeated word (R98, R154). -/
def Drover.nextPc (d : Drover) : Word :=
  if d.reps.go then (if d.reps.cnt ≤ 1 then d.pc + 8 else d.pc) else d.pc + 4

/-- REPS after an instruction: an iteration of a REP counts down, and the last ends it (R155). -/
def Drover.nextReps (d : Drover) : RepState :=
  if d.reps.go then (if d.reps.cnt ≤ 1 then { d.reps with act := false, go := false } else { d.reps with cnt := d.reps.cnt - 1 })
  else d.reps

/-- ESR after an instruction: RST, REP and CHB fall when the instruction that ERET returned to has issued, RST when one resumes after
a verdict (R59, R147). -/
def Drover.nextEsr (d : Drover) : Word :=
  if d.viaEret then d.tr.esr &&& 0xFFFFFFFFFFFFFFE3 else if d.resume then d.tr.esr &&& 0xFFFFFFFFFFFFFFFB else d.tr.esr

/-- A drover apart from g, pc, REPS, ESR and the model's own marks of an issue. -/
def Drover.others (d : Drover) : Drover :=
  { d with
    g := Drover.reset.g, pc := 0, reps := RepState.reset, tr := { d.tr with esr := 0 }, stall := none, restart := 0, raised := false
    atHandler := false, skip1 := false, stepped := false, resume := false, viaEret := false
    again := false, repBack := false, tileUse := none }

/-- `t` is `s` with the executing drover's instruction completed: nothing but that drover changes; its g registers read `g`, its pc is
`pc`, REPS and ESR are as R155 and R59 have them, and everything else is as in `d`. -/
structure Completes (s t : State) (d : Drover) (g : Reg → Word) (pc : Word) : Prop where
  only : t = s.setCur t.cur
  regs : ∀ r, t.cur.getG r = g r
  at_ : t.cur.pc = pc
  reps : t.cur.reps = s.cur.nextReps
  esr : t.cur.tr.esr = s.cur.nextEsr
  rest : t.cur.others = d.others

/-- The g registers with a value in one; g0 reads 0 whatever is written to it (R38, R39). -/
def State.regsWith (s : State) (a : Reg) (v : Word) : Reg → Word :=
  fun r => if r = 0 then 0 else if r = a then v else s.cur.getG r

/-- The instruction completes with `v` in ga and changes nothing else of the drover or the package. -/
def Gives (i : Instr) (s : State) (a : Reg) (v : Word) : Prop :=
  ∃ t, exec i s = .next t ∧ Completes s t s.cur (s.regsWith a v) s.cur.nextPc

/-- The instruction completes, and the drover is as in `d` apart from its pc; its g registers do not change. -/
def Does (i : Instr) (s : State) (d : Drover) : Prop :=
  ∃ t, exec i s = .next t ∧ Completes s t d s.cur.getG s.cur.nextPc

/-- The instruction jumps: the g registers read `g` and the pc is `pc`. -/
def Jumps (i : Instr) (s : State) (g : Reg → Word) (pc : Word) : Prop :=
  ∃ t, exec i s = .next t ∧ Completes s t s.cur g pc

/-- A drover apart from what a change of its grant changes: lane groups, the rectangle, its request (R21 to R27). -/
def Drover.ungranted (d : Drover) : Drover :=
  { d with lgm := 0, gc := false, granted := false, parked := 0, request := none, vec := Vec.reset, dead := false, spilled := false }

/-! ### Traps -/

/-- ESR as a trap writes it: PL, RST, REP, CHB, SS (R58, R145). -/
def Drover.status (d : Drover) (rst chb : Bool) : Word :=
  BitVec.ofNat 64 ((if d.tr.sup then 1 else 0) + (if rst then 4 else 0) + (if d.reps.go then 8 else 0) + (if chb then 16 else 0) +
    (if d.stepping then 32 else 0))

/-- Where a trap of a cause enters: TVEC.BASE × 4, in MODE 1 plus 64 × cause (R145). -/
def Drover.vector (d : Drover) (cause : Nat) : Word :=
  (d.tr.tvec &&& 0xFFFFFFFFFFFFFFFC) + (if d.tr.tvec.toNat % 4 = 0 then 0 else BitVec.ofNat 64 (64 * cause))

/-- The drover apart from what taking a trap writes. -/
def Drover.untrapped (d : Drover) : Drover :=
  { d.others with
    tr := { TrapRegs.reset with tvec := d.tr.tvec }, state := .issuing, wait := none, stepping := false, susp := none, pending := []
    answers := [] }

/-- `t` is `s` with a trap taken by the executing drover: the saved registers, the level and the pc as R145 has them, no g register
changed, nothing else of the drover or the package changed. -/
structure Enters (s t : State) (cause : Nat) (flt fva fel esr epc fpc : Word) : Prop where
  only : t = s.setCur t.cur
  level : t.cur.tr.sup = true
  flt_ : t.cur.tr.flt = flt
  fva_ : t.cur.tr.fva = fva
  fel_ : t.cur.tr.fel = fel
  esr_ : t.cur.tr.esr = esr
  epc_ : t.cur.tr.epc = epc
  fpc_ : t.cur.tr.fpc = fpc
  at_ : t.cur.pc = s.cur.vector cause
  regs : ∀ r, t.cur.getG r = s.cur.getG r
  repsKept : t.cur.reps = { s.cur.reps with go := false }
  rest : t.cur.untrapped = s.cur.untrapped

/-- The instruction traps with a cause and no effect: EPC is its address, or the REP's while one repeats it; FPC is its address; FLT
holds the cause and FVA an address (R57, R104, R145). -/
def TrapsWith (i : Instr) (s : State) (cause : Nat) (va : Word) : Prop :=
  ∃ t, exec i s = .next t ∧
    Enters s t cause (BitVec.ofNat 64 cause) va 0 (s.cur.status false false) (s.cur.pc &&& 0xFFFFFFFFFFFFFFFC) s.cur.iaddr

/-- A drover with a handler that captures no chain: what a trap of its instruction needs to enter the handler (R146, R294). -/
def Drover.handles (d : Drover) : Prop := d.tr.tvec ≠ 0 ∧ d.capture = none

/-! ### Accesses to memory -/

/-- A line of HBM without an error, correctable or not (R410). -/
def State.Sound (s : State) (line : Nat) : Prop := s.lineBad line = false ∧ s.soft.contains line = false

/-- An access of n bytes at `va` by the executing drover passes the checks of R135 and lands at `p`, in lines of HBM that read without
an error; `s'` is the state its translation leaves (R394, R395). -/
def State.Lands (s : State) (want : Want) (va : Word) (n : Nat) (s' : State) (p : Place) : Prop :=
  s.locate (s.agentOf s.sel) want va n = .ok (s', p) ∧ isHbm p.pa n = true ∧ ∀ l ∈ linesOf p.pa n, s'.Sound l

/-- The number that n bytes from a physical address on stand for, the lowest first, as a page with a key reads them (R6, R445). -/
def State.number (s : State) (key pa n : Nat) : Nat :=
  match n with
  | 0 => 0
  | k + 1 => s.number key pa k + (s.viewByte key (pa + k)).toNat * 256 ^ k

/-- `u` is `s` with the n low bytes of a number stored from `pa` on: they read back through the page's key, every other byte of memory
is as it was, and nothing else of the package differs. -/
structure Stored (s u : State) (key pa n v : Nat) : Prop where
  only : u = { s with mem := u.mem, encTag := u.encTag }
  stored : ∀ j < n, (u.viewByte key (pa + j)).toNat = v / 256 ^ j % 256
  others : ∀ x, (x < pa ∨ pa + n ≤ x) → u.byte x = s.byte x ∧ ∀ k, u.viewByte k x = s.viewByte k x

/-- The instruction loads: `s'` is the state after its translation, and ga receives the value. -/
def Loads (i : Instr) (s s' : State) (a : Reg) (v : Word) : Prop :=
  ∃ t, exec i s = .next t ∧ Completes s' t s.cur (s.regsWith a v) s.cur.nextPc

/-- The accesses of scalar loads and stores: whether it stores, the base register, the offset, the bytes (R134). -/
def scalarAccess (i : Instr) : Option (Bool × Reg × BitVec 11 × Nat) :=
  match i with
  | .ldb _ b o => some (false, b, o, 1)
  | .ldbz _ b o => some (false, b, o, 1)
  | .ldh _ b o => some (false, b, o, 2)
  | .ldhz _ b o => some (false, b, o, 2)
  | .ldw _ b o => some (false, b, o, 4)
  | .ldwz _ b o => some (false, b, o, 4)
  | .ldd _ b o => some (false, b, o, 8)
  | .stb _ b o => some (true, b, o, 1)
  | .sth _ b o => some (true, b, o, 2)
  | .stw _ b o => some (true, b, o, 4)
  | .std _ b o => some (true, b, o, 8)
  | _ => none

/-! ### Vector instructions -/

/-- A drover whose next vector instruction starts and reads registers only: no run holds it (R307), VTY and VL have been set (R36), no
row is bound to a stream (R230), no register word is in error (R413), no earlier part of it has run, and its rows exist. -/
structure Drover.VectorReady (d : Drover) : Prop where
  noRun : d.cst.run = false
  noStop : d.cst.rs = false
  typed : d.typed = true
  configured : d.configured = true
  noStreams : d.streams = []
  noErrors : d.ecc = []
  fresh : d.restart = 0
  quiet : d.raised = false
  alloc : d.rowsAlloc ≤ 256
  length : d.vec.vl * d.vw ≤ 131072
  short : d.vec.vl ≤ 32768

/-- The instruction completes and changes, beside the marks of its issue, vector state and floating-point flags only: rows, progress and
HWM.ROWS and MAXLN as `t` has them, FEF and FEI as the flags have it. The predicates' progress that a core holds reads `pp`, unchanged unless
one is named (R45, R164). -/
structure VecDone (s t : State) (pp : Vector Pix 16 := s.cur.ppix) : Prop where
  done : Completes s t { s.cur with vec := t.cur.vec, fef := t.cur.fef, fei := t.cur.fei, occupied := t.cur.occupied, ppix := pp } s.cur.getG
    s.cur.nextPc
  vec : t.cur.vec = { s.cur.vec with
    rows := t.cur.vec.rows, preds := t.cur.vec.preds, pix := t.cur.vec.pix, hwmRows := t.cur.vec.hwmRows, hwmLanes := t.cur.vec.hwmLanes }

/-- Of the vector registers the instruction writes elements `e0` to VL − 1 of the group of m rows from a physical row on, in width w:
`new` gives each from its old value. Every other element and row stands; the rows' PIX is complete at VL, and HWM covers them
(R43, R46, R61, R157, R189). -/
structure RowsWritten (s t : State) (base m w e0 : Nat) (new : Nat → Nat → Nat) : Prop where
  elems : ∀ i, e0 ≤ i → i < s.cur.vec.vl → t.cur.vec.elem base m w i = new i (s.cur.vec.elem base m w i)
  kept : ∀ i, i < e0 ∨ s.cur.vec.vl ≤ i → t.cur.vec.elem base m w i = s.cur.vec.elem base m w i
  others : ∀ r, r < base ∨ base + m ≤ r → t.cur.vec.row r = s.cur.vec.row r
  preds : t.cur.vec.preds = s.cur.vec.preds
  pix : ∀ r, t.cur.vec.pixOf r = if base ≤ r ∧ r < base + m then ⟨true, s.cur.vec.vl⟩ else s.cur.vec.pixOf r
  rowsTop : t.cur.vec.hwmRows = if s.cur.vec.vl = 0 then s.cur.vec.hwmRows else Max.max s.cur.vec.hwmRows (base + m)
  lanes : t.cur.vec.hwmLanes =
    if s.cur.vec.vl = 0 then s.cur.vec.hwmLanes else Max.max s.cur.vec.hwmLanes ((s.cur.vec.vl * s.cur.vw + 127) / 128)

/-- The progress of the predicates with that of one complete at VL (R43, R164). -/
def State.predDone (s : State) (a : Reg) : Vector Pix 16 := (s.cur.setPpix a.toNat ⟨true, s.cur.vec.vl⟩).ppix

/-- The instruction writes bits `e0` to VL − 1 of a predicate register; its other bits, every other register and all rows' progress stand
(R46, R164). -/
structure PredWritten (s t : State) (p e0 : Nat) (new : Nat → Bool → Bool) : Prop where
  bits : ∀ i, t.cur.vec.pbit p i = if e0 ≤ i ∧ i < s.cur.vec.vl then new i (s.cur.vec.pbit p i) else s.cur.vec.pbit p i
  others : ∀ q, q ≠ p → t.cur.vec.pred q = s.cur.vec.pred q
  rows : t.cur.vec.rows = s.cur.vec.rows
  pix : t.cur.vec.pix = s.cur.vec.pix
  rowsTop : t.cur.vec.hwmRows = s.cur.vec.hwmRows
  lanes : t.cur.vec.hwmLanes =
    if s.cur.vec.vl = 0 then s.cur.vec.hwmLanes else Max.max s.cur.vec.hwmLanes ((s.cur.vec.vl * s.cur.vw + 127) / 128)

/-- FEF and FEI of `t` are those of `d` after elements e0 to n − 1 raised the flags `fl` (R53): every flag sticks in FEF; without ESR.RST
the first flag clears V everywhere; a flag raised holds the least index. -/
structure Raised (d t : Drover) (e0 n : Nat) (fl : Nat → FlagSet) : Prop where
  fef : ∀ k, t.fef.getLsbD k = true ↔ d.fef.getLsbD k = true ∨ ∃ i, e0 ≤ i ∧ i < n ∧ (fl i).getLsbD k = true
  none : (∀ i, e0 ≤ i → i < n → fl i = 0) → t.fei = d.fei
  first : ∀ k, (h : k < 7) → ∀ i, e0 ≤ i → i < n → (fl i).getLsbD k = true → (∀ j, e0 ≤ j → j < i → (fl j).getLsbD k = false) →
    t.fei[k] = ⟨true, if d.resumesPart = true ∧ d.fei[k].v = true then Min.min d.fei[k].idx i else i⟩
  cleared : ∀ k, (h : k < 7) → (∃ i, e0 ≤ i ∧ i < n ∧ fl i ≠ 0) → (∀ i, e0 ≤ i → i < n → (fl i).getLsbD k = false) →
    t.fei[k] = ⟨d.fei[k].v && d.resumesPart, d.fei[k].idx⟩

/-- AN ELEMENT-WISE INSTRUCTION (R157 to R159): on a ready drover whose rows are allocated, and where no active element raises a flag
that FEE enables, it completes; every active element receives its result, an inactive one 0 where `clear` holds and is else unchanged;
the active elements' flags are raised. It starts where R45 has it start, an instruction that runs as a whole at element 0 (R165, R192). -/
def Elementwise (i : Instr) (s : State) (a : Reg) (src : List Nat) (act : Nat → Bool) (clear whole : Bool) (m w : Nat)
    (res : Nat → Nat × FlagSet) : Prop :=
  let d := s.cur
  let dst := d.phys a
  let e0 := if whole then 0 else d.startAt (group dst m)
  d.VectorReady → (∀ r ∈ src ++ group dst m, r < d.rowsAlloc) →
    (∀ j, e0 ≤ j → j < d.vec.vl → act j = true → d.fee &&& (res j).2 = 0) →
    ∃ t, exec i s = .next t ∧ VecDone s t ∧
      RowsWritten s t dst m w e0 (fun j old => if act j then (res j).1 % 2 ^ w else if clear then 0 else old) ∧
      Raised d t.cur e0 d.vec.vl (fun j => if act j then (res j).2 else 0)

/-- An element-wise instruction with a predicate destination (R164, R186, R187). It starts at the predicate's progress when it resumes. -/
def Elementcheck (i : Instr) (s : State) (a : Reg) (src : List Nat) (act : Nat → Bool) (res : Nat → Bool × FlagSet) : Prop :=
  let d := s.cur
  let e0 := d.startPred a.toNat
  d.VectorReady → 1 ≤ a.toNat → a.toNat ≤ 15 → (∀ r ∈ src, r < d.rowsAlloc) →
    (∀ j, e0 ≤ j → j < d.vec.vl → act j = true → d.fee &&& (res j).2 = 0) →
    ∃ t, exec i s = .next t ∧ VecDone s t (s.predDone a) ∧
      PredWritten s t a.toNat e0 (fun j old => if act j then (res j).1 else if vtyMp d.vec.vty then false else old) ∧
      Raised d t.cur e0 d.vec.vl (fun j => if act j then (res j).2 else 0)

/-- Element j is active: every element without `.m`, else those whose bit of p[VTY.PS] is set (R158). -/
def State.active (s : State) (m : Bool) (j : Nat) : Bool := !m || s.cur.vec.pbit (vtyPs s.cur.vec.vty) j
/-- Element j of a vector register, in VTY's format (R41, R61). -/
def State.source (s : State) (r : Reg) (j : Nat) : Nat := s.cur.vec.elem (s.cur.phys r) 1 s.cur.vw j
/-- The scalar operand of a `.s` form: the low w bits of a g register (R161). -/
def State.scalar (s : State) (r : Reg) : Nat := (s.cur.getG r).toNat % 2 ^ s.cur.vw
/-- An integer reduced modulo 2^w (R62). -/
def modulo (w : Nat) (x : Int) : Nat := (x % ((2 ^ w : Nat) : Int)).toNat

/-- An integer instruction of two operands in its row form and its `.s` form: `r` gives the exact value of an element from the old
element, b and c; no flag is raised (R161, R174 to R176). -/
def IntegerForms (mk mks : Reg → Reg → Reg → Bool → Instr) (s : State) (a b c : Reg) (m : Bool) (r : Nat → Nat → Nat → Int) : Prop :=
  let d := s.cur
  Elementwise (mk a b c m) s a [d.phys b, d.phys c] (s.active m) (vtyMp d.vec.vty) false 1 d.vw
    (fun j => (modulo d.vw (r (s.source a j) (s.source b j) (s.source c j)), 0)) ∧
  Elementwise (mks a b c m) s a [d.phys b] (s.active m) (vtyMp d.vec.vty) false 1 d.vw
    (fun j => (modulo d.vw (r (s.source a j) (s.source b j) (s.scalar c)), 0))

/-- The scale that applies to element j when VTY.KA is 1: entry j >> BL of k[KS] (R70). -/
def State.scaleOf (s : State) (j : Nat) : Nat := s.cur.vec.kent (vtyKs s.cur.vec.vty) (j / 2 ^ vtyBl s.cur.vec.vty)
/-- A code of VTY's format as an operand (R63, R75). -/
def State.operand (s : State) (code : Nat) : Operand := floatOperand s.cur.vfmt s.cur.vfmt code
/-- The same, multiplied by element j's scale when VTY.KA is 1 (R70, R162). -/
def State.scaled (s : State) (j code : Nat) : Operand :=
  if vtyKa s.cur.vec.vty then (s.operand code).scale s.cur.vfmt (s.scaleOf j) else s.operand code
/-- VTY.RM is not reserved (R52). -/
def Drover.rounds (d : Drover) : Prop := vtyRm d.vec.vty ≤ 4
/-- The scale register covers VL elements where VTY.KA is 1 (R70). -/
def Drover.scales (d : Drover) : Prop := vtyKa d.vec.vty = true → d.vec.vl = 0 ∨ (d.vec.vl - 1) / 2 ^ vtyBl d.vec.vty < 512

/-- A floating-point instruction of two operands in its row form, where KA scales both sources, and its `.s` form, where it scales b
only: `r` gives an element and its flags from b, c and the unscaled old element (R161, R162, R180). -/
def FloatForms (mk mks : Reg → Reg → Reg → Bool → Instr) (s : State) (a b c : Reg) (m : Bool)
    (r : Operand → Operand → Operand → Nat × FlagSet) : Prop :=
  let d := s.cur
  Elementwise (mk a b c m) s a [d.phys b, d.phys c] (s.active m) (vtyMp d.vec.vty) false 1 d.vw
    (fun j => r (s.scaled j (s.source b j)) (s.scaled j (s.source c j)) (s.operand (s.source a j))) ∧
  Elementwise (mks a b c m) s a [d.phys b] (s.active m) (vtyMp d.vec.vty) false 1 d.vw
    (fun j => r (s.scaled j (s.source b j)) (s.operand (s.scalar c)) (s.operand (s.source a j)))

/-- The choice of VFMIN and VFMAX from codes x and y read as operands p and q (R181): without scaling a code, with it a value rounded
once. -/
def chosen (isMax : Bool) (f : Fmt) (rm : Nat) (ka : Bool) (x y : Nat) (p q : Operand) : Nat × FlagSet :=
  let fl := inputFlags [p, q]
  let second := minMaxSecond isMax p.val q.val
  if ka then
    let o := if p.val.isNaN && q.val.isNaN then p else if second then q else p
    let z := roundValue f rm o.nan o.val
    (z.1, fl ||| z.2)
  else if p.val.isNaN && q.val.isNaN then (p.nan, fl)
  else (if second then y else x, fl)

/-! ### Reductions and scans (R86, R89, R90) -/

/-- Two partials as one; an absent one leaves the other (R86). -/
def combine {α : Type} (op : α → α → α) (x y : Option α) : Option α :=
  match x, y with
  | x, none => x
  | none, y => y
  | some x, some y => some (op x y)

/-- Partial p of R86: the listed elements whose index is p modulo FW, in rising order. -/
def partialOf {α : Type} (op : α → α → α) (x : Nat → α) (els : List Nat) (fw p : Nat) : Option α :=
  els.foldl (fun acc i => if i % fw = p then combine op acc (some (x i)) else acc) none

/-- The halvings of R86 over 2^n partials. -/
def halve {α : Type} (op : α → α → α) (n : Nat) (part : Nat → Option α) : Option α :=
  match n with
  | 0 => part 0
  | k + 1 => halve op k (fun p => combine op (part p) (part (p + 2 ^ k)))

/-- The fold of R86 over the listed elements, without its seed; none where there is no element. -/
def foldOf {α : Type} (op : α → α → α) (x : Nat → α) (els : List Nat) (fwl : Nat) : Option α :=
  halve op fwl (fun p => partialOf op x els (2 ^ fwl) p)

/-- A reduction (R196): on a ready drover whose rows are allocated, element 0 of vd receives `r` where VL is not 0, and no other element
of it changes; `quiet` says that FEF and FEI do not change. -/
def Reduces (i : Instr) (s : State) (a : Reg) (src : List Nat) (quiet : Bool) (r : Nat) : Prop :=
  let d := s.cur
  d.VectorReady → (∀ q ∈ d.phys a :: src, q < d.rowsAlloc) →
    ∃ t, exec i s = .next t ∧ VecDone s t ∧
      RowsWritten s t (d.phys a) 1 d.vw 0 (fun j old => if j = 0 then r % 2 ^ d.vw else old) ∧
      (quiet = true → t.cur.fef = d.fef ∧ t.cur.fei = d.fei)

/-- A scan (R89, R90, R197, R198): within the segment of an element the carry runs through the active elements in rising order; `op` gives
an element from the carry before it; each element of vc whose segment had an active element receives the segment's last carry. -/
def Scans (i : Instr) (s : State) (a b c : Reg) (m : Bool) (seg : Nat → Nat) (op : Nat → Nat → Nat × FlagSet) : Prop :=
  let d := s.cur
  let w := d.vw
  let e0 := d.startAt [d.phys a, d.phys c]
  let run := fun (k n : Nat) => ((List.range n).filter (fun j => decide (e0 ≤ j) && s.active m j && seg j == k)).foldl
    (fun carry j => (op carry j).1) (s.source c k)
  let res := fun (j : Nat) => op (run (seg j) j) j
  d.VectorReady → (∀ r ∈ [a, b, c], d.phys r < d.rowsAlloc) → c ≠ a → c ≠ b →
    (∀ j, e0 ≤ j → j < d.vec.vl → s.active m j = true → d.fee &&& (res j).2 = 0) →
    ∃ t, exec i s = .next t ∧ VecDone s t ∧
      (∀ j, t.cur.vec.elem (d.phys a) 1 w j =
        if e0 ≤ j ∧ j < d.vec.vl then
          if s.active m j then (res j).1 % 2 ^ w else if vtyMp d.vec.vty then 0 else s.source a j
        else s.source a j) ∧
      (∀ k, t.cur.vec.elem (d.phys c) 1 w k =
        if (List.range d.vec.vl).any (fun j => decide (e0 ≤ j) && s.active m j && seg j == k) then run k d.vec.vl % 2 ^ w else s.source c k) ∧
      (∀ r, r ≠ d.phys a → r ≠ d.phys c → t.cur.vec.row r = d.vec.row r) ∧ t.cur.vec.preds = d.vec.preds ∧
      (∀ r, t.cur.vec.pixOf r = if r = d.phys a ∨ r = d.phys c then ⟨true, d.vec.vl⟩ else d.vec.pixOf r) ∧
      Raised d t.cur e0 d.vec.vl (fun j => if s.active m j then (res j).2 else 0)

/-- A predicate operation (R199): bits 0 to VL − 1 of pa receive `r`; flags and everything else stand. -/
def Predicates (i : Instr) (s : State) (a : Reg) (r : Nat → Bool) : Prop :=
  let d := s.cur
  d.VectorReady → 1 ≤ a.toNat → a.toNat ≤ 15 →
    ∃ t, exec i s = .next t ∧ VecDone s t (s.predDone a) ∧ PredWritten s t a.toNat 0 (fun j _ => r j) ∧ t.cur.fef = d.fef ∧ t.cur.fei = d.fei

/-! ### Sequences of accesses -/

/-- Accesses of n bytes at a list of addresses pass their checks and land one after the other, at the places listed. -/
inductive State.LandAll (want : Want) (n : Nat) : State → List Word → State → List Place → Prop
  | nil (s : State) : State.LandAll want n s [] s []
  | cons {s s' t : State} {va : Word} {rest : List Word} {p : Place} {ps : List Place} (h : s.Lands want va n s' p)
      (r : State.LandAll want n s' rest t ps) : State.LandAll want n s (va :: rest) t (p :: ps)

/-- Reads of n bytes at a list of addresses land one after the other and give the values listed. -/
inductive State.ReadAll (n : Nat) : State → List (Word × Nat) → State → Prop
  | nil (s : State) : State.ReadAll n s [] s
  | cons {s s' t : State} {va : Word} {v : Nat} {rest : List (Word × Nat)} {p : Place} (h : s.Lands .read va n s' p)
      (hv : s'.number p.key p.pa n = v) (r : State.ReadAll n s' rest t) : State.ReadAll n s ((va, v) :: rest) t

/-- Writes of the n low bytes of values at a list of addresses land one after the other. -/
inductive State.WriteAll (n : Nat) : State → List (Word × Nat) → State → Prop
  | nil (s : State) : State.WriteAll n s [] s
  | cons {s s' t : State} {va : Word} {v : Nat} {rest : List (Word × Nat)} {p : Place} (h : s.Lands .write va n s' p)
      (r : State.WriteAll n (s'.putBytes p.key p.pa (leBytes n v)) rest t) : State.WriteAll n s ((va, v) :: rest) t

/-- Elements stored one after the other, each a list of fields: all fields of an element pass their checks before one is written
(R205). -/
inductive State.StoreAll (n : Nat) : State → List (List (Word × Nat)) → State → Prop
  | nil (s : State) : State.StoreAll n s [] s
  | cons {s u v t : State} {fields : List (Word × Nat)} {rest : List (List (Word × Nat))} {ps : List Place}
      (h : State.LandAll .write n s (fields.map (·.1)) u ps) (w : State.WriteAll n u fields v) (r : State.StoreAll n v rest t) :
      State.StoreAll n s (fields :: rest) t

/-- Read-modify-write accesses of n bytes: element, address and old value of each; `new` gives the value written (R138, R211). -/
inductive State.AmoAll (n : Nat) (new : Nat → Nat → Nat) : State → List (Nat × Word × Nat) → State → Prop
  | nil (s : State) : State.AmoAll n new s [] s
  | cons {s s' t : State} {i : Nat} {va : Word} {old : Nat} {rest : List (Nat × Word × Nat)} {p : Place}
      (h : s.Lands (.amo none) va n s' p) (hv : s'.number p.key p.pa n = old)
      (r : State.AmoAll n new (s'.putBytes p.key p.pa (leBytes n (new i old))) rest t) : State.AmoAll n new s ((i, va, old) :: rest) t

/-- The elements from the restart point to VL − 1 that are active. -/
def State.todo (s : State) (m : Bool) (e0 : Nat) : List Nat :=
  (List.range s.cur.vec.vl).filter (fun i => decide (e0 ≤ i) && s.active m i)

/-- The address g_b plus an offset, modulo 2^64. -/
def State.address (s : State) (b : Reg) (off : Int) : Word := s.cur.getG b + BitVec.ofInt 64 off

/-- A vector load into n consecutive rows (R201, R204, R205, R207): where the fields of its active elements land in order and read `val`, it
completes; element i of row vd + j receives val i j, an inactive element follows VTY.MP, every other element stands; no flag. -/
def LoadsRows (i : Instr) (s : State) (a : Reg) (n : Nat) (src : List Nat) (m : Bool) (addr : Nat → Word) : Prop :=
  let d := s.cur
  let w := d.vw
  let base := d.phys a
  let e0 := d.startAt (group base n)
  ∀ (val : Nat → Nat → Nat) (s' : State), d.VectorReady → (∀ r ∈ src ++ group base n, r < d.rowsAlloc) →
    s.ReadAll (w / 8) ((s.todo m e0).flatMap (fun i => (List.range n).map (fun j => (addr i + BitVec.ofNat 64 (j * (w / 8)), val i j)))) s' →
    ∃ t, exec i s = .next t ∧ VecDone s' t ∧ t.cur.fef = d.fef ∧ t.cur.fei = d.fei ∧ t.cur.vec.preds = d.vec.preds ∧
      (∀ j < n, ∀ i, rowElem (t.cur.vec.row (base + j)) w i =
        if e0 ≤ i ∧ i < d.vec.vl then
          if s.active m i then val i j else if vtyMp d.vec.vty then 0 else rowElem (d.vec.row (base + j)) w i
        else rowElem (d.vec.row (base + j)) w i) ∧
      (∀ r, r < base ∨ base + n ≤ r → t.cur.vec.row r = d.vec.row r) ∧
      ∀ r, t.cur.vec.pixOf r = if base ≤ r ∧ r < base + n then ⟨true, d.vec.vl⟩ else d.vec.pixOf r

/-- A vector store from n consecutive rows: where its active elements' writes land in order, it completes with exactly those writes and
changes no register. -/
def StoresRows (i : Instr) (s : State) (a : Reg) (n : Nat) (src : List Nat) (m : Bool) (addr : Nat → Word) : Prop :=
  let d := s.cur
  let w := d.vw
  let base := d.phys a
  ∀ (s' : State), d.VectorReady → (∀ r ∈ src ++ group base n, r < d.rowsAlloc) →
    s.StoreAll (w / 8) ((s.todo m (d.startAt [])).map (fun i => (List.range n).map (fun j =>
      (addr i + BitVec.ofNat 64 (j * (w / 8)), rowElem (d.vec.row (base + j)) w i)))) s' →
    ∃ t, exec i s = .next t ∧ VecDone s' t ∧ t.cur.fef = d.fef ∧ t.cur.fei = d.fei ∧ t.cur.vec = d.vec

/-! ### Grants, tiles, copies -/

/-- No run of the drover is in progress or broken, so that no instruction is held by one (R307, R314). -/
def Drover.unheld (d : Drover) : Prop := d.cst.run = false ∧ d.cst.rs = false

/-- The executing drover's flock emits no STRIP and no LANE record (R418, R424). -/
def State.untraced (s : State) : Prop := s.tren s.cur.flock 0 = false ∧ s.tren s.cur.flock 1 = false

/-- The lane groups a grant point leads to: what the drover holds, and free groups of the pasture, the lowest first, up to its maximum, or
as far as its standing request goes (R21, R169, R170). -/
def State.grantable (s : State) : Nat :=
  let cap := (s.cur.request.map (·.cap)).getD s.cur.lgMax
  s.cur.lgm.toNat ||| takeLow 16 (cap - popcount 16 s.cur.lgm.toNat) (s.pastureFor s.sel)

/-- A grant point that the executing drover's own groups and the pasture meet, while no other drover of its core waits for groups and no
run of its own holds any, and no other drover's rectangle is parked in the groups it leads to. -/
structure State.AtHand (s : State) : Prop where
  alone : ∀ k ∈ keysOf (coreOf s.sel), k ≠ s.sel → (s.drover k).request = none
  noRun : s.cur.run = none
  clear : ∀ e ∈ s.drovers, e.1 ≠ s.sel → coreOf e.1 = coreOf s.sel → e.2.granted = true → e.2.lgm = 0 → e.2.parked &&& .ofNat 16 s.grantable = 0
  pool : s.cur.lgMin ≤ popcount 16 (s.cur.lgm.toNat ||| s.pastureFor s.sel)
  meets : s.cur.lgMin ≤ popcount 16 s.grantable

/-- The entry of a tile handle on the executing drover's core; none where it is FREE (R214). -/
def State.tileAt (s : State) (h : Nat) : Option Tile := assocGet (s.core (coreOf s.sel)).tiles h

/-- The tile may be named by the executing drover (R215, checks 1 and 2). -/
def State.mayName (s : State) (h : Nat) (t : Tile) : Prop :=
  h ≤ 255 ∧ s.tileAt h = some t ∧ t.flock = s.cur.flock ∧ (t.sh = true ∨ t.own = slotOf s.sel)

/-- The bytes a region of a size takes (R218). -/
def regionSize (rows rb : Nat) : Nat := (rows * rb + 4095) / 4096 * 4096

/-- A region fits at a base between two bounds, clear of every tile of a core (R218). -/
def Core.roomAt (k : Core) (lo hi base size : Nat) : Prop :=
  lo ≤ base ∧ base + size ≤ hi ∧ ∀ e ∈ k.tiles, base + size ≤ e.2.base ∨ e.2.base + regionSize e.2.rows e.2.rb ≤ base

/-- A core apart from its tile table, tile memory and transfers. -/
def Core.untiled (k : Core) : Core := { k with tiles := [], tmem := [], terr := [], transfers := [] }

/-- The number that n bytes of a sparse memory from a place on stand for, the lowest first. -/
def numberAt (m : List (Nat × Byte)) (a n : Nat) : Nat :=
  match n with
  | 0 => 0
  | k + 1 => numberAt m a k + (Memory.get m (a + k)).toNat * 256 ^ k

/-- Tile element (r, c) of width w, at byte r × RB + c × w ÷ 8 of the region (R61, R213). -/
def Core.cell (k : Core) (t : Tile) (w r c : Nat) : Nat :=
  if w = 4 then (Memory.get k.tmem (t.base + r * t.rb + c / 2)).toNat / 16 ^ (c % 2) % 16
  else numberAt k.tmem (t.base + r * t.rb + c * (w / 8)) (w / 8)

/-- Every booking of the executing drover's core is its own (R328). -/
def State.unbooked (s : State) : Prop := ∀ b ∈ s.bookings, b.core = coreOf s.sel → b.owner = some s.sel

/-- The bits a TSTAT mask gives for tile row r: the row was in range of the recorded copy, and element i too (R225). -/
def RangeRec.inMask (g : RangeRec) (r i : Nat) : Bool :=
  let j := r - g.row0
  let at_ := fun (l : List Nat) (k : Nat) => l.getD k 0
  decide (g.row0 ≤ r ∧ r < g.row0 + g.nr) &&
  decide (at_ g.lo 1 ≤ j % g.rc1 ∧ j % g.rc1 < at_ g.hi 1) && decide (at_ g.lo 2 ≤ j / g.rc1 % g.rc2 ∧ j / g.rc1 % g.rc2 < at_ g.hi 2) &&
  decide (at_ g.lo 3 ≤ j / (g.rc1 * g.rc2) ∧ j / (g.rc1 * g.rc2) < at_ g.hi 3) && decide (at_ g.lo 0 ≤ i ∧ i < at_ g.hi 0)

/-! ### Descriptors, accesses of engines, transfers -/

/-- The n-byte field at a byte offset of a block that reads as a number. -/
def fieldOf (D off n : Nat) : Nat := D / 256 ^ off % 256 ^ n
/-- A w-bit number read as two's complement. -/
def twos (w x : Nat) : Int := if x < 2 ^ (w - 1) then (x : Int) else (x : Int) - (2 ^ w : Nat)

/-- A 64-byte descriptor in order, and the pattern it describes (R222, R228). -/
structure Describes (D : Nat) (gather : Bool) (q : Desc) : Prop where
  esz : fieldOf D 8 1 < 4
  dims : 1 ≤ fieldOf D 9 1 ∧ fieldOf D 9 1 ≤ if gather then 2 else 4
  aligned : fieldOf D 0 8 % 2 ^ fieldOf D 8 1 = 0
  res0 : fieldOf D 0x0A 6 = 0 ∧ fieldOf D 0x3C 4 = 0
  counts : ∀ k < fieldOf D 9 1, fieldOf D (0x10 + 2 * k) 2 ≠ 0
  gathers : gather = true → fieldOf D 0x30 8 % 4 = 0
  is : q = { base := fieldOf D 0 8, esz := 2 ^ fieldOf D 8 1, ndim := fieldOf D 9 1
             c := (List.range 4).map (fun k => if k < fieldOf D 9 1 then fieldOf D (0x10 + 2 * k) 2 else 1)
             i := (List.range 4).map (fun k => if k < fieldOf D 9 1 then twos 16 (fieldOf D (0x18 + 2 * k) 2) else 0)
             x := (List.range 4).map (fun k => if k < fieldOf D 9 1 then fieldOf D (0x20 + 4 * k) 4 else 1)
             s := (List.range 3).map (fun k => if k + 1 < fieldOf D 9 1 then twos 32 (fieldOf D (0x30 + 4 * k) 4) else 0)
             idxVa := if gather then fieldOf D 0x30 8 else 0 }

/-- An access of n bytes by an agent passes its checks and lands at `p`, in lines of HBM that read without an error. -/
def State.LandsFor (s : State) (ag : Agent) (want : Want) (va : Word) (n : Nat) (s' : State) (p : Place) : Prop :=
  s.locate ag want va n = .ok (s', p) ∧ isHbm p.pa n = true ∧ ∀ l ∈ linesOf p.pa n, s'.Sound l

/-- Reads of n bytes by an agent land one after the other and give the values listed. -/
inductive State.ReadsFor (ag : Agent) (n : Nat) : State → List (Word × Nat) → State → Prop
  | nil (s : State) : State.ReadsFor ag n s [] s
  | cons {s s' t : State} {va : Word} {v : Nat} {rest : List (Word × Nat)} {p : Place} (h : s.LandsFor ag .read va n s' p)
      (hv : s'.number p.key p.pa n = v) (r : State.ReadsFor ag n s' rest t) : State.ReadsFor ag n s ((va, v) :: rest) t

/-- Writes of the n low bytes of values by an agent land one after the other. -/
inductive State.WritesFor (ag : Agent) (n : Nat) : State → List (Word × Nat) → State → Prop
  | nil (s : State) : State.WritesFor ag n s [] s
  | cons {s s' t : State} {va : Word} {v : Nat} {rest : List (Word × Nat)} {p : Place} (h : s.LandsFor ag .write va n s' p)
      (r : State.WritesFor ag n (s'.putBytes p.key p.pa (leBytes n v)) rest t) : State.WritesFor ag n s ((va, v) :: rest) t

/-- The tensor index of pattern element p in dimension k lies in range (R222). -/
abbrev Desc.within (q : Desc) (k j : Nat) : Prop := 0 ≤ (j : Int) + q.i.getD k 0 ∧ (j : Int) + q.i.getD k 0 < q.x.getD k 1
/-- j_k of pattern element p, j0 fastest (R222). -/
def Desc.at_ (q : Desc) (p k : Nat) : Nat :=
  p / ((List.range k).foldl (fun a i => a * q.c.getD i 1) 1) % q.c.getD k 1
/-- Pattern element p is in range (R222). -/
def Desc.inside (q : Desc) (p : Nat) : Bool := (List.range 4).all (fun k => decide (q.within k (q.at_ p k)))
/-- The exact address of pattern element p (R222). -/
def Desc.place (q : Desc) (p : Nat) : Int :=
  let t := fun k => (q.at_ p k : Int) + q.i.getD k 0
  q.base + q.esz * (t 0 + q.s.getD 0 0 * t 1 + q.s.getD 1 0 * t 2 + q.s.getD 2 0 * t 3)

/-- The range record a filling transfer leaves: in every dimension the interval of the pattern indices in range, [0, 0) where none is; the
rows covered and the descriptor's C1 and C2 (R224, R228). -/
structure Records (r : RangeRec) (q : Desc) (gather : Bool) (row0 nrows : Nat) : Prop where
  lengths : r.lo.length = 4 ∧ r.hi.length = 4
  bounds : ∀ k < 4, (gather = true → k ≠ 1) → ∀ j, r.lo.getD k 0 ≤ j ∧ j < r.hi.getD k 0 ↔ j < q.c.getD k 1 ∧ q.within k j
  empty : ∀ k < 4, (gather = true → k ≠ 1) → (∀ j < q.c.getD k 1, ¬ q.within k j) → r.lo.getD k 0 = 0 ∧ r.hi.getD k 0 = 0
  gathered : gather = true → r.lo.getD 1 0 = 0 ∧ r.hi.getD 1 0 = q.c.getD 1 1
  rows : r.row0 = row0 ∧ r.nr = nrows
  counts : r.rc1 = q.c.getD 1 1 ∧ r.rc2 = q.c.getD 2 1

/-- The watermark of a channel after a further transfer of it completed: the highest id at or below which all have (R226). -/
structure Watermark (d e : Drover) (ch id : Nat) : Prop where
  grows : d.cwm.toList.getD ch 0 ≤ e.cwm.toList.getD ch 0
  reached : ∀ j, d.cwm.toList.getD ch 0 < j → j ≤ e.cwm.toList.getD ch 0 → j = id ∨ (ch, j) ∈ d.doneIds
  stops : e.cwm.toList.getD ch 0 + 1 ≠ id ∧ (ch, e.cwm.toList.getD ch 0 + 1) ∉ d.doneIds
  others : ∀ c, c ≠ ch → e.cwm.toList.getD c 0 = d.cwm.toList.getD c 0

/-- A core apart from one tile's state and content and its transfers. -/
def Core.otherThan (k : Core) (h : Nat) : Core × List (Nat × Tile) := (k.untiled, k.tiles.filter (fun e => e.1 != h))

/-! ### Matrices -/

/-- The executing drover may issue a matrix instruction at once: it is ready for vector instructions, and no booking of another holds
units of its core (R269, R328). -/
def State.matrixReady (s : State) : Prop := s.cur.VectorReady ∧ s.unbooked

/-- The operand element size of the accumulator shape, in bytes (R265). -/
def elementSize (f : AccFmt) : Nat := if f = .f64 then 8 else 4
/-- Element (m, n) of an accumulator (R265). -/
def Vec.accAt (v : Vec) (k m n : Nat) : Nat := rowElem (v.acc k) (8 * elementSize v.af) (m * v.an + n)
/-- The shape lies within an accumulator. -/
def Vec.shaped (v : Vec) : Prop := v.am * v.an * (8 * elementSize v.af) ≤ 131072

/-- The instruction writes elements (m, n) below (rows, cols) of accumulator k, and nothing else but HWM.AMSK (R46, R270). -/
structure AccWritten (s t : State) (k rows cols : Nat) (new : Nat → Nat → Nat) : Prop where
  elems : ∀ m n, m < s.cur.vec.am → n < s.cur.vec.an → t.cur.vec.accAt k m n = if m < rows ∧ n < cols then new m n else s.cur.vec.accAt k m n
  others : ∀ j, j ≠ k → t.cur.vec.acc j = s.cur.vec.acc j
  rest : t.cur.vec = { s.cur.vec with accs := t.cur.vec.accs, hwmAcc := t.cur.vec.hwmAcc }
  mark : t.cur.vec.hwmAcc = if rows = 0 ∨ cols = 0 then s.cur.vec.hwmAcc else s.cur.vec.hwmAcc ||| BitVec.ofNat 4 (2 ^ k)

/-- The instruction completes with changes to vector state and flags only. -/
def MatrixDone (s t : State) : Prop :=
  Completes s t { s.cur with vec := t.cur.vec, fef := t.cur.fef, fei := t.cur.fei } s.cur.getG s.cur.nextPc

/-- Rows from a physical row on receive `new r i` at listed elements and keep the others; other rows stand; the written rows are complete at
their length (R43). -/
def FilledRows (s t : State) (base n len : Nat) (new : Nat → Nat → Nat) : Prop :=
  (∀ r < n, ∀ i, rowElem (t.cur.vec.row (base + r)) (8 * elementSize s.cur.vec.af) i =
    if i < len then new r i else rowElem (s.cur.vec.row (base + r)) (8 * elementSize s.cur.vec.af) i) ∧
  (∀ r, r < base ∨ base + n ≤ r → t.cur.vec.row r = s.cur.vec.row r) ∧
  (∀ r, t.cur.vec.pixOf r = if base ≤ r ∧ r < base + n then ⟨true, len⟩ else s.cur.vec.pixOf r) ∧
  t.cur.vec = { s.cur.vec with rows := t.cur.vec.rows, pix := t.cur.vec.pix, hwmRows := t.cur.vec.hwmRows, hwmLanes := t.cur.vec.hwmLanes }

/-- The checks of all accesses pass first, and the reads then give the values listed (R276, R277). -/
def State.ReadsChecked (s : State) (n : Nat) (l : List (Word × Nat)) (s' : State) : Prop :=
  ∃ u ps, State.LandAll .read n s (l.map (·.1)) u ps ∧ State.ReadAll n u l s'
/-- The same for writes. -/
def State.WritesChecked (s : State) (n : Nat) (l : List (Word × Nat)) (s' : State) : Prop :=
  ∃ u ps, State.LandAll .write n s (l.map (·.1)) u ps ∧ State.WriteAll n u l s'

/-- The addresses g_b + r × stride + e × size of a region, rows in ascending order. -/
def State.regionOf (s : State) (b : Reg) (stride : Int) (rows cols size : Nat) : List Word :=
  (List.range rows).flatMap (fun (r : Nat) => (List.range cols).map (fun (e : Nat) => s.address b ((r : Int) * stride + ((e * size : Nat) : Int))))

/-- A SMALL-MATRIX INSTRUCTION (R281 to R283): in F32 or F64, unscaled, with a rounding mode, its views apart and its rows allocated, and
where no lane raises a flag that FEE enables, it completes: an active lane receives the elements its lane function gives, an inactive one
follows VTY.MP, and the lanes' flags are raised. `extra` is what a factorisation writes beside. -/
def SmallMatrix (i : Instr) (s : State) (a : Reg) (nd : Nat) (src dst : List Nat) (m : Bool) (lane : Nat → LaneOut)
    (extra : State → Nat → Prop) : Prop :=
  let d := s.cur
  let base := d.phys a
  let w := d.vw
  let e0 := d.startAt (group base nd ++ dst)
  d.VectorReady → d.vfmt = .f32 ∨ d.vfmt = .f64 → vtyKa d.vec.vty = false → d.rounds → (∀ r ∈ src ++ group base nd ++ dst, r < d.rowsAlloc) →
    (∀ j, e0 ≤ j → j < d.vec.vl → s.active m j = true → d.fee &&& (lane j).fl = 0) →
    ∃ t, exec i s = .next t ∧ VecDone s t ∧
      (∀ e < nd, ∀ j, rowElem (t.cur.vec.row (base + e)) w j =
        if e0 ≤ j ∧ j < d.vec.vl then if s.active m j then (lane j).d.getD e 0 % 2 ^ w else if vtyMp d.vec.vty then 0 else rowElem (d.vec.row (base + e)) w j
        else rowElem (d.vec.row (base + e)) w j) ∧
      (∀ r, r ∉ group base nd ++ dst → t.cur.vec.row r = d.vec.row r) ∧
      (∀ r, t.cur.vec.pixOf r = if r ∈ group base nd ++ dst then ⟨true, d.vec.vl⟩ else d.vec.pixOf r) ∧
      Raised d t.cur e0 d.vec.vl (fun j => if s.active m j then (lane j).fl else 0) ∧ extra t e0

/-! ### Chains -/

/-- `t` is `s` with a trap taken during a capture: the partial template is discarded and its slot freed, EPC is the CHCFG, FPC and FEL as
given; the level and the pc as for every trap; nothing else but the trap registers changes (R145, R294). -/
structure Discards (s t : State) (c : Capture) (cause : Nat) (fel fpc : Word) : Prop where
  only : t = { s with drovers := t.drovers, cores := t.cores }
  capture : t.cur.capture = none
  level : t.cur.tr.sup = true
  epc : t.cur.tr.epc = c.cfgPc &&& 0xFFFFFFFFFFFFFFFC
  fpc_ : t.cur.tr.fpc = fpc
  flt : t.cur.tr.flt = .ofNat 64 cause
  fel_ : t.cur.tr.fel = fel
  at_ : t.cur.pc = s.cur.vector cause
  regs : ∀ r, t.cur.getG r = s.cur.getG r
  rest : t.cur.untrapped = { s.cur with capture := none }.untrapped
  drovers : ∀ k, k ≠ s.sel → t.drover k = s.drover k
  slots : t.core (coreOf s.sel) =
    { s.core (coreOf s.sel) with slots := (s.core (coreOf s.sel)).slots.filter (fun e => e.1 != c.slot) }
  cores : ∀ k, k ≠ coreOf s.sel → t.core k = s.core k

/-- The majors and members that become a node when captured (R292). -/
def nodeWord (w : BitVec 32) (r : Row) : Prop :=
  let op := bits (w.setWidth 64) 0 6
  (0x21 ≤ op ∧ op ≤ 0x2D) ∨ op = 0x2F ∨ op = 0x30 ∨ op = 0x31 ∨ r ∈ [.mxoa, .mxos, .turn, .qpop]

/-- The executing drover's LINK value names the home core or a core of its flock that a lane link reaches (R14, R297). -/
def State.linked (s : State) (v : Word) : Prop :=
  let x := coreX (coreOf s.sel)
  let y := coreY (coreOf s.sel)
  let inFlock := fun (n : Nat) => ∃ f, s.flock s.cur.flock = some f ∧ n ∈ f.cores
  (v = 0 ∧ inFlock (coreOf s.sel)) ∨ (v = 1 ∧ x < 15 ∧ inFlock (coreAt (x + 1) y)) ∨ (v = 2 ∧ 0 < x ∧ inFlock (coreAt (x - 1) y)) ∨
    (v = 3 ∧ y < 15 ∧ inFlock (coreAt x (y + 1))) ∨ (v = 4 ∧ 0 < y ∧ inFlock (coreAt x (y - 1)))

/-- Token st of a chain queue, if held. -/
def Queue.at_ (q : Queue) (st : Nat) : Option Token := if q.hs ≤ st then q.tokens[st - q.hs]? else none

/-- Node k of a run as CHRUN starts it (R298): no strip done; the address, stride and scalar its word names; elements 0 to 63 of its
invariant rows and seed row; no partial present. -/
structure Begins (d : Drover) (ns : List Node) (k : Nat) (n : Node) (x : NodeRun) : Prop where
  none_ : x.strip = 0 ∧ x.pix = 0 ∧ x.faulted = false
  base : n.kind ∈ [2, 3, 4, 5] → x.base = d.getG (fB n.word)
  stride : n.row ∈ [some .vlds, some .vsts] → x.stride = d.getG (hiC (fHi n.word))
  scal : ∀ F, n.form = some F → F.useC = .g → x.scal = d.getG (hiC (fHi n.word))
  snapB : qOfB ns k = none → ∀ y, n.srcB = some y → ∀ j < 64, x.snapB.getD j 0 = d.vec.elem y.base y.m y.w j
  snapC : qOfC ns k = none → ∀ y, n.srcC = some y → ∀ j < 64, x.snapC.getD j 0 = d.vec.elem y.base y.m y.w j
  snapA : qOfA ns k = none → ∀ y, n.srcA = some y → ∀ j < 64, x.snapA.getD j 0 = d.vec.elem y.base y.m y.w j
  partials : n.kind = 6 → ∀ p, x.entries.getD p none = none
  carries : n.kind = 7 → n.row ≠ some .vscanlin → x.entries.getD 0 none = some (rowElem (d.vec.row n.fc) n.w 0)

/-- A run of the drover that neither a booking nor the sequencer has a part in. -/
def State.plainRun (s : State) (key : Nat) (r : Run) : Prop :=
  r.booked = false ∧ r.seq = false ∧ r.reuse = false ∧ r.stop = none ∧ r.dropAsked = false ∧ r.failing = none ∧ (s.core (coreOf key)).srs.owner ≠ some key

/-- Element j of a node's source at a strip: of the token it reads, or as CHRUN read it (R301). -/
def Run.sourceAt (r : Run) (q : Option Nat) (snap : List Nat) (st j : Nat) : Nat :=
  match q with
  | some q => ((((r.queues[q]?).bind (fun x => x.at_ st)).map (·.elems)).getD []).getD j 0
  | none => snap.getD j 0

/-- `t` is `s` after node k of a drover's run has fired on its next strip (R305): its state is `x'`, its token, if it makes one, stands in
queue k, every token that all its consumers have fired on has left its queue, and the run goes on. -/
structure Fired (s t : State) (key k : Nat) (ns : List Node) (r : Run) (x x' : NodeRun) (tok : Option Token) : Prop where
  run : ∃ r', (t.drover key).run = some r' ∧ r'.nodes = r.nodes.set k x' ∧ r'.count = r.count ∧ r'.rpc = r.rpc ∧ r'.brk = r.brk ∧
    ∀ q st T, (r'.queues[q]?).bind (fun y => y.at_ st) = some T ↔
      ((r.queues[q]?).bind (fun y => y.at_ st) = some T ∨ q = k ∧ st = x.strip ∧ tok = some T) ∧
        (consumers ns q = [] ∨ ∃ c ∈ consumers ns q, ∃ y, r'.nodes[c]? = some y ∧ y.strip ≤ st)
  cst : (t.drover key).cst = (s.drover key).cst
  vec : (t.drover key).vec = (s.drover key).vec
  flags : (t.drover key).fef = (s.drover key).fef ∧ (t.drover key).fei = (s.drover key).fei
  regs : ∀ a, (t.drover key).getG a = (s.drover key).getG a
  at_ : (t.drover key).pc = (s.drover key).pc
  drovers : ∀ j, j ≠ key → t.drover j = s.drover j

/-- n bytes of the image of an area by lines of 64 from an address on. -/
def areaLines (va : Word) (D n : Nat) : List (Word × Nat) :=
  (List.range (n / 64)).map (fun k => (va + .ofNat 64 (64 * k), fieldOf D (64 * k) 64))

/-- Fields of a chain state area (R318): header, node records, queue records. -/
structure AreaHolds (D : Nat) (t : Template) (r : Run) : Prop where
  ver : fieldOf D 0 2 = 1 ∧ fieldOf D 2 1 = t.nodes.length ∧ fieldOf D 3 1 % 2 = 1 ∧ fieldOf D 7 1 = t.slot
  count : fieldOf D 8 8 = r.count ∧ fieldOf D 0x10 8 = r.rpc.toNat
  nodes : ∀ k n x, t.nodes[k]? = some n → r.nodes[k]? = some x → let o := 0x100 + 128 * k
    fieldOf D (o + 1) 1 = n.core ∧ fieldOf D (o + 4) 4 = n.word.toNat ∧ fieldOf D (o + 8) 8 = n.vty.toNat ∧ fieldOf D (o + 0x10) 8 = x.pix ∧
      fieldOf D (o + 0x18) 8 = x.base.toNat ∧ fieldOf D (o + 0x20) 8 = x.stride.toNat ∧ fieldOf D (o + 0x50) 8 = x.scal.toNat

/-! ### Bookings and time -/

/-- The drover is the package's only one, no queue and no task stands, its flock is not traced, and no strip stop is set: what passes with
time is its own. -/
structure State.Lone (s : State) (key : Nat) : Prop where
  drovers : s.drovers = [(key, s.drover key)]
  queues : s.queues = []
  tasks : s.tasks = []
  untraced : ∀ c, s.tren (s.drover key).flock c = false
  runs : (s.debug (s.drover key).flock).dctl.getLsbD 2 = false

/-- A booking profile of the number P: its entries, within the limits (R330, R331). -/
structure Profiles (P lgMin lgMax : Nat) (es : List BookEntry) : Prop where
  header : fieldOf P 0 2 = 1 ∧ fieldOf P 2 2 = es.length ∧ 1 ≤ es.length ∧ es.length ≤ 63 ∧ fieldOf P 4 28 = 0
  entries : ∀ i e, es[i]? = some e → let at_ := fun (off n : Nat) => fieldOf P (32 + 32 * i + off) n
    at_ 1 3 = 0 ∧ at_ 0x18 8 = 0 ∧ e = ⟨at_ 0 1, at_ 4 2, at_ 4 2 + at_ 6 2, at_ 6 2, at_ 8 8, at_ 0x10 8⟩
  timed : ∀ e ∈ es, e.cls < 7 → 1 ≤ e.dur ∧ e.dur ≤ 1024 ∧ e.from_ ≤ 1023 ∧ e.until_ ≤ 1024 ∧ e.mask ≠ 0
  limits : ∀ e ∈ es, (e.cls = 0 ∧ e.mask < 2 ^ 16 ∧ lgMin ≤ popcount 16 e.mask ∧ popcount 16 e.mask ≤ lgMax ∧ e.bytes = 0) ∨
    (e.cls ∈ [1, 3, 4] ∧ e.mask < 2 ^ 4 ∧ e.bytes = 0) ∨ (e.cls = 2 ∧ e.mask < 2 ^ 8 ∧ e.bytes = 0) ∨
    (e.cls = 5 ∧ e.mask < 2 ^ 4 ∧ 1 ≤ e.bytes ∧ e.bytes ≤ e.dur * 10880) ∨ (e.cls = 6 ∧ e.mask < 2 ^ 8 ∧ 1 ≤ e.bytes ∧ e.bytes ≤ e.dur * 6656) ∨
    (e.cls = 7 ∧ e.from_ = 0 ∧ e.dur = 0 ∧ isCanon (.ofNat 64 e.mask) = true ∧ 1 ≤ e.bytes ∧ e.bytes ≤ 2 ^ 40)
  apart : es.Pairwise (fun e f => e.cls = f.cls → e.cls ≠ 7 → e.mask &&& f.mask ≠ 0 → e.until_ ≤ f.from_ ∨ f.until_ ≤ e.from_)

/-- n consecutive 8-byte words from an address on. -/
def wordsAt (va : Word) (D n : Nat) : List (Word × Nat) := (List.range n).map (fun k => (va + .ofNat 64 (8 * k), fieldOf D (8 * k) 8))

/-- An entry whose quanta are counted from another start. -/
def BookEntry.from (e : BookEntry) (q : Nat) : BookEntry := { e with from_ := q + e.from_, until_ := q + e.until_ }

/-! ### Step reuse -/

/-- The executing drover owns the step-reuse sequencer of its core, with a configuration, and no sequenced run of it goes on. -/
def State.sequencer (s : State) (r : Srs) (c : SrsCfg) : Prop :=
  (s.core (coreOf s.sel)).srs = r ∧ r.owner = some s.sel ∧ r.cfg = some c ∧ r.act = false

/-- A 64-byte configuration block in order (R351). -/
structure Configures (D : Nat) (c : SrsCfg) : Prop where
  fields : fieldOf D 0 1 = c.slot ∧ fieldOf D 1 1 = c.lnode ∧ fieldOf D 2 1 = c.snode ∧ fieldOf D 3 1 = c.rl + 16 * c.cl ∧ fieldOf D 4 2 = c.nt ∧
    fieldOf D 8 4 = c.t ∧ fieldOf D 0x10 8 = c.isig ∧ fieldOf D 0x18 8 = c.osig ∧ fieldOf D 0x20 8 = c.rbuf
  res0 : fieldOf D 6 2 = 0 ∧ fieldOf D 0x0C 4 = 0 ∧ fieldOf D 0x28 24 = 0
  limits : c.slot < 16 ∧ c.lnode < 32 ∧ c.snode < 32 ∧ c.rl < 16 ∧ c.cl < 16 ∧ 6 ≤ c.rl + c.cl ∧ c.rl + c.cl ≤ 20 ∧ 1 ≤ c.nt ∧ c.nt ≤ 8192 ∧
    c.isig % 16 = 0 ∧ c.osig % 16 = 0 ∧ c.rbuf % 64 = 0

/-- The signature of the first n elements of F32 (R354): sum of magnitudes, largest magnitude, mix of sign and exponent, NaN met. -/
def signed32 (x : Nat → Nat) (n : Nat) : Nat × Nat × Nat × Bool :=
  match n with
  | 0 => (0, 0, 0, false)
  | k + 1 =>
    let g := signed32 x k
    let m := x k % 2 ^ 31
    ((fAdd .f32 rmRNE (floatOperand .f32 .f32 g.1) (floatOperand .f32 .f32 m)).1, if m ≤ 0x7F800000 ∧ g.2.1 < m then m else g.2.1,
      (g.2.2.1 * 33 + x k / 2 ^ 23 % 2 ^ 9) % 2 ^ 32, g.2.2.2 || decide (0x7F800000 < m))

/-- Tiles t on of a tensor of F32 are read and their entries written, one tile after the other (R355). -/
inductive State.SignsTiles (ag : Agent) (c : SrsCfg) (base : Word) (step te : Nat) (x : Nat → Nat → Nat) : Nat → State → Nat → State → Prop
  | done (t : Nat) (s : State) : State.SignsTiles ag c base step te x t s 0 s
  | tile {t n : Nat} {s u v w : State}
      (r : s.ReadsFor ag 4 ((List.range te).map (fun j => (base + .ofNat 64 (4 * (t * te + j)), x t j))) u)
      (e : u.WritesFor ag 16 [(.ofNat 64 (c.isig + 16 * (c.nt * (step % 2) + t)),
        let g := signed32 (x t) te
        g.1 + 2 ^ 32 * g.2.1 + 2 ^ 64 * g.2.2.1 + 2 ^ 96 * step + 2 ^ 112 * g.2.2.2.toNat)] v)
      (next : State.SignsTiles ag c base step te x (t + 1) v n w) : State.SignsTiles ag c base step te x t s (n + 1) w

/-! ### Queues and tasks -/

/-- The agent of a queue's accesses to its ring and its records' operands (R366). -/
def queueAgent (q : WorkQueue) (h key : Nat) : Agent :=
  { ctx := q.ctx, die := q.home, sup := q.sup, flock := 0, key := if key < 2048 then key else 4096 + h, own := false, eng := true, src := 11, strip := none, who := .record h 0, l1 := false }

/-- Where record n of a queue lies (R362). -/
def WorkQueue.place (q : WorkQueue) (n : Nat) : Word := q.ring + .ofNat 64 (64 * (n % 2 ^ q.lcap))

/-- The die of a queue accepts its head record next, and the record reads as the number D, of a kind that uses so many bytes (R366, R368). -/
structure Accepts (s s' : State) (h : Nat) (q : WorkQueue) (p : Place) (D kind use : Nat) : Prop where
  queue : s.queue h = some q
  next : s.chosen q.home = some h
  plain : q.launchRead = none
  lands : s.LandsFor (queueAgent q h 4096) .read (q.place q.head) 64 s' p
  record : s'.number p.key p.pa 64 = D
  kind_ : fieldOf D 0 1 = kind ∧ fieldOf D 1 7 = 0 ∧ fieldOf D use (64 - use) = 0

/-- The record has been accepted: HEAD counts on, the die's pointer stands behind the handle, the queue holds later records back by `hold` and has
the effects `pend` still to perform; no drover, task or other queue changes (R366, R368). -/
structure Accepted (s t : State) (h : Nat) (q : WorkQueue) (hold : Hold) (pend : List Pending) : Prop where
  queue : ∃ q', t.queue h = some q' ∧
    q' = { q with head := (q.head + 1) % 2 ^ 32, hold := hold, pend := pend, launchSeq := none, fresh := q'.fresh }
  pointer : (t.die q.home).accPtr = (h + 1) % 131072
  drovers : t.drovers = s.drovers
  tasks : t.tasks = s.tasks
  others : ∀ k, k ≠ h → t.queue k = s.queue k

/-- n bytes move one after the other from one address to another. -/
inductive State.CopiesBytes (ag : Agent) : Word → Word → Nat → State → State → Prop
  | nil (a b : Word) (s : State) : State.CopiesBytes ag a b 0 s s
  | byte {a b : Word} {n v : Nat} {s s' u u' t : State} {p q : Place} (r : s.LandsFor ag .read a 1 s' p) (hv : s'.number p.key p.pa 1 = v)
      (w : s'.LandsFor ag .write b 1 u q) (hu : u' = u.putBytes q.key q.pa (leBytes 1 v)) (rest : State.CopiesBytes ag (a + 1) (b + 1) n u' t) :
      State.CopiesBytes ag a b (n + 1) s t

/-- A QFAULT record of the queue side (R385). -/
def queueFault (sub flock : Nat) (h : Nat) (pc va : Word) : FaultRec :=
  { cause := 0x0C, sub := sub, flg := 4, lvl := 0, pcore := 0xFF, slot := 0xFF, icause := 0, bmask := 0, flock := flock, va := va, pc := pc
    aux := .ofNat 64 h, pte := 0, pa := 0, data := 0 }

/-! ### Commands -/

/-- A command that a function gives with DOORBELL: the part is ready and the function runs none. Its effect, CODE and RES are `u`'s, `code`
and `res`; BUSY is 1 until COMMAND_COMPLETION shows them in CSTAT (R437, R438). -/
def Commands (i : Instr) (s : State) (n : Nat) (u : State) (code res : Nat) : Prop :=
  s.mgmt.ready = true → n ≤ 32 → (s.fn n).busy = false →
    exec i s = .next (u.setFn n { u.fn n with busy := true, pendCode := code, pendRes := res })

/-- The commands, the function that gives each, and whether only the physical function may (R438). -/
def commandBy (i : Instr) : Option (Nat × Bool) :=
  match i with
  | .ctxnew n _ _ _ _ _ _ => some (n, false)
  | .ctxdel n _ => some (n, false)
  | .preempt n _ => some (n, false)
  | .resume n _ _ => some (n, false)
  | .abort n _ => some (n, false)
  | .qclrCommand n _ => some (n, false)
  | .qrange n _ _ _ => some (n, true)
  | .qbind n _ _ _ => some (n, false)
  | .frq n _ _ => some (n, true)
  | .trace n _ _ => some (n, true)
  | .grant n _ _ => some (n, false)
  | .unlock n _ => some (n, true)
  | .attest n _ _ => some (n, false)
  | .pcap n _ _ => some (n, true)
  | .window n _ _ => some (n, false)
  | .irqmap n _ _ _ => some (n, true)
  | .smrd n _ => some (n, true)
  | .smwr n _ _ => some (n, true)
  | _ => none

/-- The context a command names (R438). -/
def commandOn (i : Instr) : Option Word :=
  match i with
  | .ctxdel _ c => some c
  | .preempt _ c => some c
  | .resume _ c _ => some c
  | .qbind _ c _ _ => some c
  | .grant _ c _ => some c
  | .window _ c _ => some c
  | _ => none

/-- The context exists and the function may name it: the physical function any, a virtual one its own (R438). -/
def State.owns (s : State) (n ctx : Nat) (c : Context) : Prop := s.context ctx = some c ∧ (n = 0 ∨ c.fn = n)

/-- The state map refuses a confidential context's blocks: no grant runs and the lifecycle state is not DEBUG (R446, R447, R449). -/
def State.hidden (s : State) (ctx : Nat) : Prop :=
  ∃ c, s.context ctx = some c ∧ c.conf = true ∧ c.grantUntil = none ∧ s.mgmt.lcs ≠ .debug

/-- A context's drovers, none with a run, a booking, a search or a capture. -/
def State.quietContext (s : State) (ctx : Nat) : Prop :=
  rising s.drovers = true ∧ ∀ k, (s.drover k).ctx = ctx → assocGet s.drovers k ≠ none →
    (s.drover k).cst.run = false ∧ (s.drover k).bks.st = 0 ∧ (s.drover k).capture = none ∧ s.tren (s.drover k).flock 1 = false

/-! ### The host window -/

/-- How the host's accesses through BAR4 translate: in the bound context, as a supervisor's that SO does not bar (R434; log 35). -/
def barAgent (ctx : Nat) : Agent := { ctx := ctx, die := 4, sup := true, flock := 0, key := 2048, own := false, eng := true, src := 11, strip := none, who := .swapIn 0, l1 := false }

/-- Bytes from an address on read through BAR4, each through a page with HS (R434). -/
inductive State.BarReads (ctx : Nat) : State → Word → List Byte → State → Prop
  | nil (s : State) (va : Word) : State.BarReads ctx s va [] s
  | cons {s s' t : State} {va : Word} {l : List Byte} {p : Place} (h : s.LandsFor (barAgent ctx) .read va 1 s' p) (hs : p.pte.getLsbD 6 = true)
      (r : State.BarReads ctx s' (va + 1) l t) : State.BarReads ctx s va (s'.viewByte p.key p.pa :: l) t

/-- Bytes written from an address on through BAR4: a byte whose page refuses it is discarded (R434). -/
inductive State.BarWrites (ctx : Nat) : State → Word → List Byte → State → Prop
  | nil (s : State) (va : Word) : State.BarWrites ctx s va [] s
  | kept {s s' t : State} {va : Word} {b : Byte} {l : List Byte} {p : Place} (h : s.LandsFor (barAgent ctx) .write va 1 s' p)
      (hs : p.pte.getLsbD 6 = true) (r : State.BarWrites ctx (s'.putBytes p.key p.pa [b]) (va + 1) l t) : State.BarWrites ctx s va (b :: l) t
  | lost {s s' t : State} {va : Word} {b : Byte} {l : List Byte} {f : FaultInfo} (h : s.locate (barAgent ctx) .write va 1 = .error (s', f))
      (r : State.BarWrites ctx s (va + 1) l t) : State.BarWrites ctx s va (b :: l) t

/-- A queue pair has registered the bytes for its peer, and is not in error (R439, R440). -/
def State.opened (s : State) (qp pa n : Nat) : Prop :=
  qp ∉ s.qpErr ∧ isHbm pa n = true ∧ ∃ r ∈ s.regions, r.1 = qp ∧ r.2.1 ≤ pa ∧ pa + n ≤ r.2.1 + r.2.2

/-- The package answers a read of the host's or of a peer. -/
def State.answers (s : State) (x : Served) : State := { s with served := s.served ++ [x] }

/-! ### Verdicts, power, cycles -/

/-- The flock of a drover ends by an abort, with the cause a record of subcode 5 names, and nothing of its is left (R29, R37, R383 to R385). -/
structure FlockGone (s u : State) (F : Nat) (fl : Flock) (T : Task) (icause : Nat) : Prop where
  mem : u.mem = s.mem
  flock : u.flock F = none
  drovers : ∀ k ∈ s.flockKeys F, assocGet u.drovers k = none
  task : ∃ T', u.task fl.task = some T' ∧ T'.aborted = true ∧ T'.ranges = false ∧ T'.st = if T.tcb.succ then .ending else .ended
  record : (u.die T.die).backlog = [({ queueFault 5 F T.handle T.tcbVa 0 with icause := icause }, T.ctx, none)]

/-- A flock whose task runs, with no successors, in tables in order; no booking and no queue stands, and no fault record is held back or awaits
a verdict. -/
structure State.Ends (s : State) (F : Nat) (fl : Flock) (T : Task) : Prop where
  flock : s.flock F = some fl
  begun : fl.ending = false
  task : s.task fl.task = some T
  state : T.st = .running ∧ T.flock = F ∧ T.ctx = fl.ctx ∧ T.tcb.succVa = 0
  tables : rising s.tasks = true ∧ rising s.drovers = true ∧ rising s.flocks = true ∧ s.bookings = [] ∧ s.queues = []
  quiet : (s.die T.die).frqb = none ∧ ∀ e ∈ s.dies, e.2.awaited = [] ∧ e.2.backlog = []

/-- One cycle passes in which the lone drover issues nothing, no quantum boundary falls and no booking starts, and no trace grant ends. -/
structure State.QuietCycle (s : State) (key : Nat) : Prop where
  lone : s.Lone key
  within_ : 2 ≤ (s.cycle + 1) % 8
  issuing : (s.drover key).state = .issuing
  noRun : (s.drover key).run = none ∧ (s.drover key).cst.run = false
  grants : ∀ e ∈ s.ctxs, ∀ u, e.2.grantUntil = some u → s.cycle + 1 < u
  settled : (∀ e ∈ s.tasks, e.2.st ≠ .waiting) ∧ ∀ e ∈ s.flocks, e.2.abortAsked = false

/-- One cycle in which nothing but the time of one drover, the package's only one, without a run, passes: no quantum boundary, no start of a
booking, no end of a trace grant, no abort, no strip stop falls in it. -/
structure State.Passes (s : State) (key : Nat) : Prop where
  only : s.drovers = [(key, s.drover key)] ∧ s.queues = [] ∧ s.tasks = []
  within_ : 2 ≤ (s.cycle + 1) % 8
  noRun : (s.drover key).run = none ∧ (s.drover key).cst.run = false
  grants : ∀ e ∈ s.ctxs, ∀ u, e.2.grantUntil = some u → s.cycle + 1 < u
  settled : (∀ e ∈ s.flocks, e.2.abortAsked = false) ∧ (s.debug (s.drover key).flock).dctl.getLsbD 2 = false

/-- What a cycle without an issue leaves of the package: its count, and what it changes of the one drover. -/
def State.after (s t : State) (key : Nat) (d : Drover) : Prop :=
  t = { s with cycle := s.cycle + 1, drovers := t.drovers } ∧ (∀ k, k ≠ key → t.drover k = s.drover k) ∧
    { t.drover key with lanes := [], laneMask := 0, occupied := [] } = { d with lanes := [], laneMask := 0, occupied := [] }

/-! ### A step -/

/-- The front end of a core takes the drover of key `k`, the first from its pointer on that is not at rest, and the word it issues decodes to the
instruction `i`: fetched at its pc, or repeated by a REP; the drover holds its lane groups, is not stepped past an instruction, records no chain,
waits for no search, and no breakpoint or strip stop of its flock is armed. `u` is the state after the fetch (R17, R104, R154, R419, R421). -/
structure State.Issues (s : State) (c k : Nat) (i : Instr) (u : State) : Prop where
  first : ∃ rest, s.turnOrder c = k :: rest
  lanes : (s.drover k).request = none ∧ ((s.drover k).granted = true → (s.drover k).lgm ≠ 0)
  free : ((s.drover k).stepping = true → (s.drover k).stepped = false) ∧ (s.drover k).capture = none ∧ (s.drover k).bks.search = none
  unarmed : (s.debug (s.drover k).flock).dctl.getLsbD 0 = false ∧ (s.debug (s.drover k).flock).dctl.getLsbD 2 = false
  word : ∃ w v : BitVec 32, (s.drover k).issueWord w = some v ∧ decode v = .ok i ∧ i.wf = true ∧
    (((s.drover k).reps.go = true ∧ w = (s.drover k).reps.ins ∧ u = { s with sel := k }) ∨
      ((s.drover k).reps.go = false ∧ ∃ p, { s with sel := k }.LandsFor ({ s with sel := k }.agentOf k) .fetch (s.drover k).pc 4 u p ∧
        u.number p.key p.pa 4 = w.toNat))

end Sys2Proof.Machine
end

