-- ==== Sys2Proof/Certificates/Slice0/Obligations.lean ====
section
/-! DEFINITION. The statements for the provers: what the rules say each instruction and event does, where it completes and what it leaves
unchanged, and what holds of the machine as a whole. -/
open Sys2Proof Sys2Proof.Machine

/-- R124: the integer operations give the exact results of the table in ga, for every operand, and change nothing else. R124, the unary
members: CLZ and CTZ count zero bits from the top and from the bottom, 64 for a zero operand, POPC counts ones, BSWP reverses the bytes.
R126 to R128: the immediate operations; the immediate is sign-extended before the unsigned comparison too, and LIH shifts ga left by 18
under its immediate. -/
def Obligations.IntegerInstructionsGiveTheirResults : Prop :=
  (∀ (s : State) (a b c : Reg), let x := s.cur.getG b; let y := s.cur.getG c; let k := y.toNat % 64
     Gives (.add a b c) s a (.ofNat 64 (x.toNat + y.toNat)) ∧
     Gives (.sub a b c) s a (.ofInt 64 (x.toInt - y.toInt)) ∧
     Gives (.mul a b c) s a (.ofInt 64 (x.toInt * y.toInt)) ∧
     Gives (.mulh a b c) s a ((x.signExtend 128 * y.signExtend 128).extractLsb' 64 64) ∧
     Gives (.mulhu a b c) s a ((x.setWidth 128 * y.setWidth 128).extractLsb' 64 64) ∧
     Gives (.mulhsu a b c) s a ((x.signExtend 128 * y.setWidth 128).extractLsb' 64 64) ∧
     Gives (.and a b c) s a (x &&& y) ∧
     Gives (.or a b c) s a (x ||| y) ∧
     Gives (.xor a b c) s a (x ^^^ y) ∧
     Gives (.andn a b c) s a (x &&& ~~~y) ∧
     Gives (.orn a b c) s a (x ||| ~~~y) ∧
     Gives (.shl a b c) s a (.ofNat 64 (x.toNat * 2 ^ k)) ∧
     Gives (.shr a b c) s a (.ofNat 64 (x.toNat / 2 ^ k)) ∧
     Gives (.sra a b c) s a (.ofInt 64 (x.toInt / 2 ^ k)) ∧
     Gives (.ror a b c) s a (.ofNat 64 (x.toNat / 2 ^ k + x.toNat * 2 ^ (64 - k))) ∧
     Gives (.slt a b c) s a (if x.toInt < y.toInt then 1 else 0) ∧
     Gives (.sltu a b c) s a (if x.toNat < y.toNat then 1 else 0) ∧
     Gives (.min a b c) s a (.ofInt 64 (Min.min x.toInt y.toInt)) ∧
     Gives (.max a b c) s a (.ofInt 64 (Max.max x.toInt y.toInt)) ∧
     Gives (.minu a b c) s a (.ofNat 64 (Min.min x.toNat y.toNat)) ∧
     Gives (.maxu a b c) s a (.ofNat 64 (Max.max x.toNat y.toNat)) ∧
     Gives (.exts a b c) s a ((x.setWidth (k + 1)).signExtend 64) ∧
     Gives (.extz a b c) s a ((x.setWidth (k + 1)).setWidth 64) ∧
     Gives (.selnz a b c) s a (if y = 0 then s.cur.getG a else x)) ∧
  (∀ (s : State) (a b : Reg), let x := s.cur.getG b
     (∃ n ≤ 64, Gives (.clz a b) s a (.ofNat 64 n) ∧ (∀ i < n, x.getLsbD (63 - i) = false) ∧ (n < 64 → x.getLsbD (63 - n) = true)) ∧
     (∃ n ≤ 64, Gives (.ctz a b) s a (.ofNat 64 n) ∧ (∀ i < n, x.getLsbD i = false) ∧ (n < 64 → x.getLsbD n = true)) ∧
     Gives (.popc a b) s a (.ofNat 64 ((List.range 64).countP (fun i => x.getLsbD i))) ∧
     ∃ v, Gives (.bswp a b) s a v ∧ ∀ i < 8, v.extractLsb' (8 * i) 8 = x.extractLsb' (8 * (7 - i)) 8) ∧
  (∀ (s : State) (a b : Reg) (i : BitVec 11) (n : BitVec 6) (j : BitVec 18), let x := s.cur.getG b
     Gives (.addi a b i) s a (.ofInt 64 (x.toInt + i.toInt)) ∧
     Gives (.andi a b i) s a (x &&& .ofInt 64 i.toInt) ∧
     Gives (.ori a b i) s a (x ||| .ofInt 64 i.toInt) ∧
     Gives (.xori a b i) s a (x ^^^ .ofInt 64 i.toInt) ∧
     Gives (.slti a b i) s a (if x.toInt < i.toInt then 1 else 0) ∧
     Gives (.sltiu a b i) s a (if x.toNat < (BitVec.ofInt 64 i.toInt).toNat then 1 else 0) ∧
     Gives (.shli a b n) s a (.ofNat 64 (x.toNat * 2 ^ n.toNat)) ∧
     Gives (.shri a b n) s a (.ofNat 64 (x.toNat / 2 ^ n.toNat)) ∧
     Gives (.srai a b n) s a (.ofInt 64 (x.toInt / 2 ^ n.toNat)) ∧
     Gives (.li a j) s a (.ofInt 64 j.toInt) ∧
     Gives (.lih a j) s a (.ofNat 64 ((s.cur.getG a).toNat * 2 ^ 18 + j.toNat)) ∧
     Gives (.adpc a j) s a (s.cur.iaddr + .ofInt 64 (4 * j.toInt)))

/-- R125: division never traps; a zero divisor gives −1, 2^64 − 1 and the dividend; otherwise the quotient is truncated toward zero and
the remainder has the sign of g_b, so −2^63 by −1 gives −2^63 and 0. -/
def Obligations.DivisionNeverTraps : Prop :=
  ∀ (s : State) (a b c : Reg), let x := s.cur.getG b; let y := s.cur.getG c
    (y = 0 → Gives (.div a b c) s a (.ofInt 64 (-1)) ∧ Gives (.divu a b c) s a (.ofNat 64 (2 ^ 64 - 1)) ∧
      Gives (.rem a b c) s a x ∧ Gives (.remu a b c) s a x) ∧
    (y ≠ 0 → Gives (.div a b c) s a (.ofInt 64 (x.toInt.tdiv y.toInt)) ∧ Gives (.divu a b c) s a (.ofNat 64 (x.toNat / y.toNat)) ∧
      Gives (.rem a b c) s a (.ofInt 64 (x.toInt.tmod y.toInt)) ∧ Gives (.remu a b c) s a (.ofNat 64 (x.toNat % y.toNat))) ∧
    (x = .ofInt 64 (-2 ^ 63) → y = .ofInt 64 (-1) →
      Gives (.div a b c) s a (.ofInt 64 (-2 ^ 63)) ∧ Gives (.rem a b c) s a 0)

/-- R130 to R132: JAL and JALR write the address of the next word to ga and jump, JALR by g_b read before ga is written; a branch jumps by
4 times its offset when its condition holds and otherwise goes on at the next word. No target is checked here (R133). R131: a JALR to an
address that is not a multiple of 4 traps MISALIGN with FVA the target, and ga is unchanged. -/
def Obligations.JumpsAndBranchesGoToTheirTargets : Prop :=
  (∀ (s : State) (a b : Reg) (i : BitVec 11) (j : BitVec 18),
     let x := s.cur.getG a; let y := s.cur.getG b; let here := s.cur.iaddr
     let by_ := fun (mk : Reg → Reg → BitVec 11 → Instr) (p : Prop) =>
       (p → Jumps (mk a b i) s s.cur.getG (here + .ofInt 64 (4 * i.toInt))) ∧ (¬ p → Jumps (mk a b i) s s.cur.getG s.cur.nextPc)
     Jumps (.jal a j) s (s.regsWith a (here + 4)) (here + .ofInt 64 (4 * j.toInt)) ∧
     (let t := y + BitVec.ofInt 64 i.toInt
      t.toNat % 4 = 0 → Jumps (.jalr a b i) s (s.regsWith a (here + 4)) t) ∧
     by_ .beq (x = y) ∧ by_ .bne (x ≠ y) ∧ by_ .blt (x.toInt < y.toInt) ∧ by_ .bge (x.toInt ≥ y.toInt) ∧
     by_ .bltu (x.toNat < y.toNat) ∧ by_ .bgeu (x.toNat ≥ y.toNat)) ∧
  (∀ (s : State) (a b : Reg) (i : BitVec 11), let t := s.cur.getG b + BitVec.ofInt 64 i.toInt
     t.toNat % 4 ≠ 0 → s.cur.handles → TrapsWith (.jalr a b i) s 0x05 t)

/-- R144, R145: TRAP and SVC trap with cause TRAPI, BRK with BRKPT and FLT.EX = 0; FVA holds the code with bit 14 for SVC and bit 15 for
BRK, FPC the instruction's address and EPC the next word's; the level becomes supervisor and the pc the handler's; nothing else changes.
R146: where TVEC is 0 a trap enters no handler; the drover's flock is aborted: its drovers leave their slots, the flock is gone, its task
is at its end as aborted, and no drover of another flock changes. -/
def Obligations.SoftwareTrapsEnterTheHandlerOrAbort : Prop :=
  (∀ (s : State) (n : BitVec 14), s.cur.handles →
     let enters := fun (i : Instr) (cause va : Nat) =>
       ∃ t, exec i s = .next t ∧ Enters s t cause (BitVec.ofNat 64 cause) (BitVec.ofNat 64 va) 0 (s.cur.status false false)
         ((s.cur.iaddr + 4) &&& 0xFFFFFFFFFFFFFFFC) s.cur.iaddr
     enters (.trap n) 0x11 n.toNat ∧ enters (.svc n) 0x11 (n.toNat + 2 ^ 14) ∧ enters (.brk n) 0x0E (n.toNat + 2 ^ 15)) ∧
  (∀ (s : State) (n : BitVec 14) (f : Flock) (tk : Task), s.Tidy → s.cur.tr.tvec = 0 → s.cur.capture = none →
     s.flock s.cur.flock = some f → f.ending = false → s.task f.task = some tk → tk.st = .running → tk.flock = s.cur.flock →
     tk.tcb.succ = true →
     ∃ t, exec (.trap n) s = .next t ∧ t.flock s.cur.flock = none ∧ (∀ e ∈ t.drovers, e.2.flock ≠ s.cur.flock) ∧
       (∀ k, (s.drover k).flock ≠ s.cur.flock → t.drover k = s.drover k) ∧
       ∃ tk', t.task f.task = some tk' ∧ tk'.st = .ending ∧ tk'.aborted = true)

/-- R147, R152: at user level ERET, an SRD of EPC, ESR, TVEC or a debug register and an SWR of any register but VWB, GRT, FEF, FEE, SMS
and CSAB trap ILLOP, and so does at any level the access to a number that R49 does not assign. R147: at supervisor level ERET makes ESR.PL
the level and EPC the pc, and marks the instruction there as the resumed one. No other trap register, no g register, no flag and no byte
of memory changes, and of other drovers and of this one only what a grant point changes (R21). -/
def Obligations.PrivilegeIsKeptAndEretReturns : Prop :=
  (∀ (s : State) (a : Reg) (n : BitVec 14), s.cur.handles →
     (s.cur.tr.sup = false → TrapsWith .eret s 0x01 0) ∧
     (s.cur.tr.sup = false → (0x320 ≤ n.toNat ∧ n.toNat ≤ 0x322 ∨ 0x400 ≤ n.toNat ∧ n.toNat ≤ 0x422) → TrapsWith (.srd a n) s 0x01 0) ∧
     (s.cur.tr.sup = false → n.toNat ∉ [0x004, 0x005, 0x007, 0x008, 0x020, 0x061] → TrapsWith (.swr a n) s 0x01 0) ∧
     (assignedSr n.toNat = false → TrapsWith (.srd a n) s 0x01 0 ∧ TrapsWith (.swr a n) s 0x01 0)) ∧
  (∀ (s : State), s.cur.tr.sup = true →
     ∃ t, exec .eret s = .next t ∧ t.sel = s.sel ∧ t.cur.tr = { s.cur.tr with sup := s.cur.tr.esr.getLsbD 0 } ∧
       t.cur.pc = s.cur.tr.epc ∧ t.cur.resume = true ∧ t.cur.viaEret = true ∧ (∀ r, t.cur.getG r = s.cur.getG r) ∧
       t.cur.reps = s.cur.reps ∧ t.cur.fef = s.cur.fef ∧ t.cur.latch = s.cur.latch ∧ t.mem = s.mem ∧
       ∀ k, k ≠ s.sel → (t.drover k).ungranted = (s.drover k).ungranted)

/-- R134: a scalar load whose access passes the checks of R135 writes to ga the n bytes at g_b + off, little-endian, sign- or zero-
extended, and changes nothing else. R134: a scalar store whose access passes the checks stores the low n bytes of ga at g_b + off and
changes no other byte, no register and nothing else. -/
def Obligations.ScalarLoadsAndStoresMoveTheirBytes : Prop :=
  (∀ (s s' : State) (a b : Reg) (i : BitVec 11) (p : Place), let va := s.cur.getG b + BitVec.ofInt 64 i.toInt
     let v := fun n => s'.number p.key p.pa n
     (s.Lands .read va 1 s' p → Loads (.ldb a b i) s s' a ((BitVec.ofNat 8 (v 1)).signExtend 64) ∧ Loads (.ldbz a b i) s s' a (.ofNat 64 (v 1))) ∧
     (s.Lands .read va 2 s' p → Loads (.ldh a b i) s s' a ((BitVec.ofNat 16 (v 2)).signExtend 64) ∧ Loads (.ldhz a b i) s s' a (.ofNat 64 (v 2))) ∧
     (s.Lands .read va 4 s' p → Loads (.ldw a b i) s s' a ((BitVec.ofNat 32 (v 4)).signExtend 64) ∧ Loads (.ldwz a b i) s s' a (.ofNat 64 (v 4))) ∧
     (s.Lands .read va 8 s' p → Loads (.ldd a b i) s s' a (.ofNat 64 (v 8)))) ∧
  (∀ (s s' : State) (a b : Reg) (i : BitVec 11) (p : Place), s.memOk → let va := s.cur.getG b + BitVec.ofInt 64 i.toInt
     let stores := fun (mk : Reg → Reg → BitVec 11 → Instr) (n : Nat) => s.Lands .write va n s' p →
       ∃ t u, exec (mk a b i) s = .next t ∧ Stored s' u p.key p.pa n (s.cur.getG a).toNat ∧ Completes u t s.cur s.cur.getG s.cur.nextPc
     stores .stb 1 ∧ stores .sth 2 ∧ stores .stw 4 ∧ stores .std 8)

/-- R137, R138: an AMO whose access passes the checks gives ga the old 8 bytes at g_b and stores the table's new value, as one; AMOCAS
stores only where the old value equals ga. With `.o` no write of the drover may still await its acknowledgement (R139). -/
def Obligations.AtomicOperationsReadAndWriteAsOne : Prop :=
  ∀ (s s' : State) (a b c : Reg) (o : Bool) (p : Place) (x y : Word), s.memOk → (o = true → ∀ e ∈ s.unacked, e.2 ≠ s.sel) →
    x = .ofNat 64 (s'.number p.key p.pa 8) → y = s.cur.getG c →
    let does := fun (mk : Reg → Reg → Reg → Bool → Instr) (host : Option Nat) (new : Word) => s.Lands (.amo host) (s.cur.getG b) 8 s' p →
      ∃ t u, exec (mk a b c o) s = .next t ∧ Stored s' u p.key p.pa 8 new.toNat ∧ Completes u t s.cur (s.regsWith a x) s.cur.nextPc
    does .amoswp (some 0) y ∧ does .amoadd (some 1) (x + y) ∧ does .amoand none (x &&& y) ∧ does .amoor none (x ||| y) ∧
    does .amoxor none (x ^^^ y) ∧ does .amomin none (if x.toInt ≤ y.toInt then x else y) ∧
    does .amomax none (if x.toInt ≥ y.toInt then x else y) ∧ does .amominu none (if x.toNat ≤ y.toNat then x else y) ∧
    does .amomaxu none (if x.toNat ≥ y.toNat then x else y) ∧ (x = s.cur.getG a → does .amocas (some 9) y) ∧
    (x ≠ s.cur.getG a → s.Lands (.amo (some 9)) (s.cur.getG b) 8 s' p →
      ∃ t, exec (.amocas a b c o) s = .next t ∧ Completes s' t s.cur (s.regsWith a x) s.cur.nextPc)

/-- R394, R395: the translation of a drover's own access changes no drover and no queue: at most the translations its die holds, and of
memory at most the 8 bytes of one page-table entry, whose only changes are A and, before a write, D being set. R135, checks 1 and 2: a
scalar load or store to an address whose bits 63 to 56 are not copies of bit 55 traps XLATE with FVA that address made canonical;
otherwise one to an address that is not a multiple of n traps MISALIGN. FLT.WR tells a store. No register and no byte changes. R135 check
3, R387, R399: a scalar load or store of an aligned canonical address whose page is not mapped or does not admit it suspends the drover:
it is TRAPPED with the cause in FLT and the address in FVA, its pc and registers as they were, and no byte of memory changes but those of
the fault record and the tail of its ring. -/
def Obligations.AccessesAreCheckedAndTranslated : Prop :=
  (∀ (s s' : State) (want : Want) (va : Word) (n : Nat) (p : Place), s.memOk → s.locate (s.agentOf s.sel) want va n = .ok (s', p) →
     s' = { s with mem := s'.mem, encTag := s'.encTag, dies := s'.dies } ∧ s'.memOk ∧
     (s'.mem = s.mem ∨ ∃ e, (∀ x, (x < e ∨ e + 8 ≤ x) → s'.byte x = s.byte x) ∧
       s'.number 0 e 8 = (BitVec.ofNat 64 (s.number 0 e 8) ||| 0x200 ||| (if want.writes then 0x400 else 0)).toNat)) ∧
  (∀ (s : State) (i : Instr) (st : Bool) (b : Reg) (o : BitVec 11) (n : Nat), scalarAccess i = some (st, b, o, n) → s.cur.handles →
     let va := s.cur.getG b + BitVec.ofInt 64 o.toInt
     let good : Word := (va.extractLsb' 0 56).signExtend 64
     let traps := fun (cause : Nat) (fva : Word) => ∃ t, exec i s = .next t ∧
       Enters s t cause (.ofNat 64 (cause + if st then 0x10000 else 0)) fva 0 (s.cur.status false false)
         (s.cur.pc &&& 0xFFFFFFFFFFFFFFFC) s.cur.iaddr
     (good ≠ va → traps 0x06 good) ∧ (good = va → va.toNat % n ≠ 0 → traps 0x05 va)) ∧
  (∀ (s : State) (i : Instr) (st : Bool) (b : Reg) (o : BitVec 11) (n : Nat) (w : WalkFail), scalarAccess i = some (st, b, o, n) →
     let va := s.cur.getG b + BitVec.ofInt 64 o.toInt
     (va.extractLsb' 0 56).signExtend 64 = va → va.toNat % n = 0 →
     s.translate (s.agentOf s.sel) (if st then .write else .read) va = .error w → (w.cause = 0x07 ∨ w.cause = 0x06 ∧ w.sub ≠ 0) →
     ∃ t, exec i s = .next t ∧ t.sel = s.sel ∧ t.cur.state = .trapped ∧ t.cur.pc = s.cur.pc ∧ t.cur.g = s.cur.g ∧ t.cur.vec = s.cur.vec ∧
       t.cur.tr.flt = .ofNat 64 (w.cause + (if st then 0x10000 else 0) + 0x40000) ∧ t.cur.tr.fva = va ∧ t.cur.tr.fpc = s.cur.iaddr ∧
       (∀ k, k ≠ s.sel → t.drover k = s.drover k) ∧
       ∀ x, (let base := ((s.die (dieOf s.sel)).frqb).getD 0; x < base ∨ base + 65544 ≤ x) → t.byte x = s.byte x)

/-- R140, R143, R149: NOP does nothing. A FENCE of a scope from 0 to 5 completes, from SYS with release semantics once no write of the
drover awaits its acknowledgement; another scope traps ILLOP. WAIT traps ILLOP where a bit above 4 is set, completes at once for 0 or
where the latch holds a bit of the mask, clearing those bits, and else enters AWAITING without lane groups. R148, R150: YIELD completes
without a change of its drover's registers, keeps its lane groups, and sets SIB in the latch of every other resident drover of its flock
on the core, or resumes it where it waits for SIB; no other drover changes but by a grant. R151: EXIT, once the transfers of every channel
have completed, and what the drover pushed into write streams is performed, ends its drover: it holds no lane groups, no streams, no
template, run or capture and no booking, and its registers keep their values, but a bound row reads as zero; while one has not, nothing
changes. -/
def Obligations.FencesWaitsYieldsAndExitsComplete : Prop :=
  (∀ (s : State) (b : Reg) (k : BitVec 2) (sc : BitVec 3), let m := s.cur.getG b; let mask := m.setWidth 5
     Does .nop s s.cur ∧
     (sc.toNat < 6 → (sc = 5 → k ≠ 0 → ∀ e ∈ s.unacked, e.2 ≠ s.sel) → Does (.fence k sc) s s.cur) ∧
     (sc.toNat ≥ 6 → s.cur.handles → TrapsWith (.fence k sc) s 0x01 0) ∧
     (m.toNat ≥ 32 → s.cur.handles → TrapsWith (.wait b) s 0x01 0) ∧
     (m = 0 → Does (.wait b) s s.cur) ∧
     (m.toNat < 32 → s.cur.latch &&& mask ≠ 0 → Does (.wait b) s { s.cur with latch := s.cur.latch &&& ~~~mask }) ∧
     (m.toNat < 32 → m ≠ 0 → s.cur.latch &&& mask = 0 →
       exec (.wait b) s = .next (s.setCur { s.cur with state := .awaiting, wait := some (.event mask), lgm := 0, stall := none }))) ∧
  (∀ (s : State), s.cur.wait = none → s.cur.request = none →
     let sibling := fun (k : Nat) => k ∈ keysOf (coreOf s.sel) ∧ k ≠ s.sel ∧ (s.drover k).resident = true ∧ (s.drover k).flock = s.cur.flock
     ∃ t, exec .yield s = .next t ∧ t.sel = s.sel ∧ t.cur.pc = s.cur.nextPc ∧ (∀ r, t.cur.getG r = s.cur.getG r) ∧ t.cur.vec.vl = s.cur.vec.vl ∧
       t.cur.latch = s.cur.latch ∧ t.mem = s.mem ∧
       ∀ k, k ≠ s.sel →
         (sibling k → (t.drover k).latch.getLsbD 4 = true ∨
           (∃ m, (s.drover k).wait = some (.event m) ∧ m.getLsbD 4 = true ∧ (t.drover k).state = .issuing)) ∧
         (¬ sibling k → (t.drover k).ungranted = (s.drover k).ungranted)) ∧
  (∀ (s : State), let d := s.cur
     let done := ∀ n, (h : n < 4) → d.cwm[n] + 1 = d.cnx[n]
     let pushed := (∃ x ∈ d.streams, x.write = true) ∧ ∃ e ∈ s.unacked, e.2 = s.sel
     (done → ¬ pushed → ∃ t, exec .exit s = .next t ∧ t.sel = s.sel ∧ t.cur.state = .exited ∧ t.cur.lgm = 0 ∧ t.cur.streams = [] ∧
       t.cur.template = none ∧ t.cur.run = none ∧ t.cur.capture = none ∧ t.cur.wait = none ∧ t.cur.bks.st = 0 ∧ t.cur.g = d.g ∧
       (∀ r, t.cur.vec.row r = if ∃ x ∈ d.streams, x.row = r then 0 else d.vec.row r) ∧
       s.bookings.all (fun b => b.owner != some s.sel || !t.bookings.contains b) = true) ∧
     (¬ done ∨ pushed → ∃ t, exec .exit s = .next t ∧ t = s.setCur { d with stall := t.cur.stall }))

/-- R49, R152: an SRD of a register that user level may read gives its fields in their places; one of EPC, ESR, TVEC or a debug register
gives it at supervisor level. -/
def Obligations.SrdReadsEveryRegister : Prop :=
  ∀ (s : State) (a : Reg), let d := s.cur; let v := d.vec
    let reads := fun (n : Nat) (x : Nat) => Gives (.srd a (.ofNat 14 n)) s a (.ofNat 64 x)
    reads 0x000 v.vl ∧ reads 0x001 v.vty.toNat ∧ reads 0x002 v.tl ∧ reads 0x003 v.kl ∧ reads 0x004 v.vwb ∧
    reads 0x005 (d.groups + 2 ^ 8 * d.gc.toNat + 2 ^ 16 * d.lgm.toNat + 2 ^ 32 * (d.groups * 256) + 2 ^ 48 * (d.groups * 512)) ∧
    reads 0x006 (v.hwmRows + 2 ^ 16 * v.hwmLanes + 2 ^ 32 * v.hwmK + 2 ^ 40 * v.hwmAcc.toNat) ∧
    reads 0x007 d.fef.toNat ∧ reads 0x008 d.fee.toNat ∧
    (∀ n, (h : n < 7) → reads (0x010 + n) (d.fei[n].idx + if d.fei[n].v then 2 ^ 63 else 0)) ∧
    reads 0x020 d.sms.toNat ∧
    reads 0x030 (d.reps.cnt.toNat + 2 ^ 32 * d.reps.strd.toNat + 2 ^ 40 * d.reps.fm.toNat + 2 ^ 63 * d.reps.act.toNat) ∧
    (∀ n, (h : n < 4) → reads (0x040 + n) d.cwm[n] ∧ reads (0x048 + n) d.cnx[n]) ∧
    reads 0x060 (d.cst.live.toNat + 2 * d.cst.run.toNat + 4 * d.cst.rs.toNat + 8 * d.cst.tmp.toNat + 16 * d.cst.slot +
      256 * d.cst.icause + 65536 * d.cst.exp.toNat) ∧
    reads 0x061 d.cst.csab.toNat ∧ reads 0x070 (d.bks.st + 256 * d.bks.ref) ∧ reads 0x071 d.bks.start.toNat ∧
    (let r := s.srsOf s.sel
     reads 0x080 (r.en.toNat + 2 * r.act.toNat + 4 * r.nr.toNat + 2 ^ 16 * r.step + 2 ^ 32 * r.skips) ∧
     ∀ n < 128, reads (0x100 + n) (r.skm.toNat / 2 ^ (64 * n) % 2 ^ 64)) ∧
    (∀ n, (h : n < 256) → reads (0x200 + n) (v.pix[n].idx + if v.pix[n].done then 2 ^ 63 else 0)) ∧
    reads 0x300 d.tr.flt.toNat ∧ reads 0x301 d.tr.fva.toNat ∧ reads 0x302 d.tr.fpc.toNat ∧ reads 0x303 d.tr.fel.toNat ∧
    reads 0x310 (slotOf s.sel + 256 * coreOf s.sel + 65536 * d.fcore + 2 ^ 32 * d.flock) ∧
    reads 0x330 s.cycle ∧
    (d.tr.sup = true →
      reads 0x320 d.tr.epc.toNat ∧ reads 0x321 d.tr.esr.toNat ∧ reads 0x322 d.tr.tvec.toNat ∧ reads 0x430 d.strp.toNat ∧ reads 0x431 d.stro ∧
      let g := s.debug d.flock
      (∀ n, (h : n < 8) → reads (0x400 + n) g.iba[n].toNat ∧ reads (0x408 + n) g.ibc[n].toNat ∧ reads (0x410 + n) g.wpa[n].toNat ∧
        reads (0x418 + n) g.wpc[n].toNat) ∧
      reads 0x420 g.dctl.toNat ∧ reads 0x421 g.dsts.toNat ∧ reads 0x422 g.rstp.toNat)

/-- R49, R50, R55, R153: at every level SWR writes VWB (as WINB does), GRT.GC, FEF, FEE, SMS and CSAB: a value outside the fields and
limits traps ILLOP, any other is written and nothing else changes. VWB waits for no run here, and CSAB is refused while CST.RUN or CST.RS
is 1. R49, R50, R147: at supervisor level SWR writes every other register that R49 calls RW there: a value within its limits is written,
one outside traps ILLOP and changes nothing; a register that is read-only at every level traps too. A write of VTY clips VL to the new
VLMAX. A change of CWM, the fall of CST.RUN and the fall of SRSC.ACT are events of R148. R49, R50, R54, R56, R418: at supervisor level an
SWR of REPS, ESR, BKS, SRSC, SKMn and the debug registers within its limits completes and leaves the fields written: SRSC and SKMn of the
sequencer the drover owns, the debug registers of its flock, DSTS with the ones of the value cleared. -/
def Obligations.SwrWritesEveryRegister : Prop :=
  (∀ (s : State) (a : Reg), let d := s.cur; let x := d.getG a; let v := x.toNat
     let writes := fun (n : Nat) (ok : Prop) (e : Drover) =>
       (ok → Does (.swr a (.ofNat 14 n)) s e) ∧ (¬ ok → d.handles → TrapsWith (.swr a (.ofNat 14 n)) s 0x01 0)
     (d.cst.run = false → d.cst.rs = false →
       writes 0x004 (v % 8 = 0 ∧ v ≤ 128) { d with vec := { d.vec with vwb := v } } ∧
       (v % 8 = 0 ∧ v ≤ 128 → Does (.winb a) s { d with vec := { d.vec with vwb := v } }) ∧
       (¬ (v % 8 = 0 ∧ v ≤ 128) → d.handles → TrapsWith (.winb a) s 0x01 0)) ∧
     writes 0x005 (bits x 5 3 = 0 ∧ bits x 9 7 = 0) { d with gc := d.gc && !x.getLsbD 8 } ∧
     writes 0x007 (v < 128) { d with fef := x.setWidth 7 } ∧
     writes 0x008 (v < 128) { d with fee := x.setWidth 7 } ∧
     writes 0x020 (v < 8192) { d with sms := x } ∧
     writes 0x061 ((x.extractLsb' 0 56).signExtend 64 = x ∧ v % 64 = 0 ∧ d.cst.run = false ∧ d.cst.rs = false)
       { d with cst := { d.cst with csab := x } }) ∧
  (∀ (s : State) (a : Reg), let d := s.cur; let x := d.getG a; let v := x.toNat
     d.tr.sup = true → d.state = .issuing →
     let writes := fun (n : Nat) (ok : Prop) (e : Drover) =>
       (ok → Does (.swr a (.ofNat 14 n)) s e) ∧ (¬ ok → d.handles → TrapsWith (.swr a (.ofNat 14 n)) s 0x01 0)
     writes 0x000 (v ≤ d.vlmax) { d with vec := { d.vec with vl := v } } ∧
     writes 0x001 (v < 2 ^ 29) { d with vec := { d.vec with
       vty := x, vl := if (vtyFmt x).legal ∧ d.lgm ≠ 0 then Min.min d.vec.vl (vlmaxOf d.groups (vtyFmt x).width) else d.vec.vl } } ∧
     writes 0x002 (v ≤ 1024) { d with vec := { d.vec with tl := v } } ∧
     writes 0x003 (v ≤ 64) { d with vec := { d.vec with kl := v } } ∧
     writes 0x006 (v < 2 ^ 44 ∧ bits x 39 1 = 0 ∧ bits x 32 7 ≤ 64 ∧ bits x 27 5 = 0 ∧ bits x 16 11 ≤ 1024 ∧ bits x 9 7 = 0 ∧ bits x 0 9 ≤ 256)
       { d with vec := { d.vec with hwmRows := bits x 0 9, hwmLanes := bits x 16 11, hwmK := bits x 32 7, hwmAcc := .ofNat 4 (bits x 40 4) } } ∧
     (∀ n, (h : n < 7) → writes (0x010 + n) (bits x 16 47 = 0) { d with fei := d.fei.set n ⟨x.getLsbD 63, bits x 0 16⟩ }) ∧
     (∀ n, (h : n < 4) → writes (0x040 + n) (v < 2 ^ 48)
         { d with cwm := d.cwm.set n v, latch := if d.cwm[n] = v then d.latch else d.latch ||| 1 } ∧
       writes (0x048 + n) (v < 2 ^ 48) { d with cnx := d.cnx.set n v }) ∧
     writes 0x060 (v < 2 ^ 17)
       { d with
         cst := { exp := x.getLsbD 16, icause := bits x 8 8, slot := bits x 4 4, tmp := x.getLsbD 3, rs := x.getLsbD 2, run := x.getLsbD 1,
                  live := x.getLsbD 0, csab := d.cst.csab }
         latch := if d.cst.run = true ∧ x.getLsbD 1 = false then d.latch ||| 2 else d.latch } ∧
     Does (.swr a 0x071) s { d with bks := { d.bks with start := x } } ∧
     writes 0x300 (v < 2 ^ 19) { d with tr := { d.tr with flt := x } } ∧
     writes 0x301 ((x.extractLsb' 0 56).signExtend 64 = x) { d with tr := { d.tr with fva := x } } ∧
     Does (.swr a 0x302) s { d with tr := { d.tr with fpc := x } } ∧
     writes 0x303 (bits x 48 15 = 0) { d with tr := { d.tr with fel := x } } ∧
     writes 0x320 (v % 4 = 0) { d with tr := { d.tr with epc := x } } ∧
     writes 0x322 (v % 4 ≤ 1) { d with tr := { d.tr with tvec := x } } ∧
     (d.handles → ∀ n : BitVec 14, n ∈ [0x310, 0x330, 0x430, 0x431] ∨ 0x200 ≤ n.toNat ∧ n.toNat < 0x300 → TrapsWith (.swr a n) s 0x01 0)) ∧
  (∀ (s : State) (a : Reg) (f : Flock), let d := s.cur; let x := d.getG a; let v := x.toNat
     d.tr.sup = true → d.state = .issuing → d.reps.go = false → d.resume = false → d.viaEret = false → s.flock d.flock = some f → (∀ c, s.tren d.flock c = false) →
     let does := fun (n : Nat) (ok : Prop) (now : State → Prop) => ok → ∃ t, exec (.swr a (.ofNat 14 n)) s = .next t ∧ t.sel = s.sel ∧
       t.cur.pc = d.pc + 4 ∧ (∀ r, t.cur.getG r = d.getG r) ∧ t.mem = s.mem ∧ now t
     does 0x030 (bits x 43 20 = 0 ∧ bits x 39 1 = 0) (fun t => t.cur.reps = { d.reps with
       act := x.getLsbD 63, fm := .ofNat 3 (bits x 40 3), strd := .ofNat 7 (bits x 32 7), cnt := .ofNat 32 (bits x 0 32) }) ∧
     does 0x321 (v < 64 ∧ bits x 0 2 ≤ 1) (fun t => t.cur.tr = { d.tr with esr := x }) ∧
     does 0x070 (v < 2 ^ 16 ∧ bits x 3 5 = 0 ∧ bits x 0 3 ≤ 5) (fun t =>
       t.cur.bks = { d.bks with st := bits x 0 3, ref := bits x 8 8 } ∧
       (d.bks.st ≠ bits x 0 3 → t.cur.latch = d.latch ||| 4)) ∧
     does 0x080 (v < 2 ^ 48 ∧ bits x 3 13 = 0) (fun t => (s.core (coreOf s.sel)).srs.owner = some s.sel →
       (t.core (coreOf s.sel)).srs = { (s.core (coreOf s.sel)).srs with
         en := x.getLsbD 0, act := x.getLsbD 1, nr := x.getLsbD 2, step := bits x 16 16, skips := bits x 32 16 }) ∧
     (∀ n < 128, does (0x100 + n) True (fun t => (s.core (coreOf s.sel)).srs.owner = some s.sel →
       ∀ j < 8192, (t.core (coreOf s.sel)).srs.skm.getLsbD j =
         if j / 64 = n then x.getLsbD (j % 64) else (s.core (coreOf s.sel)).srs.skm.getLsbD j)) ∧
     (let sets := fun (n : Nat) (ok : Prop) (g : Debug) => does n ok (fun t => t.flock d.flock = some { f with dbg := g })
      (∀ n, (h : n < 8) →
        sets (0x400 + n) ((x.extractLsb' 0 56).signExtend 64 = x ∧ v % 4 = 0) { f.dbg with iba := f.dbg.iba.set n x } ∧
        sets (0x408 + n) (bits x 48 12 = 0) { f.dbg with ibc := f.dbg.ibc.set n x } ∧
        sets (0x410 + n) ((x.extractLsb' 0 56).signExtend 64 = x ∧ v % 2 ^ bits f.dbg.wpc[n] 52 5 = 0) { f.dbg with wpa := f.dbg.wpa.set n x } ∧
        sets (0x418 + n) (bits x 48 4 = 0 ∧ bits x 52 5 ≤ 24 ∧ (x.getLsbD 63 = true → bits x 58 2 ≠ 0) ∧
          f.dbg.wpa[n].toNat % 2 ^ bits x 52 5 = 0) { f.dbg with wpc := f.dbg.wpc.set n x }) ∧
      sets 0x420 (v < 2 ^ 40 ∧ bits x 29 3 = 0 ∧ bits x 4 20 = 0 ∧ (bits x 24 5 = 0 ∨ 10 ≤ bits x 24 5 ∧ bits x 24 5 ≤ 24)) { f.dbg with dctl := x } ∧
      sets 0x421 (v < 2 ^ 16) { f.dbg with dsts := f.dbg.dsts &&& ~~~x } ∧
      sets 0x422 (bits x 48 15 = 0) { f.dbg with rstp := x }))

/-- R154, R155: REP n with the next word fetched at `pc + 4`. A length above 2^32 − 1, a word of majors 0x00, 0x0C to 0x13 or 0x39, one
that does not decode, one that writes g_b and a named field that is no vector field trap ILLOP. For n = 0 the pc moves behind the repeated
word; else REPS holds the field mask, the stride and n, and the repeated word is next. -/
def Obligations.RepRepeatsTheNextWord : Prop :=
  ∀ (s u : State) (b c : Reg) (f : BitVec 3) (w : BitVec 32) (r : Row), let d := s.cur; let n := (d.getG b).toNat
    s.fetchAt (s.agentOf s.sel) (d.pc + 4) = .ok u w → u.cur = d → u.sel = s.sel → d.resume = false → d.reps.go = false →
    let op := (w.extractLsb' 0 6).toNat
    let bad := n ≥ 2 ^ 32 ∨ op = 0 ∨ (0x0C ≤ op ∧ op ≤ 0x13) ∨ op = 0x39 ∨ (∃ e, decodeRow w = .error e) ∨
      (decodeRow w = .ok r ∧ (f &&& ~~~r.vecFields ≠ 0 ∨ (r.writesG = true ∧ w.extractLsb' 7 7 = b) ∨ r.wf w = false))
    (bad → d.handles → ∃ t, exec (.rep b c f) s = .next t ∧ Enters u t 0x01 0x01 0 0 (d.status false false) (d.pc &&& 0xFFFFFFFFFFFFFFFC) d.pc) ∧
    (¬ bad → decodeRow w = .ok r → n = 0 → ∃ t, exec (.rep b c f) s = .next t ∧ Completes u t d d.getG (d.pc + 8)) ∧
    (¬ bad → decodeRow w = .ok r → n ≠ 0 → ∃ t, exec (.rep b c f) s = .next t ∧ t = u.setCur t.cur ∧ t.cur.pc = d.pc ∧
      (∀ r, t.cur.getG r = d.getG r) ∧ t.cur.others = d.others ∧
      t.cur.reps = { act := true, fm := f, strd := c, cnt := .ofNat 32 n, go := true, total := n, ins := w })

/-- R174, R175: the members of VIA in row and `.s` form, in the eight integer formats: each active element receives the member's exact
value reduced modulo 2^w; signedness comes from the member, or from the format for VSADD, VSSUB and VABSD. R176: the bitwise members of
VIB, its shifts by the low log2 w bits of the amount, and its minima and maxima, in row and `.s` form. R177: VSEL chooses every element
from vb or vc by its bit of p[VTY.PS]; VMOV copies w bits, from a row or, `.s`, from a g register. They take every legal format and raise
nothing. R178, R179: the immediate members; a shift takes amounts below w and traps RESCOMB from w on; VLI writes the sign-extended
immediate, in a floating-point format as its exact value. -/
def Obligations.VectorIntegerInstructionsGiveTheirResults : Prop :=
  (∀ (s : State) (a b c : Reg) (m : Bool), let f := s.cur.vfmt; let w := f.width
     f.isInt8 = true →
     let is := fun (mk mks : Reg → Reg → Reg → Bool → Instr) (r : Nat → Nat → Nat → Int) => IntegerForms mk mks s a b c m r
     let n := fun (x : Nat) => toSigned w x
     let k := fun (x : Nat) => if f.signed then n x else ((x % 2 ^ w : Nat) : Int)
     let sat := fun (x : Int) => if f.signed then Max.max (-2 ^ (w - 1) : Int) (Min.min (2 ^ (w - 1) - 1 : Int) x) else Max.max 0 (Min.min (2 ^ w - 1 : Int) x)
     is .vadd .vaddS (fun _ x y => x + y) ∧ is .vsub .vsubS (fun _ x y => (x : Int) - y) ∧ is .vrsub .vrsubS (fun _ x y => (y : Int) - x) ∧
     is .vmul .vmulS (fun _ x y => x * y) ∧ is .vmulh .vmulhS (fun _ x y => n x * n y / 2 ^ w) ∧
     is .vmulhu .vmulhuS (fun _ x y => (x : Int) * y / 2 ^ w) ∧ is .vmacc .vmaccS (fun z x y => z + x * y) ∧
     is .vnmsac .vnmsacS (fun z x y => (z : Int) - x * y) ∧
     is .vdiv .vdivS (fun _ x y => if y = 0 then -1 else (n x).tdiv (n y)) ∧
     is .vdivu .vdivuS (fun _ x y => if y = 0 then -1 else (x / y : Nat)) ∧
     is .vrem .vremS (fun _ x y => if y = 0 then x else (n x).tmod (n y)) ∧
     is .vremu .vremuS (fun _ x y => if y = 0 then x else (x % y : Nat)) ∧
     is .vsadd .vsaddS (fun _ x y => sat (k x + k y)) ∧ is .vssub .vssubS (fun _ x y => sat (k x - k y)) ∧
     is .vabsd .vabsdS (fun _ x y => ((k x - k y).natAbs : Int))) ∧
  (∀ (s : State) (a b c : Reg) (m : Bool), let f := s.cur.vfmt; let w := f.width
     f.isInt8 = true →
     let is := fun (mk mks : Reg → Reg → Reg → Bool → Instr) (r : Nat → Nat → Nat → Int) => IntegerForms mk mks s a b c m r
     let n := fun (x : Nat) => toSigned w x
     is .vand .vandS (fun _ x y => (x &&& y : Nat)) ∧ is .vor .vorS (fun _ x y => (x ||| y : Nat)) ∧
     is .vxor .vxorS (fun _ x y => (x ^^^ y : Nat)) ∧ is .vandn .vandnS (fun _ x y => (x ^^^ (x &&& y) : Nat)) ∧
     is .vshl .vshlS (fun _ x y => (x * 2 ^ (y % w) : Nat)) ∧ is .vshr .vshrS (fun _ x y => (x / 2 ^ (y % w) : Nat)) ∧
     is .vsra .vsraS (fun _ x y => n x / ((2 ^ (y % w) : Nat) : Int)) ∧
     is .vmin .vminS (fun _ x y => if n x ≤ n y then x else y) ∧ is .vmax .vmaxS (fun _ x y => if n x ≥ n y then x else y) ∧
     is .vminu .vminuS (fun _ x y => (Min.min x y : Nat)) ∧ is .vmaxu .vmaxuS (fun _ x y => (Max.max x y : Nat))) ∧
  (∀ (s : State) (a b c : Reg) (m : Bool), let d := s.cur; let mp := vtyMp d.vec.vty
     d.vfmt.legal = true →
     let p := fun (j : Nat) => d.vec.pbit (vtyPs d.vec.vty) j
     Elementwise (.vsel a b c) s a [d.phys b, d.phys c] (fun _ => true) mp false 1 d.vw
       (fun j => (if p j then s.source b j else s.source c j, 0)) ∧
     Elementwise (.vselS a b c) s a [d.phys b] (fun _ => true) mp false 1 d.vw (fun j => (if p j then s.source b j else s.scalar c, 0)) ∧
     Elementwise (.vmov a c m) s a [d.phys c] (s.active m) mp false 1 d.vw (fun j => (s.source c j, 0)) ∧
     Elementwise (.vmovS a c m) s a [] (s.active m) mp false 1 d.vw (fun _ => (s.scalar c, 0))) ∧
  (∀ (s : State) (a b : Reg) (i : BitVec 8) (m : Bool), let d := s.cur; let f := d.vfmt; let w := f.width; let mp := vtyMp d.vec.vty
     let is := fun (mk : Reg → Reg → BitVec 8 → Bool → Instr) (r : Nat → Int) =>
       Elementwise (mk a b i m) s a [d.phys b] (s.active m) mp false 1 d.vw (fun j => (modulo w (r (s.source b j)), 0))
     let n := fun (x : Nat) => toSigned w x
     (f.isInt8 = true →
       is .vaddi (fun x => x + i.toInt) ∧ is .vmuli (fun x => x * i.toInt) ∧
       (i.toNat < w → is .vshli (fun x => (x * 2 ^ i.toNat : Nat)) ∧ is .vshri (fun x => (x / 2 ^ i.toNat : Nat)) ∧
         is .vsrai (fun x => n x / ((2 ^ i.toNat : Nat) : Int))) ∧
       (w ≤ i.toNat → d.VectorReady → d.handles → TrapsWith (.vshli a b i m) s 0x02 0 ∧ TrapsWith (.vshri a b i m) s 0x02 0 ∧
         TrapsWith (.vsrai a b i m) s 0x02 0) ∧
       is .vandi (fun x => (x &&& modulo w i.toInt : Nat)) ∧ is .vori (fun x => (x ||| modulo w i.toInt : Nat)) ∧
       Elementwise (.vli a i m) s a [] (s.active m) mp false 1 d.vw (fun _ => (modulo w i.toInt, 0))) ∧
     (f.isIeee = true → ∃ v < 2 ^ w, eqValue (floatValue f v) (.fin (decide (i.toInt < 0)) i.toInt.natAbs 0) = true ∧
       Elementwise (.vli a i m) s a [] (s.active m) mp false 1 d.vw (fun _ => (v, 0))))

/-- R180, R181: VFADD to VFDIV give the exact result of their operands rounded once under VTY.RM, with its flags; VFMIN and VFMAX choose
by value; VFSGN takes the sign of c. Row and `.s` forms, in F16, BF16, F32 and F64. R182 to R185: the members of VFU. The special
functions are functions of the code, the format and, where they round, VTY.RM, with the values of R184; VFABS and VFNEG change the sign
bit only; VFCLASS sets one bit; VFRND rounds to an integral value. -/
def Obligations.VectorFloatInstructionsGiveTheirResults : Prop :=
  (∀ (s : State) (a b c : Reg) (m : Bool), let d := s.cur; let f := d.vfmt; let rm := vtyRm d.vec.vty; let ka := vtyKa d.vec.vty
     f.isIeee = true → d.scales →
     let is := fun (mk mks : Reg → Reg → Reg → Bool → Instr) (r : Operand → Operand → Operand → Nat × FlagSet) => FloatForms mk mks s a b c m r
     (d.rounds →
       is .vfadd .vfaddS (fun x y _ => fAdd f rm x y) ∧ is .vfsub .vfsubS (fun x y _ => fSub f rm x y) ∧
       is .vfmul .vfmulS (fun x y _ => fMul f rm x y) ∧ is .vfma .vfmaS (fun x y z => fFma f rm x y z) ∧
       is .vfms .vfmsS (fun x y z => fFms f rm x y z) ∧ is .vfnma .vfnmaS (fun x y z => fFnma f rm x y z) ∧
       is .vfdiv .vfdivS (fun x y _ => fDiv f rm x y)) ∧
     (let picks := fun (isMax : Bool) (mk mks : Reg → Reg → Reg → Bool → Instr) =>
        Elementwise (mk a b c m) s a [d.phys b, d.phys c] (s.active m) (vtyMp d.vec.vty) false 1 d.vw
          (fun j => chosen isMax f rm ka (s.source b j) (s.source c j) (s.scaled j (s.source b j)) (s.scaled j (s.source c j))) ∧
        Elementwise (mks a b c m) s a [d.phys b] (s.active m) (vtyMp d.vec.vty) false 1 d.vw
          (fun j => chosen isMax f rm ka (s.source b j) (s.scalar c) (s.scaled j (s.source b j)) (s.operand (s.scalar c)))
      (ka = true → d.rounds) → picks false .vfmin .vfminS ∧ picks true .vfmax .vfmaxS) ∧
     IntegerForms .vfsgn .vfsgnS s a b c m (fun _ x y => (x % 2 ^ (d.vw - 1) + y / 2 ^ (d.vw - 1) * 2 ^ (d.vw - 1) : Nat))) ∧
  (∀ (s : State) (a b : Reg) (m : Bool), let d := s.cur; let f := d.vfmt; let rm := vtyRm d.vec.vty
     let is := fun (mk : Reg → Reg → Bool → Instr) (r : Nat → Nat → Nat × FlagSet) =>
       Elementwise (mk a b m) s a [d.phys b] (s.active m) (vtyMp d.vec.vty) false 1 d.vw (fun j => r j (s.source b j))
     let fn := fun (n : Nat) (j x : Nat) =>
       vfuFn n f rm (x + if vtyKa d.vec.vty then 2 ^ d.vw * (s.scaleOf j + 1) else 0) (s.scaled j x)
     f.isIeee = true →
     (d.scales → d.rounds → is .vfsqrt (fn 0)) ∧ (d.scales → (f = .f16 ∨ f = .bf16 → d.rounds) → is .vfrcp (fn 1) ∧ is .vfrsq (fn 2)) ∧
     (d.scales → f ≠ .f64 → is .vfexp2 (fn 3) ∧ is .vflog2 (fn 4) ∧ is .vfsin (fn 5) ∧ is .vfcos (fn 6) ∧ is .vftanh (fn 7) ∧ is .vfsigm (fn 8)) ∧
     is .vfabs (fun _ x => (x % 2 ^ (d.vw - 1), 0)) ∧ is .vfneg (fun _ x => (x ^^^ 2 ^ (d.vw - 1), 0)) ∧
     is .vfclass (fun _ x => (vfClass f x, 0)) ∧ (d.scales → d.rounds → is .vfrnd (fun j x => vfRound f rm (s.scaled j x))) ∧
     (d.VectorReady → d.handles → f = .f64 → ∀ mk ∈ [Instr.vfexp2, .vflog2, .vfsin, .vfcos, .vftanh, .vfsigm], TrapsWith (mk a b m) s 0x02 0))

/-- R186, R187: a compare writes to each active element's bit of pa whether its condition holds; −0 equals +0; a NaN makes the ordered
conditions false; lt and le raise NV for any NaN, the others for a signalling one; a subnormal operand raises DN. R188 to R191: the
conversions of every pair of formats their instruction takes: VCVT and VCVTK into the named format, VWID and VNAR by the table of R191.
The wider side is a group of rows, its element j in row base + (j mod m); the two sides share no row where the widths differ; VCVTK
multiplies by its scale first. -/
def Obligations.VectorComparesAndConversions : Prop :=
  (∀ (s : State) (a b c : Reg) (m : Bool), let d := s.cur; let f := d.vfmt; let w := f.width
     let n := fun (x : Nat) => toSigned w x
     let ints := fun (mk mks : Reg → Reg → Reg → Bool → Instr) (p : Nat → Nat → Bool) =>
       Elementcheck (mk a b c m) s a [d.phys b, d.phys c] (s.active m) (fun j => (p (s.source b j) (s.source c j), 0)) ∧
       Elementcheck (mks a b c m) s a [d.phys b] (s.active m) (fun j => (p (s.source b j) (s.scalar c), 0))
     let floats := fun (mk : Reg → Reg → Reg → Bool → Instr) (loud : Bool) (p : Value → Value → Bool) =>
       Elementcheck (mk a b c m) s a [d.phys b, d.phys c] (s.active m) (fun j =>
         let x := s.scaled j (s.source b j)
         let y := s.scaled j (s.source c j)
         (p x.val y.val, (if x.sub || y.sub then flDN else 0) |||
           if x.snan || y.snan || (loud && (x.val.isNaN || y.val.isNaN)) then flNV else 0))
     (f.isInt8 = true →
       ints .vcmpEq .vcmpEqS (fun x y => x == y) ∧ ints .vcmpNe .vcmpNeS (fun x y => x != y) ∧
       ints .vcmpLt .vcmpLtS (fun x y => decide (n x < n y)) ∧ ints .vcmpGe .vcmpGeS (fun x y => decide (n x ≥ n y)) ∧
       ints .vcmpLtu .vcmpLtuS (fun x y => decide (x < y)) ∧ ints .vcmpGeu .vcmpGeuS (fun x y => decide (x ≥ y))) ∧
     (f.isIeee = true → d.scales →
       let nan := fun (x y : Value) => x.isNaN || y.isNaN
       floats .vfcmpEq false (fun x y => eqValue x y) ∧ floats .vfcmpNe false (fun x y => !eqValue x y) ∧
       floats .vfcmpLt true (fun x y => !nan x y && ltValue x y) ∧ floats .vfcmpLe true (fun x y => !nan x y && (ltValue x y || eqValue x y)) ∧
       floats .vfcmpUn false (fun x y => nan x y) ∧ floats .vfcmpOr false (fun x y => !nan x y))) ∧
  (∀ (s : State) (a b : Reg) (m : Bool), let d := s.cur; let f := d.vfmt; let rm := vtyRm d.vec.vty; let sat := vtySat d.vec.vty
     let dstRows := fun (t : Fmt) => if t.width ≤ f.width then 1 else t.width / f.width
     let srcRows := fun (t : Fmt) => if f.width ≤ t.width then 1 else f.width / t.width
     let x := fun (t : Fmt) (j : Nat) => d.vec.elem (d.phys b) (srcRows t) d.vw j
     let slot := fun (t : Fmt) (j : Nat) => let g := j / 4 * 4; decodeSlot (x t g) (x t (g + 1)) (x t (g + 2)) (x t (g + 3)) (j % 4)
     let apart := fun (t : Fmt) => t.width ≠ f.width → ∀ r ∈ group (d.phys a) (dstRows t), r ∉ group (d.phys b) (srcRows t)
     let gives := fun (i : Instr) (t : Fmt) (r : Nat → Nat × FlagSet) => apart t →
       Elementwise i s a (group (d.phys b) (srcRows t)) (s.active m) (vtyMp d.vec.vty) false (dstRows t) t.width r
     let plain := fun (t : Fmt) (j : Nat) => if f = .i4x then (slot t j).convert t rm else convertElem f t rm sat (x t j)
     f.legal = true → d.rounds →
     (∀ (c : BitVec 5), let t := Fmt.ofCode c.toNat
       t.legal = true → t ≠ .i4x →
       gives (.vcvt a b c m) t (plain t) ∧
       (f.isInt = false → t.isInt = false → (d.vec.vl = 0 ∨ (d.vec.vl - 1) / 2 ^ vtyBl d.vec.vty < 512) → gives (.vcvtk a b c m) t (fun j =>
         if f = .i4x then
           let r := convertScaled t rm (s.scaleOf j) (defaultNaN t) (slot t j).val
           (r.1, r.2 ||| if (slot t j).fe then flFE else 0)
         else convertScaled t rm (s.scaleOf j) (convertNaN f t (x t j)) (floatValue f (x t j))))) ∧
     (∀ p ∈ [(Fmt.i4, Fmt.i8), (.i8, .i16), (.n8, .n16), (.i16, .i32), (.n16, .n32), (.i32, .i64), (.n32, .n64), (.h8, .f16), (.g8, .f16),
         (.i4x, .h8), (.f16, .f32), (.bf16, .f32), (.f32, .f64)], f = p.1 → gives (.vwid a b m) p.2 (plain p.2)) ∧
     (∀ p ∈ [(Fmt.i8, Fmt.i4), (.i16, .i8), (.n16, .n8), (.i32, .i16), (.n32, .n16), (.i64, .i32), (.n64, .n32), (.f16, .h8), (.f32, .f16),
         (.f64, .f32)], f = p.1 → gives (.vnar a b m) p.2 (plain p.2)))

/-- R163, R192, R193, R324: the permutes move codes between elements, 0 standing for an element at or above VL; vd is none of the sources
where they cross lanes. VXCH takes distances that are powers of two, TURN transposes groups of n × n, VINS writes one element, VCOMP packs
the active elements, VEXPD spreads elements over them, VIOTA counts those below. -/
def Obligations.VectorPermutes : Prop :=
  ∀ (s : State) (a b c : Reg) (m : Bool), let d := s.cur; let f := d.vfmt; let mp := vtyMp d.vec.vty; let n := (d.getG c).toNat
    f.legal = true →
    let x := fun (j : Nat) => if j < d.vec.vl then s.source b j else 0
    let act := s.active m
    let below := fun (j : Nat) => (List.range j).countP act
    let moves := fun (i : Instr) (srcs : List Reg) (r : Nat → Nat) => (∀ q ∈ srcs, q ≠ a) →
      Elementwise i s a (srcs.map d.phys) act mp false 1 d.vw (fun j => (r j, 0))
    ((∃ k, n = 2 ^ k) → moves (.vxchS a b c m) [b] (fun j => x (j ^^^ n))) ∧
    (c.toNat < 15 → moves (.vxch a b c m) [b] (fun j => x (j ^^^ 2 ^ c.toNat))) ∧
    moves (.vslup a b c m) [b] (fun j => if n ≤ j then x (j - n) else 0) ∧
    moves (.vsldn a b c m) [b] (fun j => x (j + n)) ∧
    moves (.vperm a b c m) [b, c] (fun j => x (s.source c j)) ∧
    moves (.vbcast a b c m) [b] (fun _ => x n) ∧
    moves (.vrev a b m) [b] (fun j => x (d.vec.vl - 1 - j)) ∧
    (n ∈ [1, 2, 4, 8] → f.width ≠ 4 →
      moves (.turn a b c m) [b] (fun j => x (j / (n * n) * (n * n) + (j % n) * n + j / n % n))) ∧
    Elementwise (.vins a b c m) s a [] (fun j => decide (j = n) && act j) false false 1 d.vw (fun _ => ((d.getG b).toNat % 2 ^ d.vw, 0)) ∧
    (a ≠ b → Elementwise (.vcomp a b m) s a [d.phys b] (fun j => decide (j < below d.vec.vl)) mp true 1 d.vw
      (fun j => (x ((((List.range d.vec.vl).filter act)[j]?).getD 0), 0))) ∧
    (a ≠ b → Elementwise (.vexpd a b m) s a [d.phys b] act mp true 1 d.vw (fun j => (x (below j), 0))) ∧
    (f.isInt8 = true → Elementwise (.viota a m) s a [] act mp true 1 d.vw (fun j => (below j, 0)))

/-- R86, R88, R196: an integer reduction writes to vd[0] the fold of the active elements of vb by the partials of 2^FWL, and then of the
seed vc[0]; the seed alone where none is active. It raises nothing. R86, R181, R196: the floating-point reductions, where FEE enables no
flag. Without scaling they fold codes, the sum rounding once per step; with KA the minima and maxima fold exact scaled values, and their
result is rounded once into vd[0]. R89, R90, R197, R198: the scans run their carry through the active elements in rising order from vc,
VSCANLIN in segments of 2^BL elements with one fused multiply-add each; vc receives the carries. -/
def Obligations.ReductionsAndScansFold : Prop :=
  (∀ (s : State) (a b c : Reg) (m : Bool), let d := s.cur; let w := d.vw; let n := fun (x : Nat) => toSigned w x
     let els := (List.range d.vec.vl).filter (s.active m)
     let is := fun (mk : Reg → Reg → Reg → Bool → Instr) (op : Nat → Nat → Nat) =>
       Reduces (mk a b c m) s a [d.phys b, d.phys c] true
         (match foldOf op (s.source b) els (vtyFwl d.vec.vty) with
           | some x => op x (s.source c 0)
           | none => s.source c 0)
     d.vfmt.isInt8 = true → vtyFwl d.vec.vty ≤ 10 →
     is .vrsum (fun x y => modulo w (x + y)) ∧ is .vrmin (fun x y => if n x ≤ n y then x else y) ∧
     is .vrmax (fun x y => if n x ≥ n y then x else y) ∧ is .vrminu (fun x y => Min.min x y) ∧ is .vrmaxu (fun x y => Max.max x y) ∧
     is .vrand (fun x y => x &&& y) ∧ is .vror (fun x y => x ||| y) ∧ is .vrxor (fun x y => x ^^^ y)) ∧
  (∀ (s : State) (a b c : Reg) (m : Bool), let d := s.cur; let f := d.vfmt; let rm := vtyRm d.vec.vty; let fwl := vtyFwl d.vec.vty
     let els := (List.range d.vec.vl).filter (s.active m)
     let seed := s.source c 0
     let codes := fun (op : Nat → Nat → Nat) =>
       match foldOf op (s.source b) els fwl with
       | some x => op x seed
       | none => seed
     let values := fun (op : Operand → Operand → Operand) =>
       match foldOf op (fun j => s.scaled j (s.source b j)) els fwl with
       | some x => let o := op x (s.operand seed); (roundValue f rm o.nan o.val).1
       | none => seed
     let sum := fun (x y : Operand) => (fAdd f rm x y).1
     let pick := fun (isMax : Bool) (x y : Operand) =>
       if x.val.isNaN && y.val.isNaN then { x with snan := false } else if minMaxSecond isMax x.val y.val then y else x
     let choose := fun (isMax : Bool) (x y : Nat) => (chosen isMax f rm false x y (s.operand x) (s.operand y)).1
     let is := fun (mk : Reg → Reg → Reg → Bool → Instr) (r : Nat) => Reduces (mk a b c m) s a [d.phys b, d.phys c] false r
     f.isIeee = true → fwl ≤ 10 → d.fee = 0 →
     (vtyKa d.vec.vty = false →
       (d.rounds → is .vrfsum (codes (fun x y => sum (s.operand x) (s.operand y)))) ∧ is .vrfmin (codes (choose false)) ∧
       is .vrfmax (codes (choose true))) ∧
     (vtyKa d.vec.vty = true → d.scales → d.rounds →
       is .vrfsum (values (fun x y => s.operand (sum x y))) ∧ is .vrfmin (values (pick false)) ∧ is .vrfmax (values (pick true)))) ∧
  (∀ (s : State) (a b c : Reg) (m : Bool), let d := s.cur; let f := d.vfmt; let rm := vtyRm d.vec.vty
     (f.isInt8 = true → Scans (.vscanAdd a b c m) s a b c m (fun _ => 0) (fun carry j => (modulo d.vw (carry + s.source b j), 0))) ∧
     (f.isIeee = true → d.rounds → d.scales →
       Scans (.vfscanAdd a b c m) s a b c m (fun _ => 0) (fun carry j => fAdd f rm (s.operand carry) (s.scaled j (s.source b j)))) ∧
     (f.isIeee = true → d.rounds → vtyKa d.vec.vty = false →
       Scans (.vscanlin a b c m) s a b c m (fun j => j / 2 ^ vtyBl d.vec.vty)
         (fun carry j => fFma f rm (s.operand (s.source b j)) (s.operand carry) (s.operand (s.source a j)))))

/-- R192, R199: the predicate operations over bits 0 to VL − 1; PCNT counts bits, PFIRST finds the lowest, all ones where there is none;
PFROMV tells the elements that are not 0; PTOV writes 1 or 0; VEXTR gives ga an element, extended as its format has it, 0 at or above VL.
-/
def Obligations.PredicatesAndExtraction : Prop :=
  ∀ (s : State) (a b c : Reg), let d := s.cur; let p := fun (r : Reg) (j : Nat) => d.vec.pbit r.toNat j
    (b.toNat < 16 → c.toNat < 16 →
      Predicates (.pand a b c) s a (fun j => p b j && p c j) ∧ Predicates (.por a b c) s a (fun j => p b j || p c j) ∧
      Predicates (.pxor a b c) s a (fun j => p b j != p c j) ∧ Predicates (.pandn a b c) s a (fun j => p b j && !p c j) ∧
      Predicates (.pnot a b) s a (fun j => !p b j) ∧ Predicates (.pmov a b) s a (p b) ∧
      (d.VectorReady → Gives (.pcnt a b) s a (.ofNat 64 ((List.range d.vec.vl).countP (p b)))) ∧
      (d.VectorReady → (∀ j < d.vec.vl, p b j = false) → Gives (.pfirst a b) s a (.ofInt 64 (-1))) ∧
      (d.VectorReady → ∀ j < d.vec.vl, p b j = true → (∀ k < j, p b k = false) → Gives (.pfirst a b) s a (.ofNat 64 j)) ∧
      (d.vfmt.isInt8 = true → Elementwise (.ptov a b) s a [] (fun _ => true) (vtyMp d.vec.vty) false 1 d.vw (fun j => ((p b j).toNat, 0)))) ∧
    Predicates (.pset a) s a (fun _ => true) ∧ Predicates (.pclr a) s a (fun _ => false) ∧
    (d.vfmt.legal = true → Elementcheck (.pfromv a b) s a [d.phys b] (fun _ => true) (fun j => (s.source b j != 0, 0))) ∧
    (d.vfmt.legal = true → d.VectorReady → d.phys b < d.rowsAlloc → let n := (d.getG c).toNat
      (n < d.vec.vl → Gives (.vextr a b c) s a
        (if d.vfmt.signed then .ofInt 64 (toSigned d.vw (s.source b n)) else .ofNat 64 (s.source b n))) ∧
      (d.vec.vl ≤ n → Gives (.vextr a b c) s a 0))

/-- R36, R41, R103, R104, R166: a vector instruction is checked at issue in this order: VNCFG before the first SETVTY with a legal format
and the first SETVL, RESCOMB for a format it does not take, WINOV for a row outside the allocation; it then traps with no effect. R102,
R133, R146, R393, R399: a word that is no instruction traps ILLOP, and an instruction fetch that fails traps or suspends at the
instruction with FLT.EX and the target in FVA; on a handler's first word it aborts the flock. R148 to R151, R164, R180 to R187, R241: what
passes its checks completes: NOP; FENCE with a scope of the table whose earlier writes are acknowledged; WAIT with an empty mask or a latched
event; YIELD; EXIT with its copies done and its pushes performed; each floating-point operation, function and compare in an IEEE format
whose rounding mode and scales are legal, with no trap enabled in FEE (the special functions not in F64). -/
def Obligations.ChecksAtIssueTrapInOrder : Prop :=
  (∀ (s : State) (a b c : Reg) (m : Bool), let d := s.cur; let rows := fun (l : List Reg) => ∀ r ∈ l, d.phys r < d.rowsAlloc
     d.VectorReady → d.vfmt.isIeee = true → d.rounds → d.scales → d.fee = 0 →
     (rows [a, b, c] →
       ∀ mk ∈ [Instr.vfadd, .vfsub, .vfmul, .vfma, .vfms, .vfnma, .vfdiv, .vfmin, .vfmax, .vfsgn, .vfaddS, .vfsubS, .vfmulS, .vfmaS, .vfmsS, .vfnmaS,
         .vfdivS, .vfminS, .vfmaxS, .vfsgnS], ∃ t, exec (mk a b c m) s = .next t ∧ VecDone s t) ∧
     (rows [a, b] →
       (∀ mk ∈ [Instr.vfsqrt, .vfrcp, .vfrsq, .vfabs, .vfneg, .vfclass, .vfrnd], ∃ t, exec (mk a b m) s = .next t ∧ VecDone s t) ∧
       (d.vfmt ≠ .f64 → ∀ mk ∈ [Instr.vfexp2, .vflog2, .vfsin, .vfcos, .vftanh, .vfsigm], ∃ t, exec (mk a b m) s = .next t ∧ VecDone s t)) ∧
     (rows [b, c] → 1 ≤ a.toNat → a.toNat ≤ 15 →
       ∀ mk ∈ [Instr.vfcmpEq, .vfcmpNe, .vfcmpLt, .vfcmpLe, .vfcmpUn, .vfcmpOr], ∃ t, exec (mk a b c m) s = .next t ∧ VecDone s t (s.predDone a))) ∧
  (∀ (s : State) (b : Reg) (k : BitVec 2) (sc : BitVec 3), let d := s.cur; let m := d.getG b
     (∃ t, exec .nop s = .next t ∧ Completes s t d d.getG d.nextPc) ∧
     (sc.toNat < 6 → (∀ e ∈ s.unacked, e.2 ≠ s.sel) → ∃ t, exec (.fence k sc) s = .next t ∧ Completes s t d d.getG d.nextPc) ∧
     (m.toNat < 32 → m = 0 ∨ d.latch &&& m.setWidth 5 ≠ 0 →
       ∃ t, exec (.wait b) s = .next t ∧ Completes s t { d with latch := d.latch &&& ~~~m.setWidth 5 } d.getG d.nextPc) ∧
     (∃ t, exec .yield s = .next t ∧ t.sel = s.sel ∧ t.cur.pc = d.nextPc) ∧
     ((∀ n, (h : n < 4) → d.cwm[n] + 1 = d.cnx[n]) → (∀ e ∈ s.unacked, e.2 ≠ s.sel) →
       ∃ t, exec .exit s = .next t ∧ t.sel = s.sel ∧ t.cur.state = .exited)) ∧
  (∀ (s : State) (a b c : Reg) (m : Bool), let d := s.cur
     d.handles → d.cst.run = false → d.cst.rs = false → d.streams = [] → (vtyRm d.vec.vty ≤ 4 ∧ vtyKa d.vec.vty = false) →
     let checked := fun (mk : Reg → Reg → Reg → Bool → Instr) (fmts : Fmt → Bool) =>
       (d.typed = false ∨ d.configured = false → TrapsWith (mk a b c m) s 0x03 0) ∧
       (d.typed = true → d.configured = true → fmts d.vfmt = false → TrapsWith (mk a b c m) s 0x02 0) ∧
       (d.typed = true → d.configured = true → fmts d.vfmt = true → (∃ r ∈ [a, b, c], d.rowsAlloc ≤ d.phys r) → TrapsWith (mk a b c m) s 0x04 0)
     (∀ mk ∈ [Instr.vadd, .vsub, .vrsub, .vmul, .vmulh, .vmulhu, .vmacc, .vnmsac, .vdiv, .vdivu, .vrem, .vremu, .vsadd, .vssub, .vabsd, .vand,
       .vor, .vxor, .vandn, .vshl, .vshr, .vsra, .vmin, .vmax, .vminu, .vmaxu], checked mk Fmt.isInt8) ∧
     (∀ mk ∈ [Instr.vfadd, .vfsub, .vfmul, .vfma, .vfms, .vfnma, .vfdiv, .vfmin, .vfmax, .vfsgn], checked mk Fmt.isIeee)) ∧
  (∀ (s : State) (w : BitVec 32) (f : WalkFail) (p : Place) (s' : State) (fl : Flock) (T : Task), let va := s.cur.iaddr
     let good := (va.extractLsb' 0 56).signExtend 64 = va
     ((∀ i, decode w = .ok i → i.wf = false) → s.cur.handles → TrapsWith (.nonInstructionWord w) s 0x01 0) ∧
     (∀ i, decode w = .ok i → i.wf = true → exec (.nonInstructionWord w) s = .next s) ∧
     (s.LandsFor (s.agentOf s.sel) .fetch va 4 s' p → exec .instructionFetchFault s = .next s) ∧
     (s.cur.atHandler = false → s.cur.handles → ¬ good → ∃ t, exec .instructionFetchFault s = .next t ∧
       Enters s t 0x06 (.ofNat 64 (0x06 + 0x20000)) va 0 (s.cur.status s.cur.partly false) (s.cur.pc &&& 0xFFFFFFFFFFFFFFFC) va) ∧
     (s.cur.atHandler = false → s.cur.handles → good → va.toNat % 4 ≠ 0 → ∃ t, exec .instructionFetchFault s = .next t ∧
       Enters s t 0x05 (.ofNat 64 (0x05 + 0x20000)) va 0 (s.cur.status s.cur.partly false) (s.cur.pc &&& 0xFFFFFFFFFFFFFFFC) va) ∧
     (s.cur.atHandler = false → good → va.toNat % 4 = 0 → s.translate (s.agentOf s.sel) .fetch va = .error f → (f.cause = 0x07 ∨ f.cause = 0x06 ∧ f.sub ≠ 0) →
       ∃ t, exec .instructionFetchFault s = .next t ∧ t.sel = s.sel ∧ t.cur.state = .trapped ∧ t.cur.pc = s.cur.pc ∧ t.cur.g = s.cur.g ∧ t.cur.vec = s.cur.vec ∧
         t.cur.tr.flt = .ofNat 64 (f.cause + 0x20000 + 0x40000) ∧ t.cur.tr.fva = va ∧ t.cur.tr.fpc = va ∧ (∀ k, k ≠ s.sel → t.drover k = s.drover k)) ∧
     (s.cur.atHandler = true → ¬ good → s.Ends s.cur.flock fl T → ∃ t, exec .instructionFetchFault s = .next t ∧ FlockGone s t s.cur.flock fl T 0x06))

/-- R201 to R205, R207, R208: the loads, in formats of 8 bits and more: VLD at g_b + i × w ÷ 8, VLDS at g_b + i × g_c, VLDG with 2 to 8
fields at g_b + i × n × w ÷ 8, VLDX at g_b plus element i of its group of 32-bit offsets; `.ff` makes no difference where no element
fails. R201, R204, R205, R207: the stores at the same addresses. R200: a unit load or store of 4-bit elements reads and writes the bytes
that hold them: element i is the low or high half of byte i ÷ 2. A load reads a byte once for a pair of active elements; a store writes a
pair in one byte and one element alone by replacing its half. -/
def Obligations.VectorLoadsAndStoresMoveTheirElements : Prop :=
  (∀ (s : State) (a b c : Reg) (m : Bool), let d := s.cur; let w := d.vw; let bytes := w / 8
     let rows := if w ≥ 32 then 1 else 32 / w
     let index := fun (i : Nat) => toSigned 32 (d.vec.elem (d.phys c) rows 32 i)
     let pf := d.sms.toNat / 512 % 16
     d.vfmt.legal = true → w ≠ 4 →
     LoadsRows (.vld a b m) s a 1 [] m (fun i => s.address b (i * bytes)) ∧
     LoadsRows (.vldFf a b m) s a 1 [] m (fun i => s.address b (i * bytes)) ∧
     LoadsRows (.vlds a b c m) s a 1 [] m (fun i => s.address b (i * (d.getG c).toInt)) ∧
     LoadsRows (.vldsFf a b c m) s a 1 [] m (fun i => s.address b (i * (d.getG c).toInt)) ∧
     (2 ≤ c.toNat → c.toNat ≤ 8 → LoadsRows (.vldg a b c m) s a c.toNat [] m (fun i => s.address b (i * (c.toNat * bytes)))) ∧
     (c.toNat < 2 ∨ 8 < c.toNat → d.handles → TrapsWith (.vldg a b c m) s 0x01 0) ∧
     (d.phys a ∉ group (d.phys c) rows →
       LoadsRows (.vldxFf a b c m) s a 1 (group (d.phys c) rows) m (fun i => s.address b (index i)) ∧
       (d.resumesPart = false → pf ≠ 0 → (m = true → pf ≠ vtyPs d.vec.vty) →
         LoadsRows (.vldx a b c m) s a 1 (group (d.phys c) rows) m (fun i => s.address b (index i))))) ∧
  (∀ (s : State) (a b c : Reg) (m : Bool), let d := s.cur; let w := d.vw; let bytes := w / 8
     let rows := if w ≥ 32 then 1 else 32 / w
     let index := fun (i : Nat) => toSigned 32 (d.vec.elem (d.phys c) rows 32 i)
     d.vfmt.legal = true → w ≠ 4 →
     StoresRows (.vst a b m) s a 1 [] m (fun i => s.address b (i * bytes)) ∧
     StoresRows (.vsts a b c m) s a 1 [] m (fun i => s.address b (i * (d.getG c).toInt)) ∧
     (2 ≤ c.toNat → c.toNat ≤ 8 → StoresRows (.vstg a b c m) s a c.toNat [] m (fun i => s.address b (i * (c.toNat * bytes)))) ∧
     (c.toNat < 2 ∨ 8 < c.toNat → d.handles → TrapsWith (.vstg a b c m) s 0x01 0) ∧
     StoresRows (.vstx a b c m) s a 1 (group (d.phys c) rows) m (fun i => s.address b (index i))) ∧
  (∀ (s s' : State) (a b : Reg) (m : Bool), let d := s.cur; let base := d.phys a
     d.vw = 4 → d.VectorReady → base < d.rowsAlloc →
     let at_ := fun (i : Nat) => d.getG b + BitVec.ofNat 64 (i / 2)
     (∀ (byte : Nat → Nat), let e0 := d.startAt [base]
       let firsts := (s.todo m e0).filter (fun i => !(decide (i % 2 = 1) && (s.todo m e0).contains (i - 1)))
       s.ReadAll 1 (firsts.map (fun i => (at_ i, byte (i / 2)))) s' →
       ∃ t, exec (.vld a b m) s = .next t ∧ VecDone s' t ∧ t.cur.fef = d.fef ∧ t.cur.vec.preds = d.vec.preds ∧
         (∀ i, rowElem (t.cur.vec.row base) 4 i =
           if e0 ≤ i ∧ i < d.vec.vl then
             if s.active m i then byte (i / 2) / 16 ^ (i % 2) % 16 else if vtyMp d.vec.vty then 0 else rowElem (d.vec.row base) 4 i
           else rowElem (d.vec.row base) 4 i) ∧
         ∀ r, r ≠ base → t.cur.vec.row r = d.vec.row r) ∧
     (∀ (i : Nat) (p : Place), d.vec.vl = i + 1 → d.startAt [] = i → s.active m i = true → s.Lands .write (at_ i) 1 s' p →
       let old := s'.number p.key p.pa 1
       let v := rowElem (d.vec.row base) 4 i
       ∃ t, exec (.vst a b m) s = .next t ∧
         VecDone (s'.putBytes p.key p.pa (leBytes 1 (if i % 2 = 1 then old % 16 + 16 * v else old / 16 * 16 + v))) t ∧ t.cur.vec = d.vec) ∧
     (d.startAt [] = 0 → d.vec.vl % 2 = 0 → (∀ i < d.vec.vl, s.active m i = true) →
       s.WriteAll 1 ((List.range (d.vec.vl / 2)).map (fun k => (d.getG b + BitVec.ofNat 64 k,
         rowElem (d.vec.row base) 4 (2 * k) + 16 * rowElem (d.vec.row base) 4 (2 * k + 1)))) s' →
       ∃ t, exec (.vst a b m) s = .next t ∧ VecDone s' t ∧ t.cur.vec = d.vec))

/-- R203: where an element k > 0 of an `.ff` load is the first to fail, not at a watchpoint, VL becomes k, the elements below it are
loaded, and the instruction completes without a trap. -/
def Obligations.FirstFaultLoadsShortenVl : Prop :=
  ∀ (s u v : State) (a b c : Reg) (m : Bool) (k : Nat) (val : Nat → Nat) (f : FaultInfo),
    let d := s.cur; let w := d.vw; let base := d.phys a; let rows := if w ≥ 32 then 1 else 32 / w
    let index := fun (i : Nat) => toSigned 32 (d.vec.elem (d.phys c) rows 32 i)
    d.vfmt.legal = true → w ≠ 4 → d.VectorReady → d.resumesPart = false → base < d.rowsAlloc → 0 < k → k < d.vec.vl → s.active m k = true →
    let shortens := fun (i : Instr) (addr : Nat → Word) =>
      s.ReadAll (w / 8) (((List.range k).filter (s.active m)).map (fun i => (addr i, val i))) u →
      u.loadAt (s.agentOf s.sel) (addr k) (w / 8) = .fail v f → f.cause ≠ 0x0F →
      ∃ t, exec i s = .next t ∧ t = v.setCur t.cur ∧ t.cur.pc = d.nextPc ∧ t.cur.vec.vl = k ∧ (∀ r, t.cur.getG r = d.getG r) ∧
        t.cur.vec.pixOf base = ⟨true, k⟩ ∧
        (∀ i, rowElem (t.cur.vec.row base) w i =
          if i < k then if s.active m i then val i else if vtyMp d.vec.vty then 0 else rowElem (d.vec.row base) w i
          else rowElem (d.vec.row base) w i) ∧
        ∀ r, r ≠ base → t.cur.vec.row r = d.vec.row r
    shortens (.vldFf a b m) (fun i => s.address b (i * (w / 8))) ∧
    shortens (.vldsFf a b c m) (fun i => s.address b (i * (d.getG c).toInt)) ∧
    (base ∉ group (d.phys c) rows → (∀ r ∈ group (d.phys c) rows, r < d.rowsAlloc) →
      shortens (.vldxFf a b c m) (fun i => s.address b (index i)))

/-- R67 to R69, R209: VLDB, and VLDB.FF where no block fails, read the described block of each span, 64 bytes each: a payload element
converts into vd with pad bit 1, the rest of the span reads 0 with pad bit 0; the block's scale goes to entry j of k[KS]. R210: VSTB
stores each span that has an active payload element as one block of 64 bytes: the format code, the scale entry j of k[KS] and the payload,
each element divided by the scale exactly and rounded once, or converted; inactive ones and those at or above VL are 0. -/
def Obligations.BlocksAreUnpackedAndPacked : Prop :=
  (∀ (s s' : State) (a b c : Reg) (m : Bool) (block : Nat → Nat), let d := s.cur; let base := d.phys a; let mp := vtyMp d.vec.vty
     let S := 2 ^ vtyBl d.vec.vty; let ks := vtyKs d.vec.vty; let e0 := d.startAt [base]
     let B := fun (j : Nat) => decodeBlock d.vfmt S (leBytes 64 (block j))
     let spans := (List.range ((d.vec.vl + S - 1) / S)).filter (fun j => decide (e0 / S ≤ j) && decide (e0 < d.vec.vl))
     let pay := fun (i : Nat) => decide (i % S < (B (i / S)).n)
     d.VectorReady → base < d.rowsAlloc → 1 ≤ c.toNat → c.toNat ≤ 15 → 5 ≤ vtyBl d.vec.vty → vtyBl d.vec.vty ≤ 7 →
     d.vfmt ∈ [Fmt.h8, .f16, .bf16, .f32, .i16, .i32] → d.fee = 0 →
     (∀ j ∈ spans, block j < 2 ^ 512) →
     s.ReadAll 64 (spans.map (fun j => (d.getG b + BitVec.ofNat 64 (64 * j), block j))) s' →
     ∀ i ∈ [Instr.vldb a b c m, .vldbFf a b c m], (m = true → vtyPs d.vec.vty ≠ c.toNat) →
     ∃ t, exec i s = .next t ∧ Completes s' t { d with vec := t.cur.vec, fef := t.cur.fef, fei := t.cur.fei, occupied := t.cur.occupied } d.getG d.nextPc ∧
       (∀ i, rowElem (t.cur.vec.row base) d.vw i =
         if e0 ≤ i ∧ i < d.vec.vl then
           if s.active m i then (if pay i then ((B (i / S)).val (i % S)).1 % 2 ^ d.vw else 0)
           else if mp then 0 else rowElem (d.vec.row base) d.vw i
         else rowElem (d.vec.row base) d.vw i) ∧
       (∀ i, t.cur.vec.pbit c.toNat i =
         if e0 ≤ i ∧ i < d.vec.vl then
           if s.active m i then pay i else if mp then false else d.vec.pbit c.toNat i
         else d.vec.pbit c.toNat i) ∧
       (∀ j < 512, t.cur.vec.kent ks j = if j ∈ spans then (B j).scale % 256 else d.vec.kent ks j) ∧
       (∀ r, r ≠ base → t.cur.vec.row r = d.vec.row r) ∧ (∀ q, q ≠ c.toNat → t.cur.vec.pred q = d.vec.pred q) ∧
       (∀ k, k ≠ ks → t.cur.vec.scale k = d.vec.scale k) ∧
       ∀ k, t.cur.fef.getLsbD k = true ↔ d.fef.getLsbD k = true ∨ ∃ i, e0 ≤ i ∧ i < d.vec.vl ∧
         ((i % S = 0 ∧ s.active m i = true ∧ (B (i / S)).fe = true ∧ k = 5) ∨
           (s.active m i = true ∧ pay i = true ∧ ((B (i / S)).val (i % S)).2.getLsbD k = true))) ∧
  (∀ (s s' : State) (a b : Reg) (c : BitVec 5) (m : Bool), let d := s.cur; let base := d.phys a; let v := d.vec.vty
     let S := 2 ^ vtyBl v; let f := Fmt.ofCode c.toNat; let n := blockCount f
     let E := fun (j : Nat) => d.vec.kent (vtyKs v) j
     let on := fun (i : Nat) => decide (i < d.vec.vl) && s.active m i
     let code := fun (j t : Nat) => let x := rowElem (d.vec.row base) d.vw (j * S + t)
       if on (j * S + t) && E j != 255 then
         (if d.vfmt.isFloat then
           let o := match floatValue d.vfmt x with
             | .fin neg k e => Value.fin neg k (e + 127 - (E j : Int))
             | y => y
           if f.isInt then valueToInt f (vtyRm v) o else roundValue f (vtyRm v) (convertNaN d.vfmt f x) o
         else convertElem d.vfmt f (vtyRm v) (vtySat v) x).1
       else 0
     let spans := (List.range ((d.vec.vl + S - 1) / S)).filter (fun j => decide (d.startAt [] / S ≤ j) && (List.range n).any (fun t => on (j * S + t)))
     d.VectorReady → base < d.rowsAlloc → 5 ≤ vtyBl v → vtyBl v ≤ 7 → d.vfmt ∈ [Fmt.h8, .f16, .bf16, .f32, .i16, .i32] →
     f ∈ [Fmt.i4, .i8, .n8, .h8, .g8, .f16, .bf16] → d.rounds → (d.vec.vl = 0 ∨ (d.vec.vl - 1) / S < 512) →
     (vtyKa v = true → d.vfmt.isInt = false) → d.fee = 0 →
     s.WriteAll 64 (spans.map (fun j => (d.getG b + BitVec.ofNat 64 (64 * j),
       f.code + 256 * E j + 65536 * packElems f.width ((List.range n).map (code j))))) s' →
     ∃ t, exec (.vstb a b c m) s = .next t ∧ VecDone s' t ∧ t.cur.vec = d.vec)

/-- R207, R211: a VAMO gives each active element of vd the old value at g_b plus its offset and stores the member's new value there, each
as one access, in rising order. R206, R212: VPFD changes no state. KLD and KST move the ⌈VL ÷ 2^BL⌉ entries of a scale register from and
to bytes at g_b + j × g_c, all checked before one moves; KMOV copies a scale register, KSET fills one with a value up to 255. Names from
64 on trap ILLOP, 4-bit elements RESCOMB (R200; that it holds of KMOV and KSET too is DEDUCED, log 70). -/
def Obligations.VectorAtomicsAndScaleRegisters : Prop :=
  (∀ (s s' : State) (a b c : Reg) (m : Bool) (old : Nat → Nat), let d := s.cur; let f := d.vfmt; let w := d.vw; let base := d.phys a
     let rows := if w ≥ 32 then 1 else 32 / w; let e0 := d.startAt [base]; let rm := vtyRm d.vec.vty
     let at_ := fun (i : Nat) => s.address b (toSigned 32 (d.vec.elem (d.phys c) rows 32 i))
     let x := fun (i : Nat) => s.source a i
     let k := fun (y : Nat) => if f.signed then toSigned w y else ((y % 2 ^ w : Nat) : Int)
     d.VectorReady → (∀ r ∈ base :: group (d.phys c) rows, r < d.rowsAlloc) → base ∉ group (d.phys c) rows →
     let does := fun (i : Instr) (new : Nat → Nat → Nat) (fl : Nat → Nat → FlagSet) =>
       (∀ j ∈ s.todo m e0, d.fee &&& fl j (old j) = 0) →
       s.AmoAll (w / 8) new ((s.todo m e0).map (fun i => (i, at_ i, old i))) s' →
       ∃ t, exec i s = .next t ∧ VecDone s' t ∧
         RowsWritten s t base 1 w e0 (fun j z => if s.active m j then old j else if vtyMp d.vec.vty then 0 else z) ∧
         Raised d t.cur e0 d.vec.vl (fun j => if s.active m j then fl j (old j) else 0)
     let quiet := fun (_ _ : Nat) => (0 : FlagSet)
     (f ∈ [Fmt.i32, .n32, .i64, .n64] →
       does (.vamoadd a b c m) (fun i y => (y + x i) % 2 ^ w) quiet ∧ does (.vamomin a b c m) (fun i y => if k (x i) < k y then x i else y) quiet ∧
       does (.vamomax a b c m) (fun i y => if k (x i) > k y then x i else y) quiet) ∧
     (f ∈ [Fmt.i32, .n32, .i64, .n64, .f32, .f64] → does (.vamoswp a b c m) (fun i _ => x i) quiet) ∧
     (f ∈ [Fmt.f32, .f64] → d.rounds → does (.vamofadd a b c m) (fun i y => (fAdd f rm (s.operand y) (s.operand (x i))).1)
       (fun i y => (fAdd f rm (s.operand y) (s.operand (x i))).2))) ∧
  (∀ (s u s' : State) (a b c : Reg) (val : Nat → Nat) (ps : List Place), let d := s.cur
     let ns := (d.vec.vl + 2 ^ vtyBl d.vec.vty - 1) / 2 ^ vtyBl d.vec.vty
     let at_ := fun (j : Nat) => s.address b (j * (d.getG c).toInt)
     d.VectorReady →
     Does (.vpfd b c) s s.cur ∧
     (d.vw ≠ 4 → a.toNat < 64 → ns ≤ 512 →
       (s.LandAll .read 1 ((List.range ns).map at_) u ps → u.ReadAll 1 ((List.range ns).map (fun j => (at_ j, val j))) s' →
         ∃ t, exec (.kld a b c) s = .next t ∧ Completes s' t { d with vec := t.cur.vec } d.getG d.nextPc ∧
           t.cur.vec = { d.vec with scales := t.cur.vec.scales, hwmK := if ns = 0 then d.vec.hwmK else Max.max d.vec.hwmK (a.toNat + 1) } ∧
           (∀ j < 512, t.cur.vec.kent a.toNat j = if j < ns then val j else d.vec.kent a.toNat j) ∧
           ∀ k, k ≠ a.toNat → t.cur.vec.scale k = d.vec.scale k) ∧
       (s.LandAll .write 1 ((List.range ns).map at_) u ps →
         u.StoreAll 1 [(List.range ns).map (fun j => (at_ j, d.vec.kent a.toNat j))] s' →
         ∃ t, exec (.kst a b c) s = .next t ∧ Completes s' t d d.getG d.nextPc)) ∧
     (d.vw ≠ 4 → a.toNat < 64 → b.toNat < 64 →
       Does (.kmov a b) s { d with vec := (d.vec.setScale a.toNat (d.vec.scale b.toNat)).markK a.toNat }) ∧
     (d.vw ≠ 4 → a.toNat < 64 → (d.getG b).toNat ≤ 255 →
       ∃ t, exec (.kset a b) s = .next t ∧ Completes s t { d with vec := t.cur.vec } d.getG d.nextPc ∧
         (∀ j < 512, t.cur.vec.kent a.toNat j = (d.getG b).toNat) ∧ ∀ k, k ≠ a.toNat → t.cur.vec.scale k = d.vec.scale k) ∧
     (a.toNat < 64 → 255 < (d.getG b).toNat → d.handles → TrapsWith (.kset a b) s 0x02 0) ∧
     (d.vw = 4 → a.toNat < 64 → b.toNat < 64 → d.handles → TrapsWith (.kset a b) s 0x02 0 ∧ TrapsWith (.kmov a b) s 0x02 0 ∧
       TrapsWith (.kld a b c) s 0x02 0 ∧ TrapsWith (.kst a b c) s 0x02 0) ∧
     (64 ≤ a.toNat → d.handles → TrapsWith (.kset a b) s 0x01 0 ∧ TrapsWith (.kmov a b) s 0x01 0 ∧ TrapsWith (.kld a b c) s 0x01 0 ∧
       TrapsWith (.kst a b c) s 0x01 0))

/-- R50, R169 to R173: SETVL traps VNCFG while VTY.FMT is ILL and RESCOMB while it is reserved; else, at a grant point that the groups at
hand meet, it takes them, writes VL := min(g_b, VLMAX) of the new grant and ga the same, the first one clearing rows, predicates, scales
and HWM; with g_b = 0 it keeps the grant and VL is 0. SETVTY traps ILLOP on a bit above 28; else it writes VTY, clips VL under a grant and
a legal format, and gives VLMAX or 0. SETTL gives and writes TL, at most 1,024; GETG gives GRT. -/
def Obligations.LengthsAndTypesAreSet : Prop :=
  ∀ (s : State) (a b : Reg), let d := s.cur; let n := (d.getG b).toNat; let f := d.vfmt
    let first := fun (v : Vec) => if d.configured then v else
      { v with rows := Vector.replicate 256 0, preds := Vector.replicate 16 0, scales := Vector.replicate 64 0
               hwmRows := 0, hwmLanes := 0, hwmK := 0, hwmAcc := 0 }
    let sets := fun (e : Drover) (v : Vec) (L : Nat) =>
      ∃ t, exec (.setvl a b) s = .next t ∧
        Completes s t { e with
          configured := true, vec := { first v with vl := L }, strips := t.cur.strips, strp := d.iaddr, stro := t.cur.stro, inStrip := true
          lanes := t.cur.lanes }
          (s.regsWith a (.ofNat 64 L)) d.nextPc
    d.unheld →
    (f = .ill → d.handles → TrapsWith (.setvl a b) s 0x03 0) ∧
    (f ≠ .ill → f.legal = false → d.handles → TrapsWith (.setvl a b) s 0x02 0) ∧
    (f.legal = true → s.untraced → n = 0 → d.lgm ≠ 0 → sets d d.vec 0) ∧
    (f.legal = true → s.untraced → n ≠ 0 → s.AtHand →
      let m := BitVec.ofNat 16 s.grantable
      let moved := d.granted = true ∧ m ≠ d.parked
      let kept := if d.spilled then d.vec.rect else d.vec
      sets { d with
          lgm := m, parked := m, request := none, granted := true, gc := d.gc || decide moved, spilled := false
          dead := d.dead || d.spilled || decide moved }
        (if moved then kept.migrate (popcount 16 d.parked.toNat) (popcount 16 m.toNat) else kept)
        (Nat.min n (popcount 16 m.toNat * 64 * (128 / d.vw)))) ∧
    (n ≥ 2 ^ 29 → d.handles → TrapsWith (.setvty a b) s 0x01 0) ∧
    (n < 2 ^ 29 →
      let v := d.getG b
      let g := vtyFmt v
      let most := d.groups * 64 * (128 / g.width)
      ∃ t, exec (.setvty a b) s = .next t ∧
        Completes s t { d with
          typed := d.typed || g.legal
          vec := { d.vec with vty := v, vl := if g.legal = true ∧ d.lgm ≠ 0 then Nat.min d.vec.vl most else d.vec.vl } }
          (s.regsWith a (if g.legal = true then .ofNat 64 most else 0)) d.nextPc) ∧
    (∃ t, exec (.settl a b) s = .next t ∧
      Completes s t { d with vec := { d.vec with tl := Nat.min n 1024 } } (s.regsWith a (.ofNat 64 (Nat.min n 1024))) d.nextPc) ∧
    Gives (.getg a) s a
      (.ofNat 64 (d.groups + 2 ^ 8 * d.gc.toNat + 2 ^ 16 * d.lgm.toNat + 2 ^ 32 * (d.groups * 256) + 2 ^ 48 * (d.groups * 512)))

/-- R214, R218 to R220, R225: TALLOC traps RESCOMB on operands outside their limits; else it takes the lowest handle FREE and the lowest
base free in every named core, in each of them zeroes the region, clears the range record and leaves the tile EMPTY, or READY by TALLOC.z,
and gives the handle; without a handle or room it gives −1. TFREE traps TILEST on a tile it may not name, waits for a pending transfer
and for another drover's TLD or TST under way on it, and else frees the entry in every named core. TSTAT gives a word of the entry or the mask of a tile row. R157, R159, R215, R221: TLD moves
tile elements (c + k, i), or (i, c + k) by column, of a READY tile into row vd + k, TST the rows' active elements, and 0 for an inactive
one under VTY.MP, into the tile; for k below TL and i below VL, and nothing else changes. A tile that may not be named, is in error, or is
EMPTY without a pending transfer traps TILEST; one that is FILLING or DRAINING is waited for. -/
def Obligations.TilesAreAllocatedAndAccessed : Prop :=
  (∀ (s : State) (a b c : Reg), let d := s.cur; let here := coreOf s.sel
     let gb := (d.getG b).toNat; let gc := (d.getG c).toNat; let rb := gc % 2 ^ 17; let sh := (d.getG c).getLsbD 32
     (∀ (f : Flock), s.flock d.flock = some f →
       let legal := 1 ≤ gb ∧ gb ≤ 4096 ∧ rb % 64 = 0 ∧ 64 ≤ rb ∧ rb ≤ 65536 ∧ gb * rb ≤ 4194304 ∧ gc / 2 ^ 17 % 2 ^ 15 = 0 ∧ gc < 2 ^ 33 ∧
         (sh = true → f.tsh = true)
       let cores := if sh then f.cores else [here]
       let size := regionSize gb rb
       let lo := fun k => if f.tsh then assocGetD f.tmemBase 0 k else d.tileLo
       let len := if f.tsh then f.tmemLen else d.tileLen
       let free := fun (h : Nat) => h < 256 ∧ ∀ k ∈ cores, assocGet (s.core k).tiles h = none
       let fits := fun (base : Nat) => base % 4096 = 0 ∧ base < 2 ^ 22 ∧ ∀ k ∈ cores, (s.core k).roomAt (lo k) (lo k + len) base size
       (¬ legal → d.handles → TrapsWith (.talloc a b c) s 0x02 0 ∧ TrapsWith (.tallocZ a b c) s 0x02 0) ∧
       (legal → (∀ k ∈ cores, ∀ e ∈ (s.core k).tiles, e.2.flock = d.flock) →
         ((∀ h, ¬ free h) ∨ (∀ base, ¬ fits base) → Gives (.talloc a b c) s a (-1) ∧ Gives (.tallocZ a b c) s a (-1)) ∧
         ∀ h base, free h → (∀ h' < h, ¬ free h') → fits base → (∀ b' < base, ¬ fits b') →
           ∀ z : Bool, ∃ t, exec (if z then .tallocZ a b c else .talloc a b c) s = .next t ∧
             Completes { s with cores := t.cores } t d (s.regsWith a (.ofNat 64 h)) d.nextPc ∧
             (∀ k, k ∉ cores → t.core k = s.core k) ∧
             ∀ k ∈ cores, (t.core k).untiled = (s.core k).untiled ∧ (t.core k).transfers = (s.core k).transfers ∧
               (∀ g, assocGet (t.core k).tiles g = if g = h then
                 some { st := if z then .ready else .empty, err := false, sh := sh, own := slotOf s.sel, flock := d.flock, rows := gb, rb := rb, base := base
                        pend := none, range := ⟨[0, 0, 0, 0], [0, 0, 0, 0], 0, 0, 0, 0⟩, prev := .empty, saved := [] }
                 else assocGet (s.core k).tiles g) ∧
               (∀ x, Memory.get (t.core k).tmem x = if base ≤ x ∧ x < base + size then 0 else Memory.get (s.core k).tmem x))) ∧
     (∀ (x : Tile), s.mayName gb x → ∀ (f : Flock), s.flock d.flock = some f →
       let cores := if x.sh then f.cores else [here]
       let pending := ∃ k ∈ cores, ∃ y, assocGet (s.core k).tiles gb = some y ∧ (y.pend ≠ none ∨
         ∃ j ∈ keysOf k, j ≠ s.sel ∧ (s.drover j).resident = true ∧ (s.drover j).tileUse = some gb)
       (pending → exec (.tfree b) s = .next (s.setCur { d with stall := some 3 })) ∧
       (¬ pending → (∀ k ∈ cores, rising (s.core k).tiles = true) → ∃ t, exec (.tfree b) s = .next t ∧
         Completes { s with cores := t.cores } t d d.getG d.nextPc ∧ (∀ k, k ∉ cores → t.core k = s.core k) ∧
         ∀ k ∈ cores, t.core k = { s.core k with tiles := (t.core k).tiles } ∧
           ∀ g, assocGet (t.core k).tiles g = if g = gb then none else assocGet (s.core k).tiles g)) ∧
     ((∀ x, ¬ s.mayName gb x) → d.handles → TrapsWith (.tfree b) s 0x0D 0) ∧
     (gc > 4 → d.handles → TrapsWith (.tstat a b c) s 0x02 0) ∧
     (gc ≤ 4 → gb > 255 → d.handles → TrapsWith (.tstat a b c) s 0x0D 0) ∧
     (gc ≤ 4 → gb ≤ 255 → s.tileAt gb = none → Gives (.tstat a b c) s a 0) ∧
     (gc ≤ 4 → gb ≤ 255 → ∀ x, s.tileAt gb = some x →
       let g := x.range
       let st : Nat := match x.st with
         | .empty => 1
         | .filling => 2
         | .ready => 3
         | .draining => 4
         | .away => 5
       Gives (.tstat a b c) s a (.ofNat 64 (
         if gc = 0 then
           x.err.toNat * 2 ^ 63 + st * 2 ^ 60 + x.sh.toNat * 2 ^ 59 + x.own * 2 ^ 56 + x.rows * 2 ^ 43 + x.rb * 2 ^ 26 + x.base / 4096
         else if gc = 1 then (match x.pend with
           | some (_, ch, id) => 2 ^ 63 + ch * 2 ^ 48 + id % 2 ^ 48
           | none => 0)
         else if gc = 2 then g.rc2 * 2 ^ 48 + g.rc1 * 2 ^ 32 + g.hi.getD 0 0 * 2 ^ 16 + g.lo.getD 0 0
         else if gc = 3 then g.hi.getD 2 0 * 2 ^ 48 + g.lo.getD 2 0 * 2 ^ 32 + g.hi.getD 1 0 * 2 ^ 16 + g.lo.getD 1 0
         else g.row0 * 2 ^ 48 + g.nr * 2 ^ 32 + g.hi.getD 3 0 * 2 ^ 16 + g.lo.getD 3 0))) ∧
     (1 ≤ a.toNat → a.toNat ≤ 15 → gb ≤ 255 → d.ecc = [] → d.vec.vl ≤ 32768 → (∀ x, s.tileAt gb = some x → gc < x.rows) →
       ∃ t, exec (.tstatMask a b c) s = .next t ∧ VecDone s t (s.predDone a) ∧ t.cur.fef = d.fef ∧ t.cur.fei = d.fei ∧
         PredWritten s t a.toNat 0 (fun i _ => match s.tileAt gb with
           | some x => x.range.inMask gc i
           | none => false)) ∧
     (a = 0 → d.handles → TrapsWith (.tstatMask a b c) s 0x01 0)) ∧
  (∀ (s : State) (a b c : Reg) (m : Bool) (x : Tile), let d := s.cur; let here := s.core (coreOf s.sel)
     let h := (d.getG b).toNat; let n := (d.getG c).toNat; let w := d.vw; let tl := d.vec.tl; let vl := d.vec.vl; let base := d.phys a
     d.VectorReady → d.resumesPart = false → d.vfmt.legal = true → (∀ k < tl, base + k < d.rowsAlloc) → s.unbooked →
     s.mayName h x → x.err = false →
     ∀ col : Bool,
       let ld := if col then Instr.tldC a b c m else .tldR a b c m
       let st := if col then Instr.tstC a b c m else .tstR a b c m
       let bad := if col then vl > x.rows ∨ (n + tl) * w > 8 * x.rb else n + tl > x.rows ∨ vl * w > 8 * x.rb
       let row := fun (k i : Nat) => if col then i else n + k
       let column := fun (k i : Nat) => if col then n + k else i
       (bad → d.handles → TrapsWith ld s 0x02 0 ∧ TrapsWith st s 0x02 0) ∧
       (¬ bad → x.st = .empty → x.pend = none → d.handles → TrapsWith ld s 0x0D 0 ∧ TrapsWith st s 0x0D 0) ∧
       (¬ bad → x.st = .filling ∨ x.st = .draining →
         exec ld s = .next (s.setCur { d with stall := some 3 }) ∧ exec st s = .next (s.setCur { d with stall := some 3 })) ∧
       (¬ bad → x.st = .ready → here.terr = [] →
         (∃ t, exec ld s = .next t ∧ VecDone s t ∧ t.cur.fef = d.fef ∧ t.cur.fei = d.fei ∧ t.cur.vec.preds = d.vec.preds ∧
           (∀ k < tl, ∀ i, rowElem (t.cur.vec.row (base + k)) w i =
             if i < vl then if s.active m i then here.cell x w (row k i) (column k i) else if vtyMp d.vec.vty then 0 else rowElem (d.vec.row (base + k)) w i
             else rowElem (d.vec.row (base + k)) w i) ∧
           (∀ r, r < base ∨ base + tl ≤ r → t.cur.vec.row r = d.vec.row r) ∧
           ∀ r, t.cur.vec.pixOf r = if base ≤ r ∧ r < base + tl then ⟨true, vl⟩ else d.vec.pixOf r) ∧
         (Memory.wf here.tmem = true → x.rb % 64 = 0 →
           ∃ t, exec st s = .next t ∧ VecDone { s with cores := t.cores } t ∧ t.cur.fef = d.fef ∧ t.cur.fei = d.fei ∧ t.cur.vec = d.vec ∧
           (let k' := t.core (coreOf s.sel)
            (∀ j, j ≠ coreOf s.sel → t.core j = s.core j) ∧ k' = { here with tmem := k'.tmem } ∧
            (∀ k < tl, ∀ i < vl, (s.active m i = true ∨ vtyMp d.vec.vty = true) →
              k'.cell x w (row k i) (column k i) = if s.active m i then rowElem (d.vec.row (base + k)) w i else 0) ∧
            (∀ r q, q * w < 8 * x.rb → (∀ k < tl, ∀ i < vl, (s.active m i = true ∨ vtyMp d.vec.vty = true) → ¬(r = row k i ∧ q = column k i)) →
              k'.cell x w r q = here.cell x w r q) ∧
            ∀ y, y < x.base ∨ x.base + x.rows * x.rb ≤ y → Memory.get k'.tmem y = Memory.get here.tmem y))))

/-- R214, R215, R223, R226 to R229: a copy of a tile it may name, not in error and in a state the copy enters, with a descriptor in order,
takes the next id of its channel, gives it with the channel, and leaves the tile (by CPYMC, the tile of every core of the flock) FILLING
or DRAINING under a transfer that runs in the background. CWAIT on an id at or above the channel's next traps RESCOMB; it completes where
the watermark has reached the id and else waits. R230 to R232: SBIND of an unbound row to a descriptor in order takes a free stream engine
and begins at position 0; SUNBIND releases it and the row reads as zero and as never written; SSTAT gives END, DIR and LEFT, or the mask
of the last pop or push. A bound row at SBIND, an unbound one at the others, and 4-bit elements at SBIND and SUNBIND (DEDUCED, log 70) trap
RESCOMB. -/
def Obligations.CopiesAndStreamsStart : Prop :=
  (∀ (s s' : State) (a b c : Reg) (p : Place) (x : Tile) (q : Desc), let d := s.cur; let g := d.getG c
     let h := bits g 0 8; let ch := bits g 8 2; let row0 := bits g 16 12; let id := d.cnx.toList.getD ch 1
     let nrows := Nat.min d.vec.tl (q.c.getD 1 1 * q.c.getD 2 1 * q.c.getD 3 1)
     let inProgress := id - 1 - d.cwm.toList.getD ch 0 - (d.doneIds.filter (fun e => e.1 == ch)).length
     let starts := fun (i : Instr) (kind : CopyKind) (cores : List Nat) =>
       inProgress < 32 → s.mayName h x → x.err = false → x.st = .ready ∨ (kind ≠ .cpyout ∧ x.st = .empty) → g.toNat < 2 ^ 28 → bits g 10 6 = 0 →
       s.Lands .read (d.getG b) 64 s' p → Describes (s'.number p.key p.pa 64) (kind == .cpyg) q → row0 + nrows ≤ x.rows →
       q.c.getD 0 1 * q.esz ≤ x.rb → s.tren d.flock 3 = false →
       ∃ t, exec i s = .next t ∧
         Completes { s' with cores := t.cores } t { d with cnx := t.cur.cnx } (s.regsWith a (.ofNat 64 (id + ch * 2 ^ 48))) d.nextPc ∧
         (∀ n < 4, t.cur.cnx.toList.getD n 1 = if n = ch then id + 1 else d.cnx.toList.getD n 1) ∧
         (∀ k ∈ cores, ∀ y, assocGet (s.core k).tiles h = some y → assocGet (t.core k).tiles h =
           some { y with st := if kind = .cpyout then .draining else .filling, pend := some (s.sel, ch, id) }) ∧
         (∀ k, ∀ n, n ≠ h ∨ k ∉ cores → assocGet (t.core k).tiles n = assocGet (s.core k).tiles n) ∧
         (∀ k, (t.core k).tmem = (s.core k).tmem) ∧
         (t.core (coreOf s.sel)).transfers = (s.core (coreOf s.sel)).transfers ++
           [{ drv := s.sel, ch := ch, id := id, kind := kind, tile := h, row0 := row0, nrows := nrows, desc := q, ctx := d.ctx, sup := d.tr.sup
              flock := d.flock, left := cores, pos := 0, tag := none }]
     let here := [coreOf s.sel]
     let gw := d.getG b
     starts (.cpyin a b c) .cpyin here ∧ starts (.cpyg a b c) .cpyg here ∧ starts (.cpyout a b c) .cpyout here ∧
     (∀ (f : Flock), s.flock d.flock = some f → coreOf s.sel ∈ f.cores → x.sh = true →
       (∀ k ∈ f.cores, ∀ y, assocGet (s.core k).tiles h = some y → (y.st = .empty ∨ y.st = .ready) ∧ y.pend = none ∧
         ∀ j ∈ keysOf k, j ≠ s.sel → (s.drover j).tileUse ≠ some h) →
       starts (.cpymc a b c) .cpymc f.cores) ∧
     (x.sh = false → inProgress < 32 → s.mayName h x → d.handles → TrapsWith (.cpymc a b c) s 0x0D 0) ∧
     (gw.toNat ≥ 2 ^ 50 ∨ bits gw 0 48 ≥ d.cnx.toList.getD (bits gw 48 2) 1 → d.handles → TrapsWith (.cwait b) s 0x02 0) ∧
     (gw.toNat < 2 ^ 50 → bits gw 0 48 < d.cnx.toList.getD (bits gw 48 2) 1 →
       (bits gw 0 48 ≤ d.cwm.toList.getD (bits gw 48 2) 0 → Does (.cwait b) s d) ∧
       (bits gw 0 48 > d.cwm.toList.getD (bits gw 48 2) 0 → exec (.cwait b) s =
         .next (s.setCur { d with state := .awaiting, wait := some (.copy (bits gw 48 2) (bits gw 0 48)), lgm := 0, stall := none })))) ∧
  (∀ (s s' : State) (a b c : Reg) (p : Place) (q : Desc) (x : Stream), let d := s.cur; let row := d.phys a
     let bound := fun (r : Nat) (x : Stream) => d.streams.find? (fun t => t.row == r) = some x
     let free := fun (r : Nat) => ∀ t ∈ d.streams, t.row ≠ r
     let n := x.desc.c.getD 0 1 * (x.desc.c.getD 1 1 * x.desc.c.getD 2 1 * x.desc.c.getD 3 1)
     d.unheld → d.typed = true → d.configured = true →
     (free row → (d.getG c).toNat ≤ 1 → row < d.rowsAlloc → d.streams.length < 4 → s.unbooked → d.vw ≠ 4 → (∀ e ∈ s.drovers, e.2.run = none) →
       ((keysOf (coreOf s.sel)).map (fun k => (s.drover k).streams.length)).sum < 4 →
       s.Lands .read (d.getG b) 64 s' p → Describes (s'.number p.key p.pa 64) false q →
       ∃ t, exec (.sbind a b c) s = .next t ∧
         Completes s' t { d with streams := d.streams ++ [⟨row, q, (d.getG c).getLsbD 0, 0, none⟩] } d.getG d.nextPc) ∧
     ((d.getG c).toNat ≥ 2 ∨ bound row x ∨ d.vw = 4 → d.handles → TrapsWith (.sbind a b c) s 0x02 0) ∧
     (bound row x → row < d.rowsAlloc → d.vw ≠ 4 → (∀ e ∈ s.unacked, e.2 ≠ s.sel) → d.ecc = [] → row < 256 →
       ∃ t, exec (.sunbind a) s = .next t ∧
         Completes s t { d with streams := d.streams.filter (fun t => t.row != row), vec := t.cur.vec } d.getG d.nextPc ∧
         t.cur.vec = { d.vec with rows := t.cur.vec.rows, pix := t.cur.vec.pix } ∧
         (∀ r, t.cur.vec.row r = if r = row then 0 else d.vec.row r) ∧
         ∀ r, t.cur.vec.pixOf r = if r = row then ⟨true, 0⟩ else d.vec.pixOf r) ∧
     (free row ∨ d.vw = 4 → d.handles → TrapsWith (.sunbind a) s 0x02 0) ∧
     (bound (d.phys b) x → Gives (.sstat a b) s a
       (.ofNat 64 ((if x.pos ≥ n then 2 ^ 63 else 0) + (if x.write then 2 ^ 62 else 0) + (n - x.pos) % 2 ^ 48))) ∧
     (bound (d.phys b) x → 1 ≤ a.toNat → a.toNat ≤ 15 → d.ecc = [] → d.vec.vl ≤ 32768 →
       ∃ t, exec (.sstatMask a b) s = .next t ∧ VecDone s t (s.predDone a) ∧ t.cur.fef = d.fef ∧ t.cur.fei = d.fei ∧
         ∀ last, x.lastP = some last → PredWritten s t a.toNat 0 (fun i _ => decide (last + i < n))) ∧
     (free (d.phys b) → d.handles → TrapsWith (.sstat a b) s 0x02 0 ∧ (1 ≤ a.toNat → a.toNat ≤ 15 → TrapsWith (.sstatMask a b) s 0x02 0)))

/-- R214, R223, R224, R226, R228, R229: a filling transfer whose accesses land writes each element into its tile cell in every core it
fills, 0 where the element is out of range or the row's index negative, leaves the tile READY with its range record, and completes; a
CPYOUT writes the elements in range in pattern order and leaves its tile READY; the channel's watermark follows. -/
def Obligations.TransfersMoveTheirElements : Prop :=
  ∀ (s s' : State) (key ch id : Nat) (T : Transfer) (val : Nat → Nat), let d := s.drover key; let q := T.desc
    let C0 := q.c.getD 0 1; let w := 8 * q.esz; let ag := s.engineOf key ch id T.sup; let home := coreOf key
    let total := T.nrows * C0
    let inside := q.inside
    let word := fun (x : Int) => BitVec.ofInt 64 x
    let fits := fun (x : Int) => 0 ≤ x ∧ x < 2 ^ 64
    let complete := fun (i : Instr) (u : State) (value : Nat → Nat) =>
      ∃ t, exec i s = .next t ∧ t.mem = u.mem ∧ t.encTag = u.encTag ∧ Watermark d (t.drover key) ch id ∧
        (t.core home).transfers = (s.core home).transfers.filter (fun y => !(y.drv == key && y.ch == ch && y.id == id)) ∧
        (∀ k, k ∉ T.left → k ≠ home → t.core k = s.core k) ∧
        ∀ k ∈ T.left, ∀ x, assocGet (s.core k).tiles T.tile = some x → x.pend = some (key, ch, id) →
          (t.core k).otherThan T.tile = (s.core k).otherThan T.tile ∧
          ∃ r, assocGet (t.core k).tiles T.tile = some { x with st := .ready, pend := none, range := r } ∧
            if T.kind = .cpyout then r = x.range ∧ (t.core k).tmem = (s.core k).tmem
            else Records r q (T.kind == .cpyg) T.row0 T.nrows ∧
              (Memory.wf (s.core k).tmem = true → x.rb % 64 = 0 → C0 * q.esz ≤ x.rb →
                (∀ n < total, (t.core k).cell x w (T.row0 + n / C0) (n % C0) = value n) ∧
                (∀ y, (∀ n < total, let z := x.base + (T.row0 + n / C0) * x.rb + n % C0 * q.esz; y < z ∨ z + q.esz ≤ y) →
                  Memory.get (t.core k).tmem y = Memory.get (s.core k).tmem y))
    s.transferOf key ch id = some T → T.drv = key → T.ch = ch → T.id = id → T.tag = none → ch < 4 → s.bookings = [] → s.tren T.flock 3 = false →
    1 ≤ C0 → q.c.length = 4 → (∀ k < 4, q.c.getD k 1 ≠ 0) → q.esz ∈ [1, 2, 4, 8] → T.left.Nodup →
    T.nrows ≤ q.c.getD 1 1 * q.c.getD 2 1 * q.c.getD 3 1 → d.wait = none →
    (T.kind = .cpyin ∨ T.kind = .cpymc → (∀ n < total, inside n = true → fits (q.place n)) →
      s.ReadsFor ag q.esz (((List.range total).filter inside).map (fun n => (word (q.place n), val n))) s' →
      complete (.copyTransferComplete key ch id) s' (fun n => if inside n then val n else 0)) ∧
    (T.kind = .cpyg → ∀ (u : State) (idx : Nat → Nat),
      let there := fun (n : Nat) => decide (0 ≤ twos 32 (idx (n / C0))) && decide (q.within 0 (n % C0))
      let at_ := fun (n : Nat) => (q.base : Int) + q.esz * (twos 32 (idx (n / C0)) + ((n % C0 : Nat) : Int) + q.i.getD 0 0)
      (∀ n < total, there n = true → fits (at_ n)) →
      s.ReadsFor ag 4 ((List.range T.nrows).map (fun j => (.ofNat 64 (q.idxVa + 4 * j), idx j))) u →
      u.ReadsFor ag q.esz (((List.range total).filter there).map (fun n => (word (at_ n), val n))) s' →
      complete (.copyTransferComplete key ch id) s' (fun n => if there n then val n else 0)) ∧
    (T.kind = .cpyout → T.left = [home] → T.pos = 0 → s.poison = [] → s.bad = [] → (s.core home).terr = [] → (∀ e ∈ s.unacked, e.2 ≠ key) →
      (∀ n < total, inside n = true → fits (q.place n)) →
      ∀ x, assocGet (s.core home).tiles T.tile = some x →
      s.WritesFor ag q.esz (((List.range total).filter inside).map (fun n =>
        (word (q.place n), (s.core home).cell x w (T.row0 + n / C0) (n % C0)))) s' →
      complete (.copyTransferComplete key ch id) s' (fun n => (s.core home).cell x w (T.row0 + n / C0) (n % C0)))

/-- R265 to R272, R279: TSHAPE grants min(M, L), min(N, L), min(K, 64) and clears every accumulator when the shape changes; MZERO writes
+0 to a whole accumulator; MXOA adds and MXOS subtracts the outer product of two operand rows, each sum exact and rounded once, or modulo
2^32, scaled under KA; MRD and MWR move a region between an accumulator and rows. R275 to R277: MLDOP checks all accesses in ascending
order and then loads its panel, turned on side 1; MLDOP.ff gives the same where no access fails, and where one in memory row r > 0 is the
first to fail it shortens TL or KL to r and loads the rows below. MLDA loads and MSTA stores the TL × VL region of an accumulator, all
checks first. A set bit of g_c[62:49], or a g_c[63] other than g_c[47], traps. -/
def Obligations.MatricesAreUpdatedAndMoved : Prop :=
  (∀ (s : State) (a b c : Reg), let d := s.cur; let v := d.vec; let w := 8 * elementSize v.af; let base := d.phys a
     s.matrixReady → v.shaped →
     (let f := d.vfmt
      let shape := fun (g : Word) (n : Nat) => Nat.min g.toNat n
      let lim := if f = .f64 then 32 else 64
      let m' := shape (d.getG b) lim; let n' := shape (d.getG c) lim; let k' := shape (d.getG a) 64
      (matrixIn f = none ∨ d.getG b = 0 ∨ d.getG c = 0 → d.handles → TrapsWith (.tshape a b c) s 0x02 0) ∧
      (∀ af κ, matrixIn f = some (af, κ) → d.getG b ≠ 0 → d.getG c ≠ 0 →
        ∃ t, exec (.tshape a b c) s = .next t ∧
          Completes s t { d with vec := { v with
            tl := m', vl := n', kl := k', am := m', an := n', af := af
            accs := if m' = v.am ∧ n' = v.an ∧ af = v.af then v.accs else Vector.replicate 4 0 } }
            (s.regsWith a (.ofNat 64 (m' + n' * 65536 + k' * 2 ^ 32))) d.nextPc)) ∧
     (v.af = .none → d.handles → TrapsWith (.mzero a) s 0x02 0) ∧
     (v.af ≠ .none → a.toNat < d.accAlloc → a.toNat < 4 → 1 ≤ v.am → 1 ≤ v.an →
       ∃ t, exec (.mzero a) s = .next t ∧ MatrixDone s t ∧ t.cur.fef = d.fef ∧ AccWritten s t a.toNat v.am v.an (fun _ _ => 0)) ∧
     (v.af ≠ .none → d.accAlloc ≤ a.toNat → d.handles → TrapsWith (.mzero a) s 0x04 0) ∧
     (∀ (n : BitVec 2) (f : BitVec 5) (κ : Nat), let fmt := Fmt.ofCode f.toNat; let k := n.toNat; let ka := vtyKa v.vty
       matrixIn fmt = some (v.af, κ) → v.af ≠ .none → v.tl ≤ v.am → v.vl ≤ v.an → v.am ≤ 64 → v.an ≤ 64 →
       (ka = true → fmt.isInt = false ∧ vtyKs v.vty ≠ 63) → d.rounds → vtyFwl v.vty ≤ 10 → k < d.accAlloc → d.phys b < d.rowsAlloc →
       d.phys c < d.rowsAlloc →
       let scale := fun (r i : Nat) => if ka then some (v.kent r (i / 2 ^ vtyBl v.vty)) else none
       let left := fun (m : Nat) => matrixInputs fmt v.af.fmt κ (scale (vtyKs v.vty) m) (rowElem (v.row (d.phys b)) w m)
       let right := fun (j : Nat) => matrixInputs fmt v.af.fmt κ (scale (vtyKs v.vty + 1) j) (rowElem (v.row (d.phys c)) w j)
       let old := fun (m j : Nat) => v.accAt k m j
       let sum := fun (neg : Bool) (m j : Nat) =>
         let o := floatOperand v.af.fmt v.af.fmt (old m j)
         let ps := (left m).ops.zip (right j).ops
         sumOfProducts v.af.fmt (vtyRm v.vty) [o] (ps.map (fun q => (if neg then q.1.negate else q.1, q.2))) (o :: ps.flatMap (fun q => [q.1, q.2]))
       let whole := fun (neg : Bool) (m j : Nat) =>
         let p := (((left m).ints.zip (right j).ints).map (fun q => q.1 * q.2)).sum
         modulo 32 ((old m j : Int) + if neg then -p else p)
       let flags := fun (neg : Bool) (i : Nat) => let m := i / v.vl; let j := i % v.vl
         if fmt.isInt then 0 else (sum neg m j).2 ||| (if j = 0 then (left m).fl else 0) ||| (if m = 0 then (right j).fl else 0)
       ∀ neg : Bool, (∀ i < v.tl * v.vl, d.fee &&& flags neg i = 0) →
         ∃ t, exec (if neg then .mxos b c n f else .mxoa b c n f) s = .next t ∧ MatrixDone s t ∧
           AccWritten s t k v.tl v.vl (fun m j => (if fmt.isInt then whole neg m j else (sum neg m j).1) % 2 ^ w) ∧
           Raised d t.cur 0 (v.tl * v.vl) (flags neg)) ∧
     (v.af = .none ∨ v.am < v.tl ∨ v.an < v.vl → d.handles → TrapsWith (.mrd a b) s 0x02 0 ∧ TrapsWith (.mwr a b) s 0x02 0) ∧
     (v.af ≠ .none → v.tl ≤ v.am → v.vl ≤ v.an → 1 ≤ v.tl → 1 ≤ v.vl →
       (b.toNat < d.accAlloc → base + v.tl ≤ d.rowsAlloc →
         ∃ t, exec (.mrd a b) s = .next t ∧ MatrixDone s t ∧ t.cur.fef = d.fef ∧ t.cur.fei = d.fei ∧
           FilledRows s t base v.tl v.vl (fun m n => v.accAt b.toNat m n)) ∧
       (a.toNat < d.accAlloc → a.toNat < 4 → d.phys b + v.tl ≤ d.rowsAlloc →
         ∃ t, exec (.mwr a b) s = .next t ∧ MatrixDone s t ∧ t.cur.fef = d.fef ∧ t.cur.fei = d.fei ∧
           AccWritten s t a.toNat v.tl v.vl (fun m n => rowElem (v.row (d.phys b + m)) w n)))) ∧
  (∀ (s s' : State) (a b c : Reg) (val : Nat → Nat → Nat), let d := s.cur; let v := d.vec; let es := elementSize v.af; let base := d.phys a
     let g := d.getG c
     let side := g.getLsbD 48
     let ordered := bits g 49 14 = 0 ∧ g.getLsbD 63 = g.getLsbD 47
     let stride := twos 48 (bits g 0 48)
     let rows := if side then v.tl else v.kl
     let len := if side then v.kl else v.vl
     let read := fun (stride : Int) (rows cols : Nat) => (s.regionOf b stride rows cols es).zip
       ((List.range rows).flatMap (fun r => (List.range cols).map (fun e => val r e)))
     let fits := if side then v.tl ≤ v.am else v.vl ≤ v.an
     s.matrixReady → v.shaped → v.af ≠ .none → v.am ≤ 64 → v.an ≤ 64 → v.kl ≤ 64 →
     (¬ ordered ∨ ¬ fits → d.handles → TrapsWith (.mldop a b c) s 0x02 0 ∧ TrapsWith (.mldopFf a b c) s 0x02 0) ∧
     (ordered → fits → base + v.kl ≤ d.rowsAlloc →
       (v.kl = 0 → Does (.mldop a b c) s d ∧ Does (.mldopFf a b c) s d) ∧
       (1 ≤ v.kl → 1 ≤ v.tl → 1 ≤ v.vl → s.ReadsChecked es (read stride rows len) s' → ∀ i ∈ [Instr.mldop a b c, .mldopFf a b c],
         ∃ t, exec i s = .next t ∧ MatrixDone s' t ∧ t.cur.fef = d.fef ∧ t.cur.fei = d.fei ∧ t.cur.vec.kl = v.kl ∧ t.cur.vec.tl = v.tl ∧
           FilledRows s t base v.kl (if side then v.tl else v.vl) (fun r e => if side then val e r else val r e))) ∧
     (v.tl ≤ v.am → v.vl ≤ v.an → 1 ≤ v.tl → 1 ≤ v.vl → a.toNat < d.accAlloc → a.toNat < 4 →
       (s.ReadsChecked es (read g.toInt v.tl v.vl) s' →
         ∃ t, exec (.mlda a b c) s = .next t ∧ MatrixDone s' t ∧ t.cur.fef = d.fef ∧ AccWritten s t a.toNat v.tl v.vl val) ∧
       (s.poison = [] → s.bad = [] → s.WritesChecked es ((s.regionOf b g.toInt v.tl v.vl es).zip
           ((List.range v.tl).flatMap (fun m => (List.range v.vl).map (fun n => v.accAt a.toNat m n)))) s' →
         ∃ t, exec (.msta a b c) s = .next t ∧ Completes s' t d d.getG d.nextPc)) ∧
     (v.am < v.tl ∨ v.an < v.vl → d.handles → TrapsWith (.mlda a b c) s 0x02 0 ∧ TrapsWith (.msta a b c) s 0x02 0) ∧
     (∀ (k e : Nat) (u u' : State) (f : FaultInfo) (ps : List Place), let all := s.regionOf b stride rows len es
       let shorter := { v with tl := if side then k else v.tl, kl := if side then v.kl else k }
       ordered → fits → base + v.kl ≤ d.rowsAlloc → 1 ≤ k → k < rows → e < len → f.cause ≠ 0x0F →
       State.LandAll .read es s (all.take (k * len + e)) u ps → u.loadProbe (s.agentOf s.sel) (all.getD (k * len + e) 0) es = .fail u' f →
       (u'.setCur { u'.cur with vec := shorter }).ReadsChecked es (read stride k len) s' →
       ∃ t, exec (.mldopFf a b c) s = .next t ∧ t = s'.setCur t.cur ∧ t.cur.fef = d.fef ∧ t.cur.fei = d.fei ∧ t.cur.pc = d.nextPc ∧
         (∀ r, t.cur.getG r = d.getG r) ∧
         t.cur.vec = { shorter with rows := t.cur.vec.rows, pix := t.cur.vec.pix, hwmRows := t.cur.vec.hwmRows, hwmLanes := t.cur.vec.hwmLanes } ∧
         (∀ r < shorter.kl, ∀ i, rowElem (t.cur.vec.row (base + r)) (8 * es) i =
           if i < (if side then k else v.vl) then (if side then val i r else val r i) else rowElem (v.row (base + r)) (8 * es) i) ∧
         ∀ r, r < base ∨ base + shorter.kl ≤ r → t.cur.vec.row r = v.row r))

/-- R280 to R288: every lane of a small-matrix instruction computes alone: SMMUL and SMMULT chains of one product and fused sums; SMCHOL
the lower factor by columns, with default NaNs from a column whose pivot is not positive on; SMLUP a packed factor in the row order its
permutation holds; SMSOLC and SMSOLP the solution by substitution; SMTRAN the transpose. The lanes' results go to the destination view, PF
and the permutation row, under the predicate and VTY.MP. -/
def Obligations.SmallMatricesAreComputedByLanes : Prop :=
  (∀ (s : State) (a b c : Reg) (m : Bool), let d := s.cur; let v := d.vec; let w := d.vw
    let R := bits d.sms 0 3; let C := bits d.sms 3 3; let K := bits d.sms 6 3; let pf := bits d.sms 9 4
    let size := fun (n : Nat) => 1 ≤ n ∧ n ≤ 6
    let at_ := fun (base n j : Nat) => (List.range n).map (fun e => rowElem (v.row (base + e)) w j)
    let A := d.phys a; let B := d.phys b; let Cr := d.phys c
    let x : LaneOps := ⟨d.vfmt, vtyRm v.vty⟩
    let apart := fun (p q : List Nat) => ∀ r ∈ p, r ∉ q
    let factors := fun (lane : Nat → LaneOut) (t : State) (e0 : Nat) => ∀ p i, t.cur.vec.pbit p i =
      if p = pf ∧ e0 ≤ i ∧ i < v.vl then if s.active m i then (lane i).fail else if vtyMp v.vty then false else v.pbit p i else v.pbit p i
    let none_ := fun (t : State) (_ : Nat) => t.cur.vec.preds = v.preds
    (size R → size C → size K → apart (group A (R * C)) (group B (R * K) ++ group Cr (K * C)) →
      SmallMatrix (.smmul a b c m) s a (R * C) (group B (R * K) ++ group Cr (K * C)) [] m
        (fun j => laneMul x R C K false (at_ B (R * K) j) (at_ Cr (K * C) j)) none_ ∧
      SmallMatrix (.smmult a b c m) s a (R * C) (group B (R * K) ++ group Cr (K * C)) [] m
        (fun j => laneMul x R C K true (at_ B (R * K) j) (at_ Cr (K * C) j)) none_) ∧
    (size R → R = C → pf ≠ 0 → (m = true → pf ≠ vtyPs v.vty) → apart (group A (R * R)) (group B (R * R)) →
      -- the elements above the diagonal are not read
      (let lane := fun (j : Nat) => laneChol x R ((List.range (R * R)).map (fun e => if e % R ≤ e / R then rowElem (v.row (B + e)) w j else 0))
       SmallMatrix (.smchol a b m) s a (R * R) (group B (R * R)) [] m lane (factors lane)) ∧
      (Cr ∉ group A (R * R) → Cr ∉ group B (R * R) →
        let lane := fun (j : Nat) => laneLup x R (at_ B (R * R) j)
        SmallMatrix (.smlup a b c m) s a (R * R) (group B (R * R)) [Cr] m lane (fun t e0 => factors lane t e0 ∧
          ∀ j, rowElem (t.cur.vec.row Cr) w j = if e0 ≤ j ∧ j < v.vl then
            if s.active m j then (lane j).perm % 2 ^ w else if vtyMp v.vty then 0 else rowElem (v.row Cr) w j else rowElem (v.row Cr) w j))) ∧
    (size R → size C → apart (group A (R * C)) (group B (R * R)) →
      SmallMatrix (.smsolc a b m) s a (R * C) (group B (R * R)) [] m
        (fun j => laneSolve x R C none ((List.range (R * R)).map (fun e => if e % R ≤ e / R then rowElem (v.row (B + e)) w j else 0)) (at_ A (R * C) j)) none_ ∧
      (Cr ∉ group A (R * C) → SmallMatrix (.smsolp a b c m) s a (R * C) (group B (R * R) ++ [Cr]) [] m
        (fun j => laneSolve x R C (some (rowElem (v.row Cr) w j)) (at_ B (R * R) j) (at_ A (R * C) j)) none_)) ∧
    (size R → size C → apart (group A (R * C)) (group B (R * C)) →
      SmallMatrix (.smtran a b m) s a (R * C) (group B (R * C)) [] m
        (fun j => ⟨(List.range (R * C)).map (fun e => mat (at_ B (R * C) j) C (e % R) (e / R)), 0, false, 0⟩) none_)) ∧
  (∀ (x : LaneOps) (R C K : Nat) (b c : List Nat), let f := x.f
    let mul := fun (p q : Nat) => (fMul f x.rm (x.op p) (x.op q)).1
    let fma := fun (p q z : Nat) => (fFma f x.rm (x.op p) (x.op q) (x.op z)).1
    let fnma := fun (p q z : Nat) => (fFnma f x.rm (x.op p) (x.op q) (x.op z)).1
    let div := fun (p q : Nat) => (fDiv f x.rm (x.op p) (x.op q)).1
    let positive := fun (z : Nat) => let v := floatValue f z; v.isNaN = false ∧ v.isZero = false ∧ v.neg = false
    -- SMMUL, SMMULT
    (∀ turned i j, i < R → j < C → let cc := fun k => if turned then mat c K j k else mat c C k j
      mat (laneMul x R C K turned b c).d C i j =
        (List.range (K - 1)).foldl (fun t k => fma (mat b K i (k + 1)) (cc (k + 1)) t) (mul (mat b K i 0) (cc 0))) ∧
    -- SMCHOL
    (b.length = R * R → ∀ jf ≤ R, let o := laneChol x R b; let D := mat o.d R
      let less := fun (i j : Nat) => (List.range j).foldl (fun t k => fnma (D i k) (D j k) t) (mat b R i j)
      (∀ j < jf, positive (less j j)) → (jf < R → ¬ positive (less jf jf)) →
      o.fail = decide (jf < R) ∧ ∀ i j, i < R → j < R →
        D i j = if i < j then 0 else if jf ≤ j then defaultNaN f else if i = j then (fSqrt f x.rm (x.op (less j j))).1 else div (less i j) (D j j)) ∧
    -- SMLUP
    (b.length = R * R → R ≤ 6 → let o := laneLup x R b; let D := mat o.d R; let P := fun (i : Nat) => o.perm / 8 ^ i % 8
      (∀ i < R, P i < R) ∧ (∀ i j, i < R → j < R → P i = P j → i = j) ∧ o.perm < 8 ^ R ∧
      if o.fail then ∃ jf < R, ∀ i j, i < R → j < R → jf ≤ i → jf ≤ j → D i j = defaultNaN f
      else
        let less := fun (i j n : Nat) => (List.range n).foldl (fun t k => fnma (D i k) (D k j) t) (mat b R (P i) j)
        (∀ i j, i < R → j < R → D i j = if i ≤ j then less i j i else div (less i j j) (D j j)) ∧
        ∀ j < R, let v := floatValue f (D j j); v.isZero = false ∧ v.isNaN = false ∧ ∀ i < R, j < i → magLess f (D j j) (less i j j) = false) ∧
    -- SMSOLC, SMSOLP
    (∀ perm : Option Nat, let o := laneSolve x R C perm b c; let Z := mat o.d C; let chol := perm.isNone
      let P := fun (i : Nat) => (perm.map (fun p => p / 8 ^ i % 8)).getD i
      let legal := (∀ p, perm = some p → p < 8 ^ R) ∧ (∀ i < R, P i < R) ∧ ∀ i j, i < R → j < R → P i = P j → i = j
      let g := fun (i k : Nat) => if chol then mat b R k i else mat b R i k
      o.fail = false ∧
      (legal → ∃ y : Nat → Nat → Nat, ∀ i < R, ∀ e < C,
        (let t := (List.range i).foldl (fun t k => fnma (mat b R i k) (y k e) t) (mat c C (P i) e)
         y i e = if chol then div t (mat b R i i) else t) ∧
        Z i e = div (((List.range R).filter (fun k => decide (i < k))).foldl (fun t k => fnma (g i k) (Z k e) t) (y i e)) (mat b R i i)) ∧
      (¬ legal → o.fl = 0x20 ∧ ∀ i < R, ∀ e < C, Z i e = defaultNaN f)))

/-- R291 to R297: CHCFG of a slot that no other drover holds opens a body; a captured word of R292's node list becomes the next node with
the drover's VTY, lengths and window, a SETTL, SETVTY, TSHAPE, LINK or CHEND acts as itself, and any other word, the 33rd node and the
65th word trap ILLOP and discard the body; LINK places the nodes that follow and CHEND makes the template live. LINK and CHEND outside a
body trap ILLOP; CHEND of an empty body, of one with a LINK outside R297 or with a node that R295 refuses traps RESCOMB at the word at
fault. -/
def Obligations.ChainsAreCaptured : Prop :=
  ∀ (s : State) (b : Reg) (w : BitVec 32) (r : Row) (c : Capture), let d := s.cur; let home := coreOf s.sel; let g := d.getG b
    let slot := bits g 0 4
    let words := s.setCur { d with capture := some { c with words := c.words + 1 } }
    let holds := fun (i : Instr) (e : Capture) => Does i s { d with capture := some e }
    let discards := fun (i : Instr) (cause : Nat) (fel fpc : Word) => d.tr.tvec ≠ 0 → ∃ t, exec i s = .next t ∧ Discards s t c cause fel fpc
    -- CHCFG
    (d.unheld → d.typed = true → d.configured = true → d.cst.live = false → g.toNat < 32 → (∀ e ∈ (s.core home).slots, e.1 = slot → e.2 = s.sel) →
      ∃ t, exec (.chcfg b) s = .next t ∧
        Completes { s with cores := t.cores } t { d with capture := some ⟨slot, g.getLsbD 4, d.iaddr, 0, 0, [], none⟩ } d.getG d.nextPc ∧
        t.core home = { s.core home with slots := (s.core home).slots ++ [(slot, s.sel)] } ∧ ∀ k, k ≠ home → t.core k = s.core k) ∧
    (d.cst.run = true ∨ d.cst.rs = true → d.handles → TrapsWith (.chcfg b) s 0x01 0) ∧
    (d.unheld → d.typed = true → d.configured = true → g.toNat ≥ 32 ∨ (∃ e ∈ (s.core home).slots, e.1 = slot ∧ e.2 ≠ s.sel) →
      d.handles → TrapsWith (.chcfg b) s 0x02 0) ∧
    -- a word of the body
    (d.capture = some c → decodeRow w = .ok r → r.wf w = true → c.words < 64 →
      (nodeWord w r → c.nodes.length < 32 → holds (.captureWord w)
        { c with words := c.words + 1, nodes := c.nodes ++ [⟨w, d.iaddr, d.vec.vty, d.vec.tl, d.vec.kl, d.vec.vl, d.vec.vwb, c.link⟩] }) ∧
      (r = .settl → exec (.captureWord w) s = exec (.settl (fA w) (fB w)) words) ∧
      (r = .setvty → exec (.captureWord w) s = exec (.setvty (fA w) (fB w)) words) ∧
      (r = .tshape → exec (.captureWord w) s = exec (.tshape (fA w) (fB w) (hiC (fHi w))) (if s.unitsHeld then s else words)) ∧
      (r = .link → exec (.captureWord w) s = exec (.link (fB w)) words) ∧
      (r = .chend → exec (.captureWord w) s = exec .chend words) ∧
      (r ∉ [.settl, .setvty, .tshape, .link, .chend] → ¬ nodeWord w r ∨ c.nodes.length ≥ 32 → discards (.captureWord w) 0x01 0 d.iaddr)) ∧
    (d.capture = some c → (∃ e, decodeRow w = .error e) ∨ (decodeRow w = .ok r ∧ r.wf w = false) ∨ c.words ≥ 64 → discards (.captureWord w) 0x01 0 d.iaddr) ∧
    -- LINK
    (d.capture = some c → s.linked g → holds (.link b) { c with link := g.toNat }) ∧
    (d.capture = some c → ¬ s.linked g → c.badLink = none → holds (.link b) { c with badLink := some (d.iaddr, c.nodes.length) }) ∧
    (d.handles → TrapsWith (.link b) s 0x01 0) ∧
    -- CHEND
    (d.capture = some c → c.nodes ≠ [] → badNode d c.nodes = none → c.badLink = none → Does .chend s
      { d with
        capture := none, template := some ⟨c.slot, c.tf, c.nodes⟩, run := none
        cst := { d.cst with live := true, run := false, rs := false, tmp := false, slot := c.slot } }) ∧
    (d.capture = some c → c.nodes = [] → discards .chend 0x02 0x8000000000000000 d.iaddr) ∧
    (d.capture = some c → ∀ k n, badNode d c.nodes = some k → c.badLink = none → c.nodes[k]? = some n → k < 32 →
      discards .chend 0x02 (0x8000000000000000 + .ofNat 64 k) n.addr) ∧
    (d.capture = some c → ∀ a n, c.nodes ≠ [] → badNode d c.nodes = none → c.badLink = some (a, n) → n < 64 →
      discards .chend 0x02 (0x8000000000000000 + .ofNat 64 n) a) ∧
    (d.handles → TrapsWith .chend s 0x01 0)

/-- R298, R299, R315: CHRUN starts a run: RUN is 1, TMP is 1 only under TF or where no unit is needed at once, all queues are empty, every
node stands at strip 0 with the operands CHRUN read, and the drover goes on; a count of 0 ends at once with CHN set. It waits while a run
lasts, traps RESCOMB without its template, for another slot, a count above 2^48 or CSAB 0, and with CST.RS = 1 resumes the broken run and
completes. A run not placed within 256 cycles runs temporally. -/
def Obligations.ChrunStartsARun : Prop :=
  ∀ (s : State) (b c : Reg) (t : Template), let d := s.cur; let count := (d.getG c).toNat
    (d.cst.run = true → exec (.chrun b c) s = .next (s.setCur { d with stall := some 12 })) ∧
    (d.unheld → d.template = none ∨ (d.template = some t ∧
        ((d.getG b).toNat ≥ 16 ∨ (d.getG b).toNat ≠ d.cst.slot ∨ d.cst.live = false ∨ count > 2 ^ 48 ∨ d.cst.csab = 0)) →
      d.handles → TrapsWith (.chrun b c) s 0x02 0) ∧
    (d.unheld → d.template = some t → d.cst.live = true → (d.getG b).toNat = d.cst.slot → d.cst.slot < 16 → count ≤ 2 ^ 48 → d.cst.csab ≠ 0 →
      d.bks.st = 0 → d.state = .issuing → d.ecc = [] → s.sequenced s.sel t = none → (∀ n ∈ t.nodes, n.row ≠ some .vscanlin) → operandsBad d t = false →
      (0 < count → ∃ u r, exec (.chrun b c) s = .next u ∧ u.cur.run = some r ∧ u.mem = s.mem ∧
        u.cur.pc = d.nextPc ∧ (∀ a, u.cur.getG a = d.getG a) ∧ u.cur.template = some t ∧
        u.cur.cst = { d.cst with live := true, run := true, rs := false, tmp := t.tf, exp := false } ∧
        r.count = count ∧ r.rpc = d.iaddr ∧ r.brk = none ∧ r.nodes.length = t.nodes.length ∧
        (∀ k n, t.nodes[k]? = some n → ∃ x, r.nodes[k]? = some x ∧ Begins d t.nodes k n x) ∧
        (∀ k < t.nodes.length, r.queues[k]? = some ⟨0, []⟩) ∧ (t.tf = true → r.placed = true ∧ u.cur.vec = d.vec ∧ u.cur.lgm = d.lgm)) ∧
      (count = 0 → t.tf = true → ∃ u, exec (.chrun b c) s = .next u ∧ u.cur.pc = d.nextPc ∧ u.mem = s.mem ∧ u.cur.vec = d.vec ∧
        u.cur.cst = { d.cst with live := true, run := false, rs := false, tmp := true, exp := false } ∧ u.cur.latch.getLsbD 1 = true)) ∧
    (∀ r, d.cst.run = false → d.cst.rs = true → d.template = some t → d.run = some r → r.area = none → (∀ k, r.brk = some k → k.owed = false) →
      d.state = .issuing → t.tf = true ∨ (∃ k, r.brk = some k ∧ k.kind = 1) → (s.core (coreOf s.sel)).srs.owner ≠ some s.sel →
      ∃ u r', exec (.chrun b c) s = .next u ∧ u.cur.cst = { d.cst with run := true, rs := false, tmp := true } ∧ u.cur.run = some r' ∧ u.mem = s.mem ∧
        r'.count = r.count ∧ r'.rpc = r.rpc ∧ r'.queues = r.queues ∧ r'.nodes.map (·.pix) = r.nodes.map (·.pix) ∧ r'.brk = none ∧
        r'.placed = true ∧ u.cur.vec = d.vec ∧ u.cur.pc = d.nextPc) ∧
    (∀ key r, let e := s.drover key
      s.Lone key → e.run = some r → e.cst.run = true → e.state = .issuing → r.placed = false → r.booked = false → r.since + 256 = s.cycle + 1 → (s.cycle + 1) % 8 ≠ 0 →
      ∃ u, exec (.chainPlacementTimeout key) s = .next u ∧ u.cycle = s.cycle + 1 ∧ u.mem = s.mem ∧ (u.drover key).cst = { e.cst with tmp := true } ∧
        (u.drover key).run = some { r with placed := true } ∧ (u.drover key).vec = e.vec ∧ (u.drover key).pc = e.pc ∧ ∀ a, (u.drover key).getG a = e.getG a)

/-- R308, R314, R317, R323: CHWAIT completes where no run goes on or is broken, waits without lane groups while one goes on, and delivers
a fault break that enters a handler: CHAINF with the inner cause, the run element, the CHRUN in FPC, itself in EPC and ESR.CHB. CHSTAT
gives CST, the run's count, the least PIX and each node's. CHDROP with no template does nothing; while a node awaits an answer within a
strip, or a write of the run is not yet performed, it waits; else it discards the template and the run, writes no sink, frees the slot and,
where the run was in progress, sets CHN. CHWAIT too waits until the run's writes are performed (R257). R303, R316: the end of a run whose nodes
have all completed every strip, no fold of which raises a flag: RUN falls, the template stays live, CHN is set; every reduction writes its
fold to element 0 of its row and every VSCAN.add and VFSCAN.add its carry to its carry row; no other element of a row, no memory and no
accumulator changes. -/
def Obligations.RunsAreAwaitedAndEnd : Prop :=
  (∀ (s u : State) (a b : Reg) (t : Template) (r : Run), let d := s.cur; let home := coreOf s.sel
     let items := fun (g v : Nat) => (d.getG b).toNat = g → Gives (.chstat a b) s a (.ofNat 64 v)
     let owes := ∃ e ∈ s.unacked, e.2 = s.sel
     let begun := owes ∨ ∃ k < 32, (∃ x ∈ s.reqs, x.who = .chain s.sel k) ∨ ∃ x ∈ s.reps, x.who = .chain s.sel k
     (d.unheld → ¬ owes → Does .chwait s d) ∧
     (d.unheld → owes → exec .chwait s = .next (s.setCur { d with stall := some 4 })) ∧
     (d.cst.run = true → exec .chwait s = .next (s.setCur { d with state := .awaiting, wait := some .chain, lgm := 0, stall := none })) ∧
     (∀ k, d.cst.run = false → d.cst.rs = true → d.run = some r → d.template = some t → r.brk = some k → k.owed = true → k.fault = none → k.elem < 2 ^ 48 →
       k.icause < 64 → d.handles → s.storeWhole { s.agentOf s.sel with own := false } d.cst.csab (areaBytes d s.sel t r true) = .ok u () →
       u.cur = d → u.sel = s.sel →
       ∃ v, exec .chwait s = .next v ∧
         v.cur.tr = { sup := true, epc := d.pc &&& 0xFFFFFFFFFFFFFFFC, esr := d.status false true, tvec := d.tr.tvec
                      flt := .ofNat 64 (0x0B + 256 * k.icause), fva := 0, fpc := r.rpc, fel := .ofNat 64 (2 ^ 63 + k.elem) } ∧
         v.cur.pc = d.vector 0x0B ∧ v.cur.cst = d.cst ∧ v.cur.run = some { r with brk := some { k with owed := false }, area := some 1 } ∧
         v.mem = u.mem ∧ ∀ x, v.cur.getG x = d.getG x) ∧
     items 0 (d.cst.live.toNat + 2 * d.cst.run.toNat + 4 * d.cst.rs.toNat + 8 * d.cst.tmp.toNat + 16 * d.cst.slot + 256 * d.cst.icause +
       65536 * d.cst.exp.toNat) ∧
     (d.run = some r → items 1 r.count ∧ (∀ k < 32, items (0x20 + k) ((r.nodes.map (·.pix)).getD k 0)) ∧
       ∀ m, m ∈ r.nodes.map (·.pix) → (∀ x ∈ r.nodes, m ≤ x.pix) → items 2 m) ∧
     ((d.getG b).toNat ∉ [0, 1, 2] → (d.getG b).toNat < 0x20 ∨ 0x3F < (d.getG b).toNat → d.handles → TrapsWith (.chstat a b) s 0x02 0) ∧
     (d.cst.live = false → Does .chdrop s d) ∧
     (d.cst.live = true → d.cst.run = true → d.run = some r → begun →
       exec .chdrop s = .next (s.setCur { d with stall := some 12, run := some { r with dropAsked := true } })) ∧
     (d.cst.live = true → d.cst.run = false ∨ ¬ begun → (s.core home).srs.owner ≠ some s.sel → d.wait = none →
       ∃ v, exec .chdrop s = .next v ∧
         Completes { s with cores := v.cores } v { d with
             template := none, run := none, cst := { d.cst with live := false, run := false, rs := false }
             latch := if d.cst.run = true then d.latch ||| 2 else d.latch }
           d.getG d.nextPc ∧
         v.core home = { s.core home with slots := (s.core home).slots.filter (fun e => e.2 != s.sel) } ∧ ∀ k, k ≠ home → v.core k = s.core k)) ∧
  (∀ (s : State) (key : Nat) (t : Template) (r : Run), let d := s.drover key
     let sinks := (t.nodes.zip r.nodes).zipIdx.filter (fun e => e.1.1.kind == 6 || e.1.1.kind == 7)
     let rowOf := fun (e : (Node × NodeRun) × Nat) => if e.1.1.kind = 6 then e.1.1.fa else e.1.1.fc
     d.run = some r → d.template = some t → d.cst.run = true → d.wait = none → d.state = .issuing → s.plainRun key r → d.ecc = [] →
     (∀ x ∈ r.nodes, (r.count + 63) / 64 ≤ x.strip) → (∀ e ∈ t.nodes.zip r.nodes, e.1.kind = 6 → (foldNode e.1 e.2).2 = []) →
     (sinks.map rowOf).Nodup → (∀ e ∈ sinks, rowOf e < 256 ∧ e.1.1.row ≠ some .vscanlin ∧ 8 ≤ e.1.1.w ∧ e.1.1.w ≤ 64 ∧ (e.1.1.kind = 7 → e.1.2.entries ≠ [])) →
     ∃ u, exec (.chainRunComplete key) s = .next u ∧ u.mem = s.mem ∧ (∀ j, j ≠ key → u.drover j = s.drover j) ∧
       (u.drover key).cst = { d.cst with run := false } ∧ (u.drover key).template = some t ∧ (u.drover key).latch = d.latch ||| 2 ∧
       (u.drover key).vec.accs = d.vec.accs ∧ (u.drover key).fef = d.fef ∧ (∀ a, (u.drover key).getG a = d.getG a) ∧ (u.drover key).pc = d.pc ∧
       (∀ e ∈ sinks, ∀ j, rowElem ((u.drover key).vec.row (rowOf e)) e.1.1.w j =
         if j = 0 then (if e.1.1.kind = 6 then (foldNode e.1.1 e.1.2).1.getD 0 else (e.1.2.entries.getD 0 none).getD 0) % 2 ^ e.1.1.w
         else rowElem (d.vec.row (rowOf e)) e.1.1.w j) ∧
       ∀ row, row ∉ sinks.map rowOf → (u.drover key).vec.row row = d.vec.row row)

/-- R300 to R305, R311: a node that may fire (its unit, its turn, whole tokens and a free slot) and has begun nothing of its next strip
applies its instruction to that strip. A load or strided load reads the run elements of the strip and makes their token; a store writes
them; a VADD node adds its sources modulo 2^w; a VRSUM node adds each element to the partial of its run index modulo 2^FWL. Tokens leave a
queue when all consumers have fired on them. A load that fails at an element stops its node there, the partial token kept; once no other
node can fire the run breaks: RUN 0, RS 1, the cause in ICAUSE (R258). -/
def Obligations.NodesFireInTheReferenceOrder : Prop :=
  ∀ (s s' : State) (key k : Nat) (t : Template) (r : Run) (n : Node) (x : NodeRun), let d := s.drover key
    let S := x.strip; let ag := s.nodeAgent key k S (if n.unit = 2 then srcGather else srcStream) r.sup; let len := Nat.min 64 (r.count - 64 * S); let w := n.w
    let run := (64 * S + ·)
    let srcB := r.sourceAt (qOfB t.nodes k) x.snapB S
    let srcC := r.sourceAt (qOfC t.nodes k) x.snapC S
    let srcA := r.sourceAt (qOfA t.nodes k) x.snapA S
    let address := fun (j : Nat) =>
      x.base + (if n.row = some .vlds ∨ n.row = some .vsts then .ofNat 64 (run j) * x.stride else .ofNat 64 (run j * (w / 8)))
    let next := { x with strip := S + 1, pix := 64 * S + len, last := s.cycle }
    let others := ∃ j < r.nodes.length, j ≠ k ∧ canFire d j = true ∧ s.unitFree key j = true
    let fires := fun (u' : State) (x' : NodeRun) (tok : Option Token) =>
      ∃ u, exec (.chainNodeFire key k) s = .next u ∧ u.mem = u'.mem ∧ u.encTag = u'.encTag ∧ Fired s u key k t.nodes r x x' tok
    d.run = some r → d.template = some t → t.nodes[k]? = some n → r.nodes[k]? = some x → r.placed = true → s.plainRun key r →
    canFire d k = true → s.unitFree key k = true → x.pix = 64 * S → x.spos = 0 → d.streams = [] → d.ecc = [] → (∀ c, s.tren d.flock c = false) →
    (∀ q, r.queues[k]? = some q → q.hs + q.tokens.length = S) → n.masked = false →
    (∀ q ∈ inputs t.nodes k, ∃ y T, r.queues[q]? = some y ∧ y.at_ S = some T ∧ T.elems.length = len ∧ ∀ e ∈ T.elems, e < 2 ^ w) →
    (n.row = some .vld ∨ n.row = some .vlds → w ∈ [8, 16, 32, 64] → ∀ (val : Nat → Nat),
      s.ReadsFor ag (w / 8) ((List.range len).map (fun j => (address j, val j))) s' →
      fires s' next (some ⟨(List.range len).map val, true⟩)) ∧
    (n.row = some .vst ∨ n.row = some .vsts → w ∈ [8, 16, 32, 64] →
      s.WritesFor ag (w / 8) ((List.range len).map (fun j => (address j, srcA j % 2 ^ w))) s' → fires s' next none) ∧
    (n.row = some .vadd → w ∈ [8, 16, 32, 64] → n.fmt ∈ [.i8, .i16, .i32, .i64] →
      fires s next (some ⟨(List.range len).map (fun j => (srcB j + srcC j) % 2 ^ w), true⟩)) ∧
    (n.row = some .vrsum → n.fmt ∈ [.i8, .i16, .i32, .i64] → x.entries.length = 1024 → vtyFwl n.vty ≤ 10 → (∀ e ∈ x.snapB, e < 2 ^ w) →
      ∃ x', fires s x' none ∧ x' = { next with entries := x'.entries } ∧
        ∀ p < 1024, x'.entries.getD p none =
          let els := (List.range len).filter (fun j => run j % 2 ^ vtyFwl n.vty == p)
          if els = [] then x.entries.getD p none
          else some ((((x.entries.getD p none).getD 0) + (els.map srcB).sum) % 2 ^ w)) ∧
    (n.row = some .vld → w ∈ [8, 16, 32, 64] → d.wait = none → d.resident = true → ∀ (m : Nat) (val : Nat → Nat) (u' : State) (e : FaultInfo), m < len → e.cause ≠ 0x0A →
      s.ReadsFor ag (w / 8) ((List.range m).map (fun j => (address j, val j))) s' →
      s'.locate ag .read (address m) (w / 8) = .error (u', e) →
      ∃ u r' x' q, exec (.chainNodeFire key k) s = .next u ∧ (u.drover key).run = some r' ∧ r'.nodes[k]? = some x' ∧ r'.queues[k]? = some q ∧
        (¬ others → (u.drover key).cst = { d.cst with run := false, rs := true, icause := e.cause } ∧ (u.drover key).latch = d.latch ||| 2 ∧
          r'.brk = some ⟨1, e.cause, k, run m, some e, true⟩) ∧
        (others → (u.drover key).cst = d.cst ∧ (u.drover key).latch = d.latch ∧ r'.brk = r.brk ∧ r'.failing = some ⟨1, e.cause, k, run m, some e, true⟩) ∧
        x'.pix = run m ∧ x'.strip = S ∧ x'.faulted = true ∧ x'.fva = e.va ∧
        (m ≠ 0 → (consumers t.nodes k = [] ∨ ∃ c ∈ consumers t.nodes k, ∃ y, r.nodes[c]? = some y ∧ y.strip ≤ S) →
          q.at_ S = some ⟨(List.range m).map val, false⟩) ∧
        u.mem = u'.mem ∧ (u.drover key).vec = d.vec ∧ (u.drover key).pc = d.pc ∧ ∀ a, (u.drover key).getG a = d.getG a)

/-- R318 to R320, R322: CHSAVE of a live template outside a run writes the 0x7B900 bytes of the area at g_b: a header, a record of each
node and its tokens and state, as of the broken run, or of one in which no strip has run; it sets CST.EXP. CHLOAD of a valid area leaves
its run awaiting resumption with ICAUSE of the header. CHSAVE at an address that is no multiple of 64 traps MISALIGN, both trap ILLOP in
another state, and CHLOAD traps RESCOMB for an area with another version, node count or word. -/
def Obligations.ChainStateMovesThroughItsArea : Prop :=
  ∀ (s u : State) (b : Reg) (t : Template) (D : Nat), let d := s.cur; let va := d.getG b; let ag := s.agentOf s.sel
    let traps := fun (i : Instr) (cause : Nat) => d.handles → TrapsWith i s cause 0
    (d.template = some t → d.cst.live = true → d.cst.run = false → va.toNat % 64 = 0 → t.slot < 16 → t.nodes.length ≤ 32 → (∀ n ∈ t.nodes, n.core ≤ 4) →
      ∀ r, (if d.cst.rs = true then d.run = some r else r = freshRun d t ((d.run.map (·.count)).getD 0) ((d.run.map (·.rpc)).getD 0)) →
      r.count ≤ 2 ^ 48 → (∀ x ∈ r.nodes, x.pix < 2 ^ 64) →
      let E := leNat (areaBytes d s.sel t r ((r.brk.map (·.owed)).getD false))
      AreaHolds E t r ∧
        (s.WritesFor ag 64 (areaLines va E 0x7B900) u → ∃ v, exec (.chsave b) s = .next v ∧
          Completes u v { d with cst := { d.cst with exp := true }, run := v.cur.run } d.getG d.nextPc ∧
          (v.cur.run.map (fun y => { y with area := none })) = (d.run.map (fun y => { y with area := none })))) ∧
    (d.template = some t → d.cst.live = true → d.cst.run = false → va.toNat % 64 ≠ 0 → d.handles →
      ∃ v, exec (.chsave b) s = .next v ∧ Enters s v 0x05 0x10005 va 0 (d.status false false) (d.pc &&& 0xFFFFFFFFFFFFFFFC) d.iaddr) ∧
    (d.template = none ∨ d.cst.live = false ∨ d.cst.run = true → traps (.chsave b) 0x01) ∧
    (d.template = none ∨ d.cst.live = false ∨ d.cst.run = true ∨ d.cst.rs = true → traps (.chload b) 0x01) ∧
    (d.template = some t → d.cst.live = true → d.unheld → s.ReadsFor ag 64 (areaLines va D 0x7B900) u → u.cur = d → u.sel = s.sel →
      s.srsOf s.sel = Srs.reset → u.srsOf u.sel = Srs.reset →
      (∀ r, parseArea d t (leBytes 0x7B900 D) = some r → ∃ v, exec (.chload b) s = .next v ∧
        Completes u v { d with run := some r, cst := { d.cst with rs := true, icause := fieldOf D 4 1 } } d.getG d.nextPc ∧
        r.count = fieldOf D 8 8 ∧ r.rpc = .ofNat 64 (fieldOf D 0x10 8) ∧ r.nodes.length = t.nodes.length ∧
        ∀ k x, r.nodes[k]? = some x → let o := 0x100 + 128 * k
          x.pix = fieldOf D (o + 0x10) 8 ∧ x.base = .ofNat 64 (fieldOf D (o + 0x18) 8) ∧ x.stride = .ofNat 64 (fieldOf D (o + 0x20) 8)) ∧
      (fieldOf D 0 2 ≠ 1 ∨ fieldOf D 2 1 ≠ t.nodes.length ∨ fieldOf D 3 1 % 2 = 0 ∨
          (∃ k n, t.nodes[k]? = some n ∧ fieldOf D (0x104 + 128 * k) 4 ≠ n.word.toNat) → d.handles →
        ∃ v, exec (.chload b) s = .next v ∧ Enters u v 0x02 2 0 0 (d.status false false) (d.pc &&& 0xFFFFFFFFFFFFFFFC) d.iaddr))

/-- R309: QPUSH during a run appends to a feed queue its next strip: the elements of vb in the node's width, 0 at and above VL; it waits
while the queue holds 8 tokens, and traps ILLOP on another queue and RESCOMB after the last strip. QPOP of a tap writes the head token to
elements 0 to L − 1 of vd, removes it and sets VL := L; with no token it waits while the producer has strips left in a run, else writes VL
:= 0. QSPACE gives the free slots, QCNT the count, the head's length and its strip; QCLR outside a run empties the queue. Without a live
template all trap ILLOP, as for a queue number of no queue. -/
def Obligations.QueuesPassTokens : Prop :=
  ∀ (s : State) (a b : Reg) (q : BitVec 7) (t : Template) (r : Run) (n : Node) (x : Queue), let d := s.cur; let k := q.toNat
    let queueOf := fun (z : Run) (j : Nat) => z.queues.getD j ⟨0, []⟩
    let strip := x.hs + x.tokens.length
    let len := Nat.min 64 (r.count - 64 * strip)
    let live := d.template = some t ∧ d.cst.live = true ∧ k < 32 ∧ t.nodes[k]? = some n ∧ r.queues[k]? = some x ∧ d.run = some r
    let plain := d.streams = [] ∧ d.ecc = [] ∧ d.rowsAlloc ≤ 256 ∧ d.cst.rs = false
    (live → plain → n.kind = 9 → d.cst.run = true → strip < (r.count + 63) / 64 → x.tokens.length < 8 → d.phys b < d.rowsAlloc →
      r.nodes.length = t.nodes.length →
      ∃ r', Does (.qpush q b) s { d with run := some r' } ∧ r'.count = r.count ∧
        (∀ y, r.nodes[k]? = some y → r'.nodes = r.nodes.set k { y with strip := strip + 1, pix := 64 * strip + len }) ∧
        ((∀ c ∈ consumers t.nodes k, ∀ y, r'.nodes[c]? = some y → y.strip ≤ x.hs) →
          queueOf r' k = { x with tokens := x.tokens ++
            [⟨(List.range len).map (fun j => if j < d.vec.vl then d.vec.elem (d.phys b) 1 n.w j else 0), true⟩] })) ∧
    (live → plain → n.kind = 9 → d.cst.run = true → strip < (r.count + 63) / 64 → x.tokens.length ≥ 8 → d.phys b < d.rowsAlloc →
      exec (.qpush q b) s = .next (s.setCur { d with stall := some 12 })) ∧
    (live → plain → n.kind = 9 → d.cst.run = true → (r.count + 63) / 64 ≤ strip → d.handles → TrapsWith (.qpush q b) s 0x02 0) ∧
    (live → n.kind ≠ 9 ∨ d.unheld → d.handles → TrapsWith (.qpush q b) s 0x01 0) ∧
    (live → plain → isTap d t.nodes k = true → d.phys a < d.rowsAlloc →
      (∀ T rest, x.tokens = T :: rest → T.whole = true → T.elems.length ≤ 64 → n.tokW d.vec.af ∈ [8, 16, 32, 64] →
        ∃ u, exec (.qpop a q) s = .next u ∧ u = s.setCur u.cur ∧ u.cur.pc = d.nextPc ∧ (∀ g, u.cur.getG g = d.getG g) ∧
          u.cur.run = some { r with queues := r.queues.set k ⟨x.hs + 1, rest⟩ } ∧ u.cur.vec.vl = T.elems.length ∧
          (∀ j, rowElem (u.cur.vec.row (d.phys a)) (n.tokW d.vec.af) j =
            if j < T.elems.length then T.elems.getD j 0 % 2 ^ n.tokW d.vec.af else rowElem (d.vec.row (d.phys a)) (n.tokW d.vec.af) j) ∧
          ∀ row, row ≠ d.phys a → u.cur.vec.row row = d.vec.row row) ∧
      (x.tokens = [] → ∀ y, r.nodes[k]? = some y → let left := y.strip < (r.count + 63) / 64 ∧ d.cst.run = true
        (left → exec (.qpop a q) s = .next (s.setCur { d with stall := some 12 })) ∧
        (¬ left → Does (.qpop a q) s { d with vec := { d.vec with vl := 0 } }))) ∧
    (live → isTap d t.nodes k = false → d.handles → TrapsWith (.qpop a q) s 0x01 0) ∧
    (live → x.tokens.length ≤ 8 → Gives (.qspace a q) s a (.ofNat 64 (8 - x.tokens.length))) ∧
    (live → x.tokens.length ≤ 8 → Gives (.qcnt a q) s a (.ofNat 64
      (x.hs % 2 ^ 42 * 2 ^ 11 + 16 * ((x.tokens.head?).map (fun (T : Token) => T.elems.length)).getD 0 + x.tokens.length))) ∧
    (live → d.unheld → Does (.qclr q) s { d with run := some { r with queues := r.queues.set k ⟨x.hs + x.tokens.length, []⟩ } }) ∧
    (d.cst.run = true ∨ d.cst.rs = true → d.handles → TrapsWith (.qclr q) s 0x01 0) ∧
    (32 ≤ k ∨ d.template = none ∨ d.cst.live = false → d.handles → TrapsWith (.qpush q b) s 0x01 0 ∧ TrapsWith (.qpop a q) s 0x01 0 ∧
      TrapsWith (.qspace a q) s 0x01 0 ∧ TrapsWith (.qcnt a q) s 0x01 0 ∧ TrapsWith (.qclr q) s 0x01 0)

/-- R332 to R336: BOOK waits while a search goes on; it refuses a second booking with −4 in ga and REF 4; else it reads the profile, sets
ST 1 and searches in the background, and so does BKQRY, which changes no state. A profile at no multiple of 64 traps MISALIGN. BKREL waits
for a search, ends a booking in ST 2 or 3 with ST 5, its units free once the quantum that has begun is over (R346), and does nothing in the
other states. BKWAIT waits for a search, enters AWAITING in ST
2 and else completes. -/
def Obligations.BookingInstructionsActOnTheState : Prop :=
  ∀ (s u : State) (a b : Reg) (P : Nat) (es : List BookEntry) (k : Booking), let d := s.cur; let va := d.getG b; let home := coreOf s.sel
    let reads := s.ReadsFor (s.agentOf s.sel) 8 (wordsAt va P (4 + 4 * es.length)) u ∧ va.toNat % 64 = 0 ∧ Profiles P d.lgMin d.lgMax es
    let searching := fun (query : Bool) => { d.bks with st := if query then d.bks.st else 1, search := some ⟨a, some es, query⟩ }
    let waits := fun (i : Instr) (why : Nat) => exec i s = .next (s.setCur { d with stall := some why })
    d.state = .issuing → d.wait = none → (∀ c, s.tren d.flock c = false) →
    (d.bks.st = 1 ∨ d.bks.search.isSome = true → waits (.book a b) 8 ∧ waits (.bkqry a b) 8) ∧
    (d.bks.st ≠ 1 → d.bks.search = none →
      (va.toNat % 64 ≠ 0 → d.handles → TrapsWith (.book a b) s 0x05 va ∧ TrapsWith (.bkqry a b) s 0x05 va) ∧
      (reads →
        (d.bks.st ≠ 2 → d.bks.st ≠ 3 → ∃ t, exec (.book a b) s = .next t ∧
          Completes u t { d with bks := searching false, latch := d.latch ||| 4 } d.getG d.nextPc) ∧
        (d.bks.st = 2 ∨ d.bks.st = 3 → ∃ t, exec (.book a b) s = .next t ∧
          Completes u t { d with bks := { d.bks with ref := 4 } } (s.regsWith a (.ofInt 64 (-4))) d.nextPc) ∧
        ∃ t, exec (.bkqry a b) s = .next t ∧ Completes u t { d with bks := searching true } d.getG d.nextPc)) ∧
    (d.bks.st = 1 → waits .bkrel 8) ∧
    (d.bks.st ∉ [1, 2, 3] → Does .bkrel s d) ∧
    (d.bks.st = 2 ∨ d.bks.st = 3 → d.cst.run = false → s.bookingOf s.sel = some k → k.core = home →
      ∃ t, exec .bkrel s = .next t ∧
        Completes { s with cores := t.cores, bookings := t.bookings } t { d with bks := { d.bks with st := 5 }, latch := d.latch ||| 4 } d.getG d.nextPc ∧
        t.bookings = s.bookings.filterMap (fun x => if x.owner = some s.sel then x.remnant (s.cycle / 8) else some x) ∧ (t.core home).freed = true) ∧
    (d.bks.st = 1 → waits .bkwait 11) ∧
    (d.bks.st = 2 → exec .bkwait s = .next (s.setCur { d with state := .awaiting, wait := some .booking, lgm := 0, stall := none })) ∧
    (d.bks.st ∉ [1, 2] → Does .bkwait s d)

/-- R325, R333 to R337, R342, R346, R347: a quantum boundary comes at the next multiple of 8 cycles. At it the search of a lone drover
ends: with a malformed profile in −1, with a link direction off the mesh in −5, with an entry past the horizon in −3, else, for units
alone, in the quantum after next: BKST and ga are 8 times it, ST is 2 (BKQRY changes ga only). Freed quanta move an unstarted booking to
the earliest start. At its start, or after its drover's issue of that cycle, a booking enters ST 3 (R349) and a drover in BKWAIT resumes with the booked lane groups; one whose quanta have
passed with no run ends in ST 0; one whose run still goes on when a lane-group, matrix or stream entry ends breaks it with OVERRUN and
takes ST 4. -/
def Obligations.BookingsStartAndEnd : Prop :=
  ∀ (s : State) (key : Nat) (a : Reg) (query : Bool) (es : List BookEntry) (b : Booking), let d := s.drover key; let home := coreOf key
    let now := s.cycle / 8 + 1
    let due := s.cycle % 8 = 7
    let unfreed := ∀ e ∈ s.cores, e.2.freed = false
    let units := fun (l : List BookEntry) => ∀ e ∈ l, e.cls < 4 ∧ e.mask < 2 ^ 16
    let now_ := fun (i : Instr) (P : State → Prop) => ∃ t, exec i s = .next t ∧ t.cycle = 8 * now ∧ t.mem = s.mem ∧ (t.drover key).vec.vl = d.vec.vl ∧ P t
    let ends := fun (x : Option (List BookEntry)) (code : Nat) =>
      d.bks.search = some ⟨a, x, query⟩ → now_ (.bookSearchEnd key) (fun t =>
        (t.drover key).bks = { d.bks with search := none, st := if query then d.bks.st else 0, ref := if query then d.bks.ref else code } ∧ t.bookings = [] ∧
          (∀ r, (t.drover key).getG r = if r ≠ 0 ∧ r = a then .ofInt 64 (-code) else d.getG r) ∧
          (query = false → (t.drover key).latch = d.latch ||| 4))
    (s.Lone key → due → d.state = .issuing → d.wait = none → d.run = none →
      (s.bookings = [] → unfreed → d.bks.st = (if query then d.bks.st else 1) →
        ends none 1 ∧
        (d.bks.search = none → now_ .quantumBoundary (fun t => t.bookings = [] ∧ (t.drover key).bks = d.bks)) ∧
        (units es → es ≠ [] → (∃ e ∈ es, 1022 < e.until_) → ends (some es) 3) ∧
        (∀ e n, e.cls = 4 → n < 4 → e.mask.testBit n = true → neighbour home (n + 1) = none → ends (some [e]) 5) ∧
        (units es → (∀ e ∈ es, e.until_ ≤ 1022) → d.bks.search = some ⟨a, some es, query⟩ → now_ (.bookSearchEnd key) (fun t =>
          (∀ r, (t.drover key).getG r = if r ≠ 0 ∧ r = a then .ofNat 64 (8 * (now + 2)) else d.getG r) ∧
          (query = false → (t.drover key).latch = d.latch ||| 4 ∧ (t.drover key).bks = ⟨2, 0, .ofNat 64 (8 * (now + 2)), none⟩ ∧
            t.bookings = [⟨home, some key, none, now + 2, false, false, es.map (fun e => e.from (now + 2))⟩]) ∧
          (query = true → (t.drover key).bks = { d.bks with search := none } ∧ t.bookings = [])))) ∧
      (s.bookings = [b] → b.owner = some key → b.core = home → d.bks.search = none →
        ((s.core home).freed = true → b.started = false → now + 2 < b.start → b.entries = es.map (fun e => e.from b.start) → units es → (∀ e ∈ es, e.until_ ≤ 1022) →
          now_ .quantumBoundary (fun t => t.bookings = [{ b with start := now + 2, entries := es.map (fun e => e.from (now + 2)) }] ∧
            (t.drover key).bks = { d.bks with start := .ofNat 64 (8 * (now + 2)) })) ∧
        (unfreed → b.started = false → b.start = now → d.bks.st = 2 → b.runStarted = false → (∃ e ∈ b.entries, e.cls < 7 ∧ now < e.until_) →
          ∃ t, exec (.bookedStart key) s = .next t ∧ t.cycle = 8 * now + 1 ∧ t.mem = s.mem ∧ t.bookings = [{ b with started := true }] ∧
            (t.drover key).bks = { d.bks with st := 3 } ∧ (t.drover key).latch = d.latch ||| 4) ∧
        (unfreed → b.started = true → b.runStarted = false → d.bks.st = 3 → (∃ e ∈ b.entries, e.cls < 7 ∧ e.until_ = now) → (∀ e ∈ b.entries, e.cls < 7 → e.until_ ≤ now) →
          now_ (.bookingEnd key) (fun t => t.bookings = [] ∧ (t.drover key).bks = { d.bks with st := 0 } ∧ (t.drover key).latch = d.latch ||| 4 ∧
            (t.core home).freed = true)))) ∧
    (s.Lone key → due → unfreed → s.bookings = [b] → b.owner = some key → b.core = home → b.started = false → b.start = now → b.runStarted = false → d.bks.st = 2 →
      d.bks.search = none → d.run = none → (∃ e ∈ b.entries, e.cls < 7 ∧ now < e.until_) → d.state = .awaiting → d.wait = some .booking → b.withholds ≠ 0 →
      ∃ t, exec (.bookedStart key) s = .next t ∧ (t.drover key).state = .issuing ∧ (t.drover key).lgm = .ofNat 16 b.withholds ∧ (t.drover key).pc = d.nextPc ∧
        (t.drover key).bks = { d.bks with st := 3 } ∧ ∀ r, (t.drover key).getG r = d.getG r) ∧
    (∀ r : Run, s.Lone key → due → unfreed → s.bookings = [b] → b.owner = some key → b.core = home → b.started = true → b.runStarted = true → d.bks.st = 3 →
      d.bks.search = none → d.run = some r → d.cst.run = true → r.placed = true → r.booked = true → (∃ x ∈ r.nodes, x.pix < r.count) → (s.core home).srs.owner ≠ some key → d.state = .issuing → d.wait = none →
      (∃ e ∈ b.entries, e.cls ∈ [0, 1, 3] ∧ e.until_ = now) → (∀ e ∈ b.entries, e.cls ∈ [0, 1, 3] → now ≤ e.until_) →
      now_ (.overrun key) (fun t => t.bookings = (b.remnant now).toList ∧ (t.drover key).bks.st = 4 ∧
        (t.drover key).cst = { d.cst with run := false, rs := true, icause := 0x0A } ∧
        ∃ r' k, (t.drover key).run = some r' ∧ r'.brk = some k ∧ k.kind = 1 ∧ k.icause = 0x0A ∧ k.owed = true))

/-- R350 to R355: SRSCFG with a block in order claims the core's sequencer, with EN 1 when T ≥ 0 and ISIG ≠ 0, and leaves STEP, SKIPS and
SKM; while another drover owns it, or with a field outside its limits, it traps RESCOMB. SRSSTEP adds 1 to STEP and clears SKIPS, NR and
SKM; SRSMAP gives the lowest skipped tile at or above g_b, or −1; SRSCLR releases the sequencer with all its registers 0; SRSSIG writes an
entry of the current bank for every tile. Those four trap RESCOMB without ownership; all but SRSMAP wait while ACT is 1. -/
def Obligations.TheSequencerIsConfiguredAndRead : Prop :=
  ∀ (s u : State) (a b : Reg) (D : Nat) (p : Place) (r : Srs) (c : SrsCfg), let d := s.cur; let home := coreOf s.sel
    let owned := s.sequencer r c
    let sets := fun (i : Instr) (v : State) (x : Srs) => ∃ t, exec i s = .next t ∧
      Completes { v with cores := t.cores } t d d.getG d.nextPc ∧ (t.core home) = { s.core home with srs := x } ∧ ∀ k, k ≠ home → t.core k = s.core k
    let te := 2 ^ (c.rl + c.cl)
    (((s.core home).srs = r ∧ (r.owner = none ∨ r.owner = some s.sel) ∧ r.act = false) → s.Lands .read (d.getG b) 64 u p →
      (Configures (u.number p.key p.pa 64) c →
        sets (.srscfg b) u { r with owner := some s.sel, cfg := some c
                                    en := decide ((c.t < 2 ^ 31 ∧ c.t ≤ 0x7F800000 ∨ c.t = 2 ^ 31) ∧ c.isig ≠ 0) }) ∧
      (u.number p.key p.pa 64 = D → (∀ x, ¬ Configures D x) → d.handles →
        ∃ t, exec (.srscfg b) s = .next t ∧ Enters u t 0x02 2 0 0 (d.status false false) (d.pc &&& 0xFFFFFFFFFFFFFFFC) d.iaddr)) ∧
    ((s.core home).srs = r → r.owner ≠ none → r.owner ≠ some s.sel → d.handles →
      (∀ i ∈ [Instr.srscfg b, .srsstep, .srsmap a b, .srsclr], TrapsWith i s 0x02 0) ∧
      (d.typed = true → d.configured = true → TrapsWith (.srssig b) s 0x02 0)) ∧
    ((s.core home).srs = r → r.owner = none → d.handles → ∀ i ∈ [Instr.srsstep, .srsmap a b, .srsclr], TrapsWith i s 0x02 0) ∧
    ((s.core home).srs = r → r.owner = some s.sel → r.act = true →
      ∀ i ∈ [Instr.srscfg b, .srsstep, .srsclr, .srssig b], exec i s = .next (s.setCur { d with stall := some 12 })) ∧
    (owned → sets .srsstep s { r with step := (r.step + 1) % 2 ^ 16, skips := 0, nr := false, skm := 0 }) ∧
    (owned → sets .srsclr s { owner := none, cfg := none, en := false, act := false, nr := false, step := 0, skips := 0, skm := 0 }) ∧
    (owned → (∀ t, (d.getG b).toNat ≤ t → t < c.nt → r.skm.getLsbD t = true →
        (∀ k, (d.getG b).toNat ≤ k → k < t → r.skm.getLsbD k = false) → Gives (.srsmap a b) s a (.ofNat 64 t)) ∧
      ((∀ t, (d.getG b).toNat ≤ t → t < c.nt → r.skm.getLsbD t = false) → Gives (.srsmap a b) s a (.ofInt 64 (-1)))) ∧
    (owned → d.typed = true → d.configured = true →
      (d.vfmt ∉ [.f16, .bf16, .f32] → d.handles → TrapsWith (.srssig b) s 0x02 0) ∧
      (d.vfmt ∈ [.f16, .bf16, .f32] → c.isig = 0 → Does (.srssig b) s d) ∧
      (d.vfmt = .f32 → c.isig ≠ 0 → c.isig + 16 * (2 * c.nt) < 2 ^ 64 → r.step < 2 ^ 16 → ∀ (x : Nat → Nat → Nat),
        (∀ t < c.nt, (signed32 (x t) te).2.2.2 = false ∧ ∀ j < te, x t j < 2 ^ 32) →
        s.SignsTiles (s.agentOf s.sel) c (d.getG b) r.step te x 0 c.nt u → ∃ t, exec (.srssig b) s = .next t ∧ Completes u t d d.getG d.nextPc))

/-- R233, R234: BARW with a value above 1 traps RESCOMB. Where another drover of the scope has neither arrived nor exited, the drover
waits without lane groups and nothing else changes; where all have, the generation counts on and every drover that waited goes on behind
its BARW with its registers as they were. R235: a SIGNAL whose access passes the checks, with no write of the drover unacknowledged,
stores g_c to the 8 bytes at g_b. WAITV completes where the 8 bytes at g_b are at least g_c, else the drover waits; a re-read that finds
them at least g_c resumes it behind the WAITV, one that does not changes nothing but what its translation does. -/
def Obligations.BarriersAndSignalsSynchronise : Prop :=
  (∀ (s : State) (b : Reg) (f : Flock), let d := s.cur; let g := d.getG b; let core := g.getLsbD 0
     let gen := if core then assocGetD f.coreGen 0 (coreOf s.sel) else f.gen
     let scope := fun (k : Nat) => (s.drover k).flock = d.flock ∧ (core = true → coreOf k = coreOf s.sel)
     let there := fun (k : Nat) => (s.drover k).state = .exited ∨ (s.drover k).wait = some (.barrier core gen)
     (g.toNat ≥ 2 → d.handles → TrapsWith (.barw b) s 0x02 0) ∧
     (g.toNat < 2 → s.flock d.flock = some f → rising s.drovers = true → s.tren d.flock 4 = false →
       ((∃ e ∈ s.drovers, e.1 ≠ s.sel ∧ scope e.1 ∧ ¬ there e.1) → exec (.barw b) s =
         .next (s.setCur { d with state := .awaiting, wait := some (.barrier core gen), lgm := 0, stall := none })) ∧
       ((∀ e ∈ s.drovers, e.1 ≠ s.sel → scope e.1 → there e.1) → ∃ t, exec (.barw b) s = .next t ∧ t.mem = s.mem ∧
         (∃ f', t.flock d.flock = some f' ∧ (core = false → f' = { f with gen := gen + 1 }) ∧
           (core = true → f' = { f with coreGen := assocPut f.coreGen (coreOf s.sel) (gen + 1) })) ∧
         t.cur.state = .issuing ∧ t.cur.wait = none ∧ t.cur.pc = d.nextPc ∧ (∀ r, t.cur.getG r = d.getG r) ∧
         ∀ e ∈ s.drovers, e.1 ≠ s.sel → scope e.1 → (s.drover e.1).state = .awaiting → (t.drover e.1).state = .issuing ∧
           (t.drover e.1).wait = none ∧ (t.drover e.1).pc = (s.drover e.1).nextPc ∧ ∀ r, (t.drover e.1).getG r = (s.drover e.1).getG r))) ∧
  (∀ (s s' : State) (b c : Reg) (p : Place) (key : Nat) (va least : Word), s.memOk → let d := s.cur; let v := s'.number p.key p.pa 8
     let e := s.drover key
     (s.Lands .write (d.getG b) 8 s' p → (∀ x ∈ s.unacked, x.2 ≠ s.sel) →
       ∃ t u, exec (.signal b c) s = .next t ∧ Stored s' u p.key p.pa 8 (d.getG c).toNat ∧ Completes u t d d.getG d.nextPc) ∧
     (s.Lands .read (d.getG b) 8 s' p →
       ((d.getG c).toNat ≤ v → ∃ t, exec (.waitv b c) s = .next t ∧ Completes s' t d d.getG d.nextPc) ∧
       (v < (d.getG c).toNat → exec (.waitv b c) s =
         .next (s'.setCur { d with state := .awaiting, wait := some (.value (d.getG b) (d.getG c)), lgm := 0, stall := none }))) ∧
     (e.state = .awaiting → e.wait = some (.value va least) → s.LandsFor (s.agentOf key) .read va 8 s' p →
       (least.toNat ≤ v → ∃ t, exec (.waitvReread key) s = .next t ∧ t.mem = s'.mem ∧ (t.drover key).state = .issuing ∧ (t.drover key).wait = none ∧
         (t.drover key).pc = e.nextPc ∧ ∀ r, (t.drover key).getG r = e.getG r) ∧
       (v < least.toNat → exec (.waitvReread key) s = .next s')))

/-- R370: QCMD traps RESCOMB where g_b has a bit above 16. With its record read as one 64-byte load, it gives −2 for a handle that is not
bound to the context, not VALID or in error, −3 for a supervisor queue at user level, −1 for a full queue; else it writes the record at
the queue's tail, TAIL counts on, and ga receives the old TAIL. R371, R372: TDONE, with no write unacknowledged, is the drover's arrival
in the range release and completes; with the last arrival of the flock its task's ranges retire. DSIG at no multiple of 128 traps
MISALIGN; else it takes 1 from the 2-byte counter at g_b + 0x22, as one, and leaves a 0, posting a QFAULT record with subcode 4 instead.
-/
def Obligations.CommandsAndReleasesOfDrovers : Prop :=
  (∀ (s s' u : State) (a b c : Reg) (p : Place) (q : WorkQueue), let d := s.cur; let h := (d.getG b).toNat
     let gives := fun (x : Int) => ∃ t, exec (.qcmd a b c) s = .next t ∧ Completes s' t d (s.regsWith a (.ofInt 64 x)) d.nextPc
     let n := (q.tail + 2 ^ 32 - q.head % 2 ^ 32) % 2 ^ 32
     (h ≥ 2 ^ 17 → d.handles → TrapsWith (.qcmd a b c) s 0x02 0) ∧
     (h < 2 ^ 17 → d.answers = [] → s.Lands .read (d.getG c) 64 s' p → (∀ x ∈ s'.dies, x.2.awaited = [] ∧ x.2.backlog = []) →
       (s.queue h = none → gives (-2)) ∧
       (s.queue h = some q → q.ctx ≠ d.ctx → gives (-2)) ∧
       (s.queue h = some q → q.ctx = d.ctx → q.resident = true → q.touches = [] →
         (q.valid = false ∨ q.err = true → gives (-2)) ∧
         (q.valid = true → q.err = false →
           (q.sup = true → d.tr.sup = false → gives (-3)) ∧
           (q.sup = false ∨ d.tr.sup = true →
             (2 ^ q.lcap ≤ n → gives (-1)) ∧
             (n < 2 ^ q.lcap → (∀ x ∈ s.unacked, x.2 ≠ s.sel) → s.sel < 2048 →
               s'.WritesFor (queueAgent q h s.sel) 64 [(q.place q.tail, s'.number p.key p.pa 64)] u →
               ∃ t, exec (.qcmd a b c) s = .next t ∧
                 Completes { u with queues := t.queues, nextAge := t.nextAge } t d (s.regsWith a (.ofNat 64 q.tail)) d.nextPc ∧
                 (∃ q', t.queue h = some q' ∧ q' = { q with tail := (q.tail + 1) % 2 ^ 32, fresh := q'.fresh }) ∧ ∀ k, k ≠ h → t.queue k = s.queue k)))))) ∧
  (∀ (s s' : State) (b : Reg) (p : Place) (f : Flock) (T : Task), s.memOk → let d := s.cur; let tcb := d.getG b
     (∀ x ∈ s.unacked, x.2 ≠ s.sel) →
     (s.flock d.flock = some f → s.task f.task = some T → ∃ t T', exec .tdone s = .next t ∧ t.mem = s.mem ∧ t.cur.tdone = true ∧ t.cur.pc = d.nextPc ∧
       (∀ r, t.cur.getG r = d.getG r) ∧ (∀ k, k ≠ s.sel → t.drover k = s.drover k) ∧ t.task f.task = some T' ∧
       T'.ranges = (T.ranges && (s.flockKeys d.flock).any (fun k => decide (k ≠ s.sel) && !(s.drover k).tdone))) ∧
     (tcb.toNat % 128 ≠ 0 → d.handles → ∃ t, exec (.dsig b) s = .next t ∧
       Enters s t 0x05 0x10005 tcb 0 (d.status false false) (d.pc &&& 0xFFFFFFFFFFFFFFFC) d.iaddr) ∧
     (tcb.toNat % 128 = 0 → s.Lands (.amo none) (tcb + 0x22) 2 s' p → let n := s'.number p.key p.pa 2
       (n ≠ 0 → n ≠ 1 ∨ s.tasks = [] → ∃ t u, exec (.dsig b) s = .next t ∧ Stored s' u p.key p.pa 2 (n - 1) ∧ Completes u t d d.getG d.nextPc) ∧
       (n = 0 → let die := dieOf s.sel; (s'.die die).frqb = none → ∃ t, exec (.dsig b) s = .next t ∧ t.mem = s'.mem ∧ t.cur.pc = d.nextPc ∧
         (∀ r, t.cur.getG r = d.getG r) ∧ (t.die die).backlog = (s'.die die).backlog ++ [({
           cause := 0x0C, sub := 4, flg := 0, lvl := 0, pcore := coreOf s.sel, slot := slotOf s.sel, icause := 0, bmask := 0, flock := d.flock
           va := tcb, pc := d.iaddr, aux := 0, pte := 0, pa := 0, data := 0 }, d.ctx, none)])))

/-- R363 to R365: a tail write of 8 aligned bytes to a handle that the function may reach sets TAIL, or, with bits above 31 or past the
ring's capacity, is discarded with a QFAULT record of subcode 3; another write changes nothing. An acceptance of
the same cycle sees the old TAIL (R386). A queue that is not resident and has a
tail write held is swapped in from its 64-byte entry, and the write is then applied. -/
def Obligations.TailWritesReachTheirQueues : Prop :=
  ∀ (s s' : State) (fn h n : Nat) (v : Word) (q : WorkQueue) (p : Place),
    let held := (v.toNat + 2 ^ 32 - q.head % 2 ^ 32) % 2 ^ 32
    (s.queue h = some q → q.resident = true → q.touches = [] → s.mgmt.ready = true → h < 131072 → s.reaches fn h = true →
      (v.toNat < 2 ^ 32 → held ≤ 2 ^ q.lcap → ∃ t, exec (.tailWrite fn (8 * h) 8 v) s = .next t ∧
        t = { s with queues := t.queues, nextAge := t.nextAge } ∧ (∀ k, k ≠ h → t.queue k = s.queue k) ∧
        ∃ q', t.queue h = some q' ∧ q' = { q with tail := v.toNat, fresh := q'.fresh, old := q'.old } ∧
          ((∀ c m, q.old = some (c, m) → c ≠ s.cycle) → q'.old = some (s.cycle, q.tail))) ∧
      (v.toNat ≥ 2 ^ 32 ∨ 2 ^ q.lcap < held → (s.die q.home).frqb = none → ∃ t, exec (.tailWrite fn (8 * h) 8 v) s = .next t ∧ t.mem = s.mem ∧
        (∃ q', t.queue h = some q' ∧ q'.tail = q.tail ∧ q'.head = q.head) ∧
        (t.die q.home).backlog = (s.die q.home).backlog ++ [(queueFault 3 0 h 0 0, q.ctx, none)])) ∧
    (n ≠ 8 ∨ s.reaches fn h = false → exec (.tailWrite fn (8 * h) n v) s = .next s) ∧
    (∀ D c, s.queue h = some q → q.resident = false → q.tag = none → q.touches = [.tail v] → s.context q.ctx = some c →
      s.LandsFor (sideAgent q.ctx 0 0 (4096 + h) true (.record h 0)) .read (c.qtab + .ofNat 64 (64 * h)) 64 s' p →
      s'.number p.key p.pa 64 = D → fieldOf D 0x0C 4 = 0 → fieldOf D 0x28 24 = 0 → fieldOf D 0x0A 1 < 8 → 4 ≤ fieldOf D 8 1 → fieldOf D 8 1 ≤ 16 →
      fieldOf D 9 1 ≤ 7 → fieldOf D 0x0B 1 ≤ 3 → v.toNat < 2 ^ 32 → (v.toNat + 2 ^ 32 - fieldOf D 0x10 4) % 2 ^ 32 ≤ 2 ^ fieldOf D 8 1 →
      (s.residentOn (fieldOf D 0x0B 1)).length < 4096 →
      ∃ t q', exec (.queueSwapIn h) s = .next t ∧ t = { s' with queues := t.queues } ∧ t.queue h = some q' ∧ q' = { q with
        old := q'.old, resident := true, ring := .ofNat 64 (fieldOf D 0 8), lcap := fieldOf D 8 1, prio := fieldOf D 9 1, valid := (fieldOf D 0x0A 1).testBit 0
        sup := (fieldOf D 0x0A 1).testBit 1, err := (fieldOf D 0x0A 1).testBit 2, home := fieldOf D 0x0B 1, head := fieldOf D 0x10 4, tail := v.toNat
        stkb := .ofNat 64 (fieldOf D 0x18 8), stkl := fieldOf D 0x20 8, touches := [] })

/-- R366, R368: an accepted NOP has no effect; a BARRIER or FENCE holds the later records back; a SIGNAL is stored at once where no task
of its queue lives and else stays to be performed; a WAITVAL holds the later records back until the 8 bytes are at least its value; a COPY
is to be performed, and its completion moves its bytes in ascending order; a BOOK stores at its result the start a search finds, in the
quantum after next where only units are asked for and no booking stands. -/
def Obligations.RecordsTakeEffectAtAcceptance : Prop :=
  ∀ (s s' u : State) (h : Nat) (q : WorkQueue) (p : Place) (D : Nat), let ag := queueAgent q h 4096; let w := fun (off : Nat) => fieldOf D off 8
    let word := fun (off : Nat) => BitVec.ofNat 64 (w off)
    let takes := fun (i : Instr) (v : State) (hold : Hold) (pend : List Pending) =>
      ∃ t, exec i s = .next t ∧ t.mem = v.mem ∧ t.encTag = v.encTag ∧ Accepted s t h q hold pend
    let record := fun (kind use : Nat) => Accepts s s' h q p D kind use
    let live := (s.tasks.filter (fun e => e.2.handle == h && e.2.st != .ended)).map (·.1)
    (record 0 8 → takes (.nopRecord h) s' .none q.pend) ∧
    (record 2 8 → takes (.barrierRecord h) s' .barrier q.pend) ∧
    (record 7 8 → takes (.fenceRecord h) s' .fence q.pend) ∧
    (record 3 24 → w 8 % 8 = 0 → q.pend = [] →
      (live = [] → (∀ e ∈ s.unacked, e.2 ≠ 4096 + h) → s'.WritesFor ag 8 [(word 8, w 0x10)] u → takes (.signalRecord h) u .none []) ∧
      (live ≠ [] → rising s.tasks = true → takes (.signalRecord h) s' .none [.signal q.head (word 8) (word 0x10) live none])) ∧
    (record 4 24 → w 8 % 8 = 0 → q.tag = none → ∀ n, s'.ReadsFor ag 8 [(word 8, n)] u →
      takes (.waitvalRecord h) u (if w 0x10 ≤ n then .none else .waitval (word 8) (word 0x10)) q.pend) ∧
    (record 5 32 → w 0x18 ≤ 2 ^ 32 → takes (.copyRecord h) s' .none (q.pend ++ [.copy q.head (word 8) (word 0x10) (w 0x18) none])) ∧
    (∀ n src dst len, s.queue h = some q → q.pending n = some (.copy n src dst len none) → s.poison = [] → s.bad = [] → s.unacked = [] →
      s.CopiesBytes ag src dst len u → ∃ t, exec (.copyRecordComplete h n) s = .next t ∧ t = { u with queues := t.queues } ∧
        t.queue h = some { q with pend := q.pend.filter (fun x => x.number != n) }) ∧
    (record 6 32 → w 0x10 ≤ 255 → w 0x18 % 8 = 0 → w 8 % 64 = 0 → q.pend = [] → s.bookings = [] → ∀ (P : Nat) (es : List BookEntry) (v : State),
      s'.ReadsFor ag 8 (wordsAt (word 8) P (4 + 4 * es.length)) v → Profiles P 1 16 es → (∀ e ∈ es, e.cls ∈ [1, 2, 3] ∧ e.until_ ≤ 1022) →
      v.WritesFor ag 8 [(word 0x18, 8 * (s.cycle / 8 + 2))] u → takes (.bookRecord h) u .none [])

/-- R33, R367, R373, R383: a LAUNCH whose TCB is in order and which finds room takes the next submission number, writes it into the TCB and
enters the task: armed while its counter is not 0, else waiting, or ready where no earlier live task conflicts. A TCB outside its limits, a
supervisor TCB from a queue without SUP and a TCB VA that is not aligned are refused: the task ends at once, with the records of subcodes 1 and 5. -/
def Obligations.LaunchesEnterTheirTasks : Prop :=
  ∀ (s s' u v : State) (h : Nat) (q : WorkQueue) (p p' : Place) (D E : Nat), let ag := queueAgent q h 4096; let va := BitVec.ofNat 64 (fieldOf D 8 8)
    let T := Tcb.ofBytes (leBytes 128 E); let refused := [(queueFault 1 0 h va 0, q.ctx, none), (queueFault 5 0 h va 0, q.ctx, none)]
    Accepts s s' h q p D 1 16 → q.launchSeq = none →
    (fieldOf D 8 8 % 128 ≠ 0 → (s'.die q.home).frqb = none → (s'.die q.home).backlog = [] →
      ∃ t, exec (.launchRecord h) s = .next t ∧ t.mem = s'.mem ∧ t.seqNo = s.seqNo ∧ t.tasks = s.tasks ∧ t.drovers = s.drovers ∧
        (∃ q', t.queue h = some q' ∧ q' = { q with head := (q.head + 1) % 2 ^ 32, hold := .none, tag := none, fresh := q'.fresh }) ∧
        (t.die q.home).backlog = refused) ∧
    (fieldOf D 8 8 % 128 = 0 → s'.LandsFor ag .read va 128 u p' → u.number p'.key p'.pa 128 = E →
    s.task s.nextKey = none → (∀ m ∈ s.marks, m ≠ (q.ctx, va.toNat)) →
    (tcbBad (leBytes 128 E) q.stkl = false → T.sup = false ∨ q.sup = true → u.tableUse q.home + T.ranges.length ≤ 4096 →
      u.WritesFor ag 8 [(va + 0x78, s.seqNo)] v →
      ∀ n v', v.ReadsFor ag 2 [(va + 0x22, n)] v' →
      ∃ t x, exec (.launchRecord h) s = .next t ∧ t.mem = v.mem ∧ t.seqNo = s.seqNo + 1 ∧ t.drovers = s.drovers ∧ t.task s.nextKey = some x ∧
        (t.die q.home).accPtr = (h + 1) % 131072 ∧ (∃ q', t.queue h = some q' ∧ q'.head = (q.head + 1) % 2 ^ 32) ∧
        x.seq = s.seqNo ∧ x.tcbVa = va ∧ x.tcb = T ∧ x.ctx = q.ctx ∧ x.handle = h ∧ x.die = q.home ∧
        T.entry = .ofNat 64 (fieldOf E 0 8) ∧ T.args = .ofNat 64 (fieldOf E 8 8) ∧ T.cores = fieldOf E 0x10 2 ∧ T.drovers = fieldOf E 0x12 1 ∧
        (n ≠ 0 → x.st = .armed) ∧ (n = 0 → s.tasks = [] → x.st = .ready) ∧ (n = 0 → x.st = .ready ∨ x.st = .waiting)) ∧
    (tcbBad (leBytes 128 E) q.stkl = true ∨ T.sup = true ∧ q.sup = false → T.succVa = 0 → s.bookings = [] → s.flocks = [] →
      (u.die q.home).frqb = none → (u.die q.home).backlog = [] →
      ∃ t x, exec (.launchRecord h) s = .next t ∧ t.mem = u.mem ∧ t.seqNo = s.seqNo ∧
        t.task s.nextKey = some x ∧ (x.st = .ended ∨ T.succ = true ∧ x.st = .ending) ∧ x.aborted = true ∧ x.ranges = false ∧ t.drovers = s.drovers ∧
        (t.die q.home).backlog = refused))

/-- R31, R32, R35, R377 to R379: the dispatcher starts the first ready task that a placement admits: alone in the package, at the mesh's
origin in the rectangle of its mode, filled row by row; every drover begins issuing at the entry with g2 to g7 as R35 has them and every
other register 0. A first ready task that has waited 65,536 cycles is aged, and no task of its priority or a lower one starts before it. A booked task starts at the boundary of its
booked quantum, its first drover holding the booking in ST 3. -/
def Obligations.ReadyTasksStartTheirFlocks : Prop :=
  ∀ (s : State) (id : Nat) (T : Task) (q : WorkQueue) (w stk : Nat), let B := T.tcb
    let begins := fun (t : State) (key i ord : Nat) => let e := t.drover key; let n := i * B.drovers + ord
      e.state = .issuing ∧ e.pc = B.entry ∧ e.flock = s.nextFlock ∧ e.ctx = T.ctx ∧ e.index = n ∧ e.fcore = i ∧ e.tr.sup = B.sup ∧ e.vec = Vec.reset ∧
      e.lgm = 0 ∧ e.rowsAlloc = 8 * B.rows8 ∧ e.lgMin = B.lgMin ∧ e.lgMax = B.lgMax ∧
      ∀ r, e.getG r = if r = 2 then .ofNat 64 (stk + (n + 1) * B.stack) else if r = 3 then B.args else if r = 4 then .ofNat 64 n
        else if r = 5 then .ofNat 64 (B.cores * B.drovers) else if r = 6 then .ofNat 64 i else if r = 7 then .ofNat 64 T.seq else 0
    (s.tasks = [(id, T)] → T.st = .ready → T.blocked = false → T.tryAt ≤ s.cycle → s.drovers = [] → s.flocks = [] → s.bookings = [] → s.cores = [] →
      s.queue T.handle = some q → q.stackBlocks = [] → q.stkb.toNat = stk → B.bookVa = 0 →
      1 ≤ B.cores → B.cores ≤ 256 → 1 ≤ B.drovers → B.drovers ≤ 8 → B.drovers * B.lgMin ≤ 16 → B.drovers * B.accs ≤ 16 → B.tmem ≤ 0x400000 →
      B.cores * B.drovers * B.stack ≤ q.stkl →
      (B.place = 0 ∧ B.cores ≤ w * w ∧ (w - 1) * (w - 1) < B.cores) ∨ (B.place = 2 ∧ w = Nat.min 16 B.cores) →
      ∃ t, exec .flockDispatch s = .next t ∧ t.mem = s.mem ∧ t.nextFlock = s.nextFlock + 1 ∧ (∃ T', t.task id = some T' ∧ T'.st = .running ∧ T'.flock = s.nextFlock) ∧
        (∀ i < B.cores, ∀ ord < B.drovers, begins t (8 * coreAt (i % w) (i / w) + ord) i ord) ∧ t.drovers.length = B.cores * B.drovers) ∧
    (∀ rest, s.readyOrder = (id, T) :: rest →
      (T.readyAt + 65536 ≤ s.cycle → exec .readyAgeExpiry s = .next (s.setTask id { T with aged := true })) ∧
      (s.cycle < T.readyAt + 65536 → exec .readyAgeExpiry s = .next s)) ∧
    (∀ j x, rising s.tasks = true → s.task id = some T → T.st = .ready → T.aged = false → s.cycle < T.readyAt + 65536 → s.task j = some x →
      x.seq ≠ T.seq → x.aged = true → (x.st = .ready ∨ ∃ n, x.st = .held n) → x.tcb.prio ≤ T.tcb.prio → (∀ e ∈ s.tasks, e.2.tcb.bookVa = 0) →
      ∃ t T', exec .flockDispatch s = .next t ∧ t.task id = some T' ∧ T'.st = .ready) ∧
    (∀ (c : Nat) (b : Booking), s.tasks = [(id, T)] → T.st = .held ((s.cycle + 1) / 8) → (s.cycle + 1) % 8 = 0 → T.stack = some (stk, B.stack) → T.place = [c] →
      B.cores = 1 → B.drovers = 1 → s.drovers = [] → s.flocks = [] → s.queues = [] → s.cores = [] → c < 256 → B.tmem ≤ 0x400000 →
      s.bookings = [b] → b.task = some id → b.owner = none → b.core = c → b.start = (s.cycle + 1) / 8 →
      ∃ t, exec (.bookedFlockStart id) s = .next t ∧ t.cycle = s.cycle + 1 ∧ t.mem = s.mem ∧ begins t (8 * c) 0 0 ∧
        (t.drover (8 * c)).bks.st = 3 ∧ (t.drover (8 * c)).bks.start = .ofNat 64 (s.cycle + 1) ∧
        t.bookings = [{ b with owner := some (8 * c), task := none, started := true }])

/-- R37, R376, R381: once its drovers have exited and no write of theirs is unacknowledged, a task's completion releases its flock, stores
the completion value at its signal VA (here in HBM, where the store is performed as it is made), retires its ranges, decrements its successors in list order and ends; a task that only its ranges
held back becomes ready. -/
def Obligations.TasksEndInOrder : Prop :=
  ∀ (s u : State) (id : Nat) (T : Task) (F : Flock), let keys := s.flockKeys T.flock
    s.task id = some T → T.st = .ending → T.blocked = false → T.stage = 0 → T.aborted = false → T.stored = false → rising s.tasks = true → rising s.drovers = true →
    rising s.flocks = true → s.queues = [] → s.flock T.flock = some F → (∀ k ∈ keys, ∀ e ∈ s.unacked, e.2 ≠ k) →
    let ended := fun (v : State) => ∃ t, exec (.flockCompletion id) s = .next t ∧ t.mem = v.mem ∧
      (∃ T', t.task id = some T' ∧ T'.st = .ended ∧ T'.ranges = false) ∧ t.flock T.flock = none ∧ (∀ k ∈ keys, assocGet t.drovers k = none) ∧
      (∀ k, k ∉ keys → t.drover k = s.drover k) ∧ (∀ c ∈ F.cores, ∀ e ∈ (t.core c).tiles, e.2.flock ≠ T.flock) ∧
      ((∀ e ∈ s.tasks, e.1 ≠ id → e.2.ranges = false) → ∀ j x, j ≠ id → s.task j = some x → x.st = .waiting → ∃ x', t.task j = some x' ∧ x'.st = .ready)
    let v := s.releaseFlock T.flock
    (T.tcb.sigVa = 0 → T.tcb.succVa = 0 → ended v) ∧
    (T.tcb.sigVa ≠ 0 → T.tcb.succVa = 0 → (∀ e ∈ s.unacked, e.2 ≠ 2048) → v.WritesFor T.agent 8 [(T.tcb.sigVa, T.tcb.sigVal.toNat)] u → ended u) ∧
    (T.tcb.sigVa = 0 → T.tcb.succVa ≠ 0 → ∀ (x : Word) (u1 u2 u3 u4 : State) (p : Place) (n : Nat), x.toNat % 128 = 0 →
      (∀ e ∈ s.tasks, e.2.st ≠ .armed) → 1 ≤ n → v.ReadsFor T.agent 8 [(T.tcb.succVa, 1)] u1 → u1.ReadsFor T.agent 8 [(T.tcb.succVa + 8, x.toNat)] u2 →
      u2.LandsFor T.agent (.amo none) (x + 0x22) 2 u3 p → u3.number p.key p.pa 2 = n → u4 = u3.putBytes p.key p.pa (leBytes 2 (n - 1)) → ended u4)

/-- R437, R438: COMMAND_COMPLETION shows a command's CODE and RES, clears BUSY and raises what its source is mapped to; a DOORBELL before
READY or while BUSY changes nothing; a command marked for the PF gives a VF CODE 2; a context that does not exist or that another function
created gives CODE 2 to a VF, and one that does not exist CODE 1 to the PF (the model's choice, log 37); an opcode of no command gives
CODE 1. A write to CMD replaces its bytes. -/
def Obligations.CommandsRunOneAtATime : Prop :=
  ∀ (s : State) (n : Nat), let f := s.fn n
    (f.busy = true → ∃ t, exec (.commandCompletion n) s = .next t ∧ t = { s with mgmt := t.mgmt } ∧
      t.fn n = { f with busy := false, code := f.pendCode, res := f.pendRes } ∧ (∀ k, k ≠ n → t.fn k = s.fn k) ∧
      t.mgmt = { s.mgmt with fns := t.mgmt.fns, msix := s.mgmt.msix ++ (s.mgmt.irqMap.filter (fun e => e.1 = 5)).map (fun e => e.2.1) }) ∧
    (f.busy = false → exec (.commandCompletion n) s = .next s) ∧
    (∀ i only, commandBy i = some (n, only) →
      (s.mgmt.ready = false ∨ 32 < n ∨ f.busy = true → exec i s = .next s) ∧
      (only = true → n ≠ 0 → Commands i s n s 2 0) ∧
      (∀ c, commandOn i = some c →
        (s.context c.toNat = none → Commands i s n s (if n = 0 then 1 else 2) 0) ∧
        (∀ x, s.context c.toNat = some x → n ≠ 0 → x.fn ≠ n → Commands i s n s 2 0))) ∧
    (∀ (off k : Nat) (v : Word), s.mgmt.ready = true → n ≤ 32 → 0x40 ≤ off → off + k ≤ 0x80 → k ≤ 8 →
      ∃ t, exec (.registerWrite none n off k v) s = .next t ∧ t = s.setFn n { f with cmd := (t.fn n).cmd } ∧
        ∀ j < 64, (t.fn n).cmd.toNat / 256 ^ j % 256 =
          if off ≤ 0x40 + j ∧ 0x40 + j < off + k then v.toNat / 256 ^ (0x40 + j - off) % 256 else f.cmd.toNat / 256 ^ j % 256) ∧
    (∀ (k : Nat) (v : Word), 1 ≤ k → f.cmd.toNat % 256 = 0 ∨ 18 < f.cmd.toNat % 256 → Commands (.registerWrite none n 0x80 k v) s n s 1 0) ∧
    ∀ (die off : Nat) (v : Word), die < 4 → 
      (off = 0 → exec (.registerWrite (some die) n off 8 v) s = exec (.verd die v) s) ∧
      (off = 0x08 → v.toNat < 2 ^ 56 → v.toNat % 4096 = 0 →
        exec (.registerWrite (some die) n off 8 v) s = .next (s.setDie die { s.die die with inva := v })) ∧
      (off = 0x10 → exec (.registerWrite (some die) n off 8 v) s = exec (.invb die v) s) ∧
      (off = 0x20 → exec (.registerWrite (some die) n off 8 v) s = exec (.headWrite die v) s) ∧
      (off ∉ [0, 0x08, 0x10, 0x20] → exec (.registerWrite (some die) n off 8 v) s = .next s)

/-- R364, R397, R427, R430, R434, R436, R438, R444, R450: what the commands that set registers of the package do, and CODE 1 for operands
that are malformed. SMRD reads a drover's registers and a block's, and nothing of a confidential context that is hidden; SMWR writes only
a drover halted for debug. -/
def Obligations.CommandsSetTheirRegisters : Prop :=
  ∀ (s : State) (n : Nat) (a b c : Word), let lo := fun (w : Word) => w.toNat
    -- QRANGE, FRQ, TRACE, PCAP, IRQMAP
    (lo a ≤ 32 → lo b + lo c ≤ 131072 → ∀ f, f = s.fn (lo a) → Commands (.qrange 0 a b c) s 0 (s.setFn (lo a) { f with ranges := f.ranges ++ [(lo b, lo c)] }) 0 0) ∧
    (32 < lo a ∨ 131072 < lo b + lo c → Commands (.qrange 0 a b c) s 0 s 1 0) ∧
    (lo a ≤ 3 → lo b % 65536 = 0 → isHbm (lo b) 65544 = true → (s.die (lo a)).backlog = [] →
      Commands (.frq 0 a b) s 0 (s.setDie (lo a) { s.die (lo a) with frqb := some (lo b) }) 0 0) ∧
    (3 < lo a ∨ lo b % 65536 ≠ 0 ∨ isHbm (lo b) 65544 = false → Commands (.frq 0 a b) s 0 s 1 0) ∧
    (isHbm (lo a) 0x10000000 = true → lo b ≤ 1 →
      Commands (.trace 0 a b) s 0 { s with trace := { s.trace with base := some (lo a), stop := decide (lo b = 1), pos := 0 } } 0 0) ∧
    (isHbm (lo a) 0x10000000 = false ∨ 1 < lo b → Commands (.trace 0 a b) s 0 s 1 0) ∧
    (lo a ≤ 3 → 300 ≤ lo b → lo b ≤ 700 → Commands (.pcap 0 a b) s 0 (s.setDie (lo a) { s.die (lo a) with pcap := lo b }) 0 0) ∧
    (3 < lo a ∨ lo b < 300 ∨ 700 < lo b → Commands (.pcap 0 a b) s 0 s 1 0) ∧
    (lo a ≤ 6 → lo b < 2048 → lo c ≤ 32 → Commands (.irqmap 0 a b c) s 0 { s with mgmt := { s.mgmt with
      irqMap := s.mgmt.irqMap.filter (fun e => !decide (e.1 = lo a ∧ e.2.2 = lo c)) ++ [(lo a, lo b, lo c)] } } 0 0) ∧
    (6 < lo a ∨ 2048 ≤ lo b ∨ 32 < lo c → Commands (.irqmap 0 a b c) s 0 s 1 0) ∧
    -- WINDOW, QBIND, QCLR
    (∀ x, s.owns n (lo a) x → Commands (.window n a b) s n (s.setFn n { s.fn n with bar4 := some (lo a, b) }) 0 0) ∧
    (∀ x, s.owns n (lo a) x →
      let hs := (List.range (lo c)).map (fun i => lo b + i)
      (lo b + lo c ≤ 131072 → (∀ h ∈ hs, s.reaches n h = true ∧ ∀ q, s.queue h = some q → q.ctx = lo a) →
        ∃ u, Commands (.qbind n a b c) s n u 0 0 ∧ u = { s with queues := u.queues } ∧
          ∀ h, (h ∈ hs → ∃ q, u.queue h = some q ∧ q.ctx = lo a ∧ (s.queue h = none → q.resident = false ∧ q.touches = [])) ∧
            (h ∉ hs ∨ (s.queue h).isSome = true → u.queue h = s.queue h)) ∧
      (lo b + lo c ≤ 131072 → (∃ h ∈ hs, s.reaches n h = false ∨ ∃ q, s.queue h = some q ∧ q.ctx ≠ lo a) → Commands (.qbind n a b c) s n s 2 0)) ∧
    (∀ q, s.queue (lo a) = some q → q.resident = true → (∀ e ∈ s.dies, e.2.awaited = [] ∧ e.2.backlog = []) → (n = 0 ∨ s.reaches n (lo a) = true) →
      Commands (.qclrCommand n a) s n (s.setQueue (lo a) { q with err := false, head := q.tail, launchRead := none, launchSeq := none, tag := none }) 0 0) ∧
    (n ≠ 0 → s.reaches n (lo a) = false → Commands (.qclrCommand n a) s n s 2 0) ∧
    -- SMRD, SMWR
    (∀ die core slot reg, die < 4 → core < 64 → slot < 8 → assignedSr reg = true → a = .ofNat 64 (die * 2 ^ 44 + srcDrover * 2 ^ 38 + (8 * core + slot) * 2 ^ 26 + 8 * reg) →
      let key := 512 * die + 8 * core + slot
      (s.hidden (s.drover key).ctx → ∃ u, Commands (.smrd 0 a) s 0 u 2 0 ∧ u = s.setFn 0 { s.fn 0 with cmd := (u.fn 0).cmd } ∧
        ∀ j < 8, (u.fn 0).cmd.toNat / 256 ^ (16 + j) % 256 = 0) ∧
      (¬ s.hidden (s.drover key).ctx → ∃ u, let v := s.srRead key reg
        Commands (.smrd 0 a) s 0 u 0 (v.toNat % 2 ^ 32) ∧ u = s.setFn 0 { s.fn 0 with cmd := (u.fn 0).cmd } ∧
        ∀ j < 64, (u.fn 0).cmd.toNat / 256 ^ j % 256 = if 16 ≤ j ∧ j < 24 then v.toNat / 256 ^ (j - 16) % 256 else (s.fn 0).cmd.toNat / 256 ^ j % 256) ∧
      (s.hidden (s.drover key).ctx → Commands (.smwr 0 a b) s 0 s 2 0) ∧
      (¬ s.hidden (s.drover key).ctx → (s.drover key).state ≠ .halted ∨ (s.drover key).dbgHalt = false → Commands (.smwr 0 a b) s 0 s 3 0) ∧
      (¬ s.hidden (s.drover key).ctx → (s.drover key).state = .halted → (s.drover key).dbgHalt = true →
        let writes := fun (e : Drover) => Commands (.smwr 0 a b) s 0 (s.setDrover key e) 0 0
        (reg = 0x302 → writes { s.drover key with tr := { (s.drover key).tr with fpc := b } }) ∧
        (reg = 0x322 → lo b % 4 ≤ 1 → writes { s.drover key with tr := { (s.drover key).tr with tvec := b } }) ∧
        (reg = 0x002 → lo b ≤ 1024 → writes { s.drover key with vec := { (s.drover key).vec with tl := lo b } }) ∧
        (reg = 0x310 ∨ reg = 0x330 → Commands (.smwr 0 a b) s 0 s 1 0))) ∧
    -- ATTEST
    (∀ nonce : List Byte, nonce.length = 32 → lo a < 2 ^ 48 → ∃ u, Commands (.attest n nonce a) s n u 0 0 ∧ u = { s with posted := u.posted } ∧
      ∃ sig : List Byte, sig.length = 96 ∧ u.posted = s.posted ++ ((leBytes 2 1 ++ leBytes 2 s.mgmt.lcs.code ++ leBytes 4 s.mgmt.fw ++
        leBytes 16 s.mgmt.device.toNat ++ nonce ++ leBytes 48 s.mgmt.meas.toNat ++ leBytes 8 s.mgmt.ucnt ++ sig).zipIdx.map
          (fun e => (0xF000000000000 + lo a + e.2, e.1))))

/-- R438, R445, R447, R449, R455: CTXNEW gives a number that named no context, CODE 1 to operands that are malformed and CODE 3 when every
number is taken; a confidential context's key is one no earlier one had. GRANT and UNLOCK act where their token verifies, else CODE 4.
UNLOCK aborts, wipes the keys, replaces the cache key, sets LCS to DEBUG and extends MEAS. -/
def Obligations.ContextsAreCreatedGrantedAndUnlocked : Prop :=
  ∀ (s : State) (n : Nat) (root qtab pool len conf : Word) (owner : Option (List Byte)) (l : List Byte), let nat := fun (w : Word) => w.toNat
    let sound := nat root % 4096 = 0 ∧ isHbm (nat root) 4096 = true ∧ (conf = 0 ∨ conf = 1 ∧ ∃ o, owner = some o ∧ o.length = 128)
    (sound → (∃ c, 1 ≤ c ∧ c ≤ 65535 ∧ s.context c = none) → ∃ u c x, Commands (.ctxnew n root qtab pool len conf owner) s n u 0 c ∧
      1 ≤ c ∧ c ≤ 65535 ∧ s.context c = none ∧ u = { s with ctxs := u.ctxs, nextCtx := s.nextCtx + 1, mgmt := u.mgmt } ∧
      u.context c = some x ∧ (∀ k, k ≠ c → u.context k = s.context k) ∧ u.mgmt = { s.mgmt with fns := u.mgmt.fns } ∧
      (∀ k, u.fn k = if k = n then { s.fn n with ctxs := (s.fn n).ctxs ++ [c] } else s.fn k) ∧
      x.root = nat root ∧ x.qtab = qtab ∧ x.pool = pool ∧ x.poolLen = nat len ∧ x.fn = n ∧ x.grantUntil = none ∧ (x.conf = true ↔ conf = 1) ∧
      (conf = 1 → owner = some x.owner ∧ x.key = s.nextCtx)) ∧
    (¬ sound → Commands (.ctxnew n root qtab pool len conf owner) s n s 1 0) ∧
    (sound → (∀ c, 1 ≤ c → c ≤ 65535 → s.context c ≠ none) → Commands (.ctxnew n root qtab pool len conf owner) s n s 3 0) ∧
    (∀ (a : Word) (c : Context), s.owns n (nat a) c →
      let good := c.conf = true ∧ l.length = 128 ∧ fieldAt l 0 1 = 1 ∧ fieldAt l 2 2 = nat a ∧ s.cycle < fieldAt l 8 8 ∧
        Config.p384Verify c.owner (l.take 32) (l.drop 32) = true
      (good → ∀ c', c' = { c with grantTren := fieldAt l 4 1, grantSlog := fieldAt l 5 1, grantUntil := some (fieldAt l 8 8) } →
        Commands (.grant n a (some l)) s n { s with ctxs := assocPut s.ctxs (nat a) c' } 0 0) ∧
      (¬ good → Commands (.grant n a (some l)) s n s 4 0) ∧ Commands (.grant n a none) s n s 4 0) ∧
    let good := l.length = 128 ∧ fieldAt l 0 1 = 1 ∧ fieldAt l 2 1 = 1 ∧ fieldAt l 8 16 = s.mgmt.device.toNat ∧ fieldAt l 0x18 8 = s.mgmt.ucnt ∧
      Config.p384Verify Config.debugKey (l.take 32) (l.drop 32) = true
    (good → ∃ u, Commands (.unlock 0 (some l)) s 0 u 0 0 ∧ u.mgmt.lcs = .debug ∧ u.mgmt.ucnt = s.mgmt.ucnt + 1 ∧
      u.mgmt.cacheKeyEpoch = s.mgmt.cacheKeyEpoch + 1 ∧ u.mgmt.keyEpoch = s.mgmt.keyEpoch ∧
      u.mgmt.meas = Config.sha384 (leBytes 48 s.mgmt.meas.toNat ++ leBytes 48 (Config.sha384 l).toNat) ∧
      (∀ k c, u.context k = some c → c.conf = true → c.key = 0) ∧
      (∀ k c, s.context k = some c → c.conf = false → u.context k = some c) ∧
      (s.tasks = [] → u = { s with ctxs := u.ctxs, mgmt := u.mgmt })) ∧
    (¬ good → Commands (.unlock 0 (some l)) s 0 s 4 0) ∧ Commands (.unlock 0 none) s 0 s 4 0

/-- R383, R386, R404, R406, R409, R458: CTXDEL unbinds the context's queues, ends its tasks, drops what its accesses awaited and its
translations, and the context is gone. PREEMPT halts every drover of the context that has not exited, with pc, registers, rectangle, latch, REPS
and CST kept, its lane groups released, and EPC, ESR.RST, ESR.REP and FPC written for its resumption; RESUME lets those that nothing else holds
issue again at EPC once their writes are performed, a suspended one wait on, and aborts a flock whose area fails its check with MEMUE. ABORT ends
a flock's task at the end of its cycle, with a QFAULT record of subcode 5; at a flock whose drovers have all exited it does nothing. -/
def Obligations.ContextsAreDeletedPreemptedAndAborted : Prop :=
  ∀ (s : State) (n : Nat) (a : Word) (c : Context), let ctx := a.toNat
    (s.owns n ctx c → rising s.tasks = true → rising s.queues = true → rising s.ctxs = true → ∃ u, Commands (.ctxdel n a) s n u 0 0 ∧ u.context ctx = none ∧ (∀ h q, u.queue h = some q → q.ctx ≠ ctx) ∧
      (∀ j T, u.task j = some T → T.ctx = ctx → T.st = .ended) ∧
      (∀ d, ∀ x ∈ (u.die d).awaited, x.ctx ≠ ctx) ∧ (∀ d, (∀ x ∈ (u.die d).tlb, x.ctx ≠ ctx) ∧ ∀ y ∈ (u.die d).tlb1, ∀ x ∈ y.2, x.ctx ≠ ctx) ∧ (∀ k, ctx ∉ (u.fn k).ctxs) ∧
      (s.tasks = [] → u = { s with queues := u.queues, dies := u.dies, marks := u.marks, ctxs := u.ctxs, mgmt := u.mgmt } ∧
        (∀ k, k ≠ ctx → u.context k = s.context k) ∧ ∀ h q, s.queue h = some q → q.ctx ≠ ctx → u.queue h = some q)) ∧
    (s.owns n ctx c → s.quietContext ctx →
      (∃ u, Commands (.preempt n a) s n u 0 0 ∧ u = { s with drovers := u.drovers } ∧ (∀ k, let d := s.drover k; let e := u.drover k
        (d.ctx ≠ ctx ∨ d.state = .exited → e = d) ∧
        (d.ctx = ctx → d.state ≠ .exited → assocGet s.drovers k ≠ none → e.state = .halted ∧ e.preempted = true ∧ e.pc = d.pc ∧ (∀ r, e.getG r = d.getG r) ∧
          e.vec = d.vec ∧ e.latch = d.latch ∧ e.reps = d.reps ∧ e.cst = d.cst ∧ e.bks = { d.bks with search := none } ∧
          (d.state = .halted ∨ d.susp ≠ none → e.tr = d.tr) ∧ (d.state ≠ .halted → e.lgm = 0) ∧
          (d.state ≠ .halted → d.susp = none → e.hold = some (d.tr.epc, d.tr.esr, d.tr.fpc) ∧
            e.tr = { d.tr with epc := d.pc, esr := e.tr.esr, fpc := if d.reps.go then d.pc + 4 else d.tr.fpc } ∧
            ∀ b < 64, e.tr.esr.getLsbD b = if b = 2 then d.partly else if b = 3 then d.reps.go || d.repResumes else d.tr.esr.getLsbD b)))) ∧
      ((∀ k, (s.drover k).ctx = ctx → assocGet s.drovers k ≠ none → (s.drover k).state = .halted ∧ (s.drover k).granted = false ∧ (s.drover k).cst.rs = false) →
        ∃ u, Commands (.resume n a []) s n u 0 0 ∧ u = { s with drovers := u.drovers, tasks := u.tasks } ∧
        (∀ k, let d := s.drover k; let e := u.drover k; let st := if d.wait = none then DroverState.issuing else .awaiting
          (d.ctx ≠ ctx → e = d) ∧
          (d.ctx = ctx → assocGet s.drovers k ≠ none →
            (d.dbgHalt = true ∨ (∃ x ∈ s.unacked, x.2 = k) → e = { d with preempted := false }) ∧
            (d.dbgHalt = false → (∀ x ∈ s.unacked, x.2 ≠ k) →
              (d.susp = none → d.hold = none → e = { d with preempted := false, state := st }) ∧
              (∀ epc esr fpc, d.susp = none → d.hold = some (epc, esr, fpc) → let rst := d.tr.esr.getLsbD 2
                e = { d with
                  preempted := false, state := st, hold := none, pc := d.tr.epc, tr := { d.tr with epc := epc, esr := esr, fpc := fpc }
                  restart := if rst then d.restart else 0, again := d.again || rst, repBack := d.tr.esr.getLsbD 3, reps := { d.reps with go := false } }) ∧
              (d.susp ≠ none → (∃ p ∈ d.pending, ∀ x ∈ d.answers, x.1 ≠ p.1) → e = { d with preempted := false, state := .trapped })))))) ∧
    (∀ (F : Nat) (fl : Flock) (T : Task), a = .ofNat 64 F → F < 2 ^ 32 → s.flock F = some fl → s.owns n fl.ctx c → s.context fl.ctx = some c → fl.ctx < 2 ^ 16 →
      Commands (.abort n a) s n (s.setFlock F { fl with abortAsked := true }) 0 0 ∧
      (s.Ends F fl T →
        (∀ w, w = BitVec.ofNat 64 fl.ctx → (∀ k, (s.drover k).ctx = fl.ctx → assocGet s.drovers k ≠ none → k ∈ s.flockKeys F) → s.flockKeys F ≠ [] →
          (∀ k ∈ s.flockKeys F, (s.drover k).ctx = fl.ctx) → ∃ u, Commands (.resume n w [F]) s n u 0 0 ∧ FlockGone s u F fl T 8))) ∧
    (∀ (F : Nat) (fl : Flock) (T : Task), s.flock F = some fl → fl.abortAsked = true → (∀ e ∈ s.flocks, e.2.abortAsked = true → e.1 = F) → (s.cycle + 1) % 8 = 0 →
      (s.Ends F fl T → s.tasks = [(fl.task, T)] → (∀ e ∈ s.drovers, e.2.flock = F) →
        ∃ u, exec .quantumBoundary s = .next u ∧ FlockGone s u F fl T 0) ∧
      (fl.ending = true → rising s.flocks = true → s.tasks = [] → s.queues = [] → s.drovers = [] →
        ∃ u, exec .quantumBoundary s = .next u ∧ u.mem = s.mem ∧ u.flock F = some { fl with abortAsked := false })) ∧
    (s.flock ctx = none → Commands (.abort n a) s n s 1 0)

/-- R434, R443: a BAR4 read of a function with a bound context gives the bytes at WBASE plus its offset; it is refused outside the window,
with no context bound and where a page refuses it, reads 0 before READY, and has the poisoned-data indication at a poisoned line. A BAR4
write stores its bytes, each where its own page admits it; before READY, or with no context bound, nothing. R435, R439, R440: the host's
and a peer's answers reach the oldest request they match; a peer's write, read and send act on registered memory, and where a queue pair
is in error or nothing is registered they do not; acknowledgements free the oldest writes of their queue pair, and a CHWAIT
that waited for no more than its run's writes resumes; an error fails its
outstanding reads. -/
def Obligations.TheHostAndPeersAreServed : Prop :=
  (∀ (s s' : State) (fn off n ctx : Nat) (base : Word) (l : List Byte) (p : Place) (f : FaultInfo), let va := base + .ofNat 64 off
     (s.mgmt.ready = false → exec (.hostWindowRead fn off n) s = .next (s.answers (.data (List.replicate n 0))) ∧ exec (.hostWindowWrite fn off l) s = .next s) ∧
     (s.mgmt.ready = true → (s.fn fn).bar4 = none →
       exec (.hostWindowRead fn off n) s = .next (s.answers .refused) ∧ exec (.hostWindowWrite fn off l) s = .next s) ∧
     (s.mgmt.ready = true → (s.fn fn).bar4 = some (ctx, base) →
       (2 ^ 36 < off + n → exec (.hostWindowRead fn off n) s = .next (s.answers .refused)) ∧
       (2 ^ 36 < off + l.length → exec (.hostWindowWrite fn off l) s = .next s) ∧
       (off + n ≤ 2 ^ 36 → s.BarReads ctx va l s' → l.length = n → exec (.hostWindowRead fn off n) s = .next (s'.answers (.data l))) ∧
       (off + n ≤ 2 ^ 36 → 0 < n → s.locate (barAgent ctx) .read va 1 = .error (s', f) → exec (.hostWindowRead fn off n) s = .next (s.answers .refused)) ∧
       (off + 1 ≤ 2 ^ 36 → s.locate (barAgent ctx) .read va 1 = .ok (s', p) →
         (p.pte.getLsbD 6 = false ∨ isHbm p.pa 1 = false → exec (.hostWindowRead fn off 1) s = .next (s.answers .refused)) ∧
         (p.pte.getLsbD 6 = true → isHbm p.pa 1 = true → s'.lineBad (p.pa / 64) = true →
           ∃ t, exec (.hostWindowRead fn off 1) s = .next t ∧ t = { s' with served := s'.served ++ [.poisoned], poison := t.poison, bad := t.bad } ∧
             p.pa / 64 ∈ t.poison)) ∧
       (off + l.length ≤ 2 ^ 36 → s.BarWrites ctx va l s' → exec (.hostWindowWrite fn off l) s = .next s'))) ∧
  (∀ (s : State) (qp pa n : Nat) (data : Option Nat) (l : List Byte),
     (isHost pa = true ∨ isScaleOut pa = true → ∀ i, i = (if isHost pa = true then Instr.hostCompletion pa n data else .rdmaReadResponse pa n data) →
       (∀ (a b : List OutReq) (r : OutReq), s.reqs = a ++ r :: b → r.pa = pa → r.n = n → (∀ x ∈ a, x.pa ≠ pa ∨ x.n ≠ n) → r ∉ a →
         exec i s = .next { s with reqs := a ++ b, reps := s.reps ++ [⟨r.who, r.flock, pa, n, r.kind, data⟩] }) ∧
       ((∀ x ∈ s.reqs, x.pa ≠ pa ∨ x.n ≠ n) → exec i s = .next s)) ∧
     (isHost pa = false → exec (.hostCompletion pa n data) s = .next s) ∧ (isScaleOut pa = false → exec (.rdmaReadResponse pa n data) s = .next s) ∧
     (s.opened qp pa l.length → s.poison = [] → s.bad = [] → s.soft = [] → ∃ t, exec (.rdmaWriteIn qp pa l) s = .next t ∧ t = { s with mem := t.mem, encTag := t.encTag } ∧
       (∀ j b, l[j]? = some b → t.viewByte 0 (pa + j) = b) ∧ ∀ x, x < pa ∨ pa + l.length ≤ x → t.byte x = s.byte x ∧ ∀ k, t.viewByte k x = s.viewByte k x) ∧
     (s.opened qp pa l.length → 0 < l.length → pa % 64 + l.length ≤ 64 → s.lineBad (pa / 64) = true → l.length < 64 →
       ∃ t, exec (.rdmaWriteIn qp pa l) s = .next t ∧ t = { s with poison := t.poison, bad := t.bad } ∧ pa / 64 ∈ t.poison) ∧
     (¬ s.opened qp pa l.length → exec (.rdmaWriteIn qp pa l) s = .next s) ∧
     (s.opened qp pa n → (∀ x ∈ linesOf pa n, s.Sound x) →
       ∃ l, exec (.rdmaReadIn qp pa n) s = .next (s.answers (.data l)) ∧ l.length = n ∧ ∀ j < n, l[j]? = some (s.viewByte 0 (pa + j))) ∧
     (s.opened qp pa n → (∃ x ∈ linesOf pa n, s.lineBad x = true) →
       ∃ t, exec (.rdmaReadIn qp pa n) s = .next t ∧ t = { s with served := s.served ++ [.poisoned], poison := t.poison, bad := t.bad }) ∧
     (¬ s.opened qp pa n → exec (.rdmaReadIn qp pa n) s = .next (s.answers .refused)) ∧
     (qp ∉ s.qpErr → exec (.rdmaSendIn qp l) s = .next { s with sends := s.sends ++ [(qp, l)] }) ∧
     (qp ∈ s.qpErr → exec (.rdmaSendIn qp l) s = .next s) ∧
     (∃ t, exec (.rdmaAck qp n) s = .next t ∧ t = { s with unacked := t.unacked, drovers := t.drovers } ∧
       ((∀ e ∈ s.drovers, e.2.wait ≠ some .chain) → t.drovers = s.drovers) ∧
       ((∀ e ∈ s.drovers, e.2.granted = false) → ∀ k, (s.drover k).wait ≠ some .chain ∨ (s.drover k).cst.run = true ∨ (∃ e ∈ t.unacked, e.2 = k) →
         t.drover k = s.drover k) ∧
       (rising s.drovers = true → ∀ k, assocGet s.drovers k ≠ none → (s.drover k).state = .awaiting → (s.drover k).wait = some .chain →
         (s.drover k).cst.run = false → (s.drover k).cst.rs = false → (∀ e ∈ t.unacked, e.2 ≠ k) → (t.drover k).state = .issuing ∧ (t.drover k).wait = none) ∧
       t.unacked.filter (fun e => e.1 != qp) = s.unacked.filter (fun e => e.1 != qp) ∧
       t.unacked.filter (fun e => e.1 == qp) = (s.unacked.filter (fun e => e.1 == qp)).drop n) ∧
     exec (.congestionNotification qp) s = .next { s with cnps := s.cnps + 1 } ∧
     (∃ t, exec (.queuePairError qp) s = .next t ∧ t = { s with qpErr := t.qpErr, reqs := t.reqs, reps := t.reps } ∧
       (∀ x, x ∈ t.qpErr ↔ x = qp ∨ x ∈ s.qpErr) ∧
       let mine := fun (r : OutReq) => isScaleOut r.pa && decide (r.pa / 2 ^ 36 % 4096 = qp)
       t.reqs = s.reqs.filter (fun r => !mine r) ∧ t.reps = s.reps ++ (s.reqs.filter mine).map (fun r => ⟨r.who, r.flock, r.pa, r.n, r.kind, none⟩)))

/-- R397, R400 to R403: a VERD whose tag awaits no verdict, or with a reserved field, changes nothing; RETRY lets a suspended drover issue
its access again and a transfer go on, DENY has the drover take its trap and aborts the transfer, with its tile EMPTY and in error. A HEAD
in order frees ring room, and a record held back is then written where its number has it, and TAIL after it. An invalidation completes in
its turn, once no access sent out is outstanding, and drops what it covers. -/
def Obligations.VerdictsAndInvalidationsAct : Prop :=
  ∀ (s : State) (n key ch id e : Nat) (v : Word) (a : Awaited) (t : Trap) (f : FaultInfo) (T : Transfer) (x : Tile),
    let dd := s.die n; let d := s.drover key; let w := v.toNat; let home := coreOf key
    let freed := s.setDie n { dd with awaited := [] }
    let engine := assocGet (s.core home).tiles T.tile = some x ∧ x.pend = some (key, ch, id) ∧ (s.core home).transfers = [T] ∧ T.drv = key ∧ T.ch = ch ∧
      T.id = id ∧ T.left = [home] ∧ a.who = [.transfer key ch id]
    (2 ^ 33 ≤ w ∨ (∀ x ∈ dd.awaited, x.tag ≠ w % 2 ^ 32) → exec (.verd n v) s = .next s) ∧
    (dd.awaited = [a] → a.tag = w % 2 ^ 32 → w < 2 ^ 33 →
      (a.who = [.drover key] → d.state = .trapped → d.susp = some t → d.pending = [(e, f)] → d.answers = [] → a.region = f.va.toNat / 4096 →
        (w < 2 ^ 32 → exec (.verd n v) s = .next (freed.setDrover key { d with
          state := .issuing, susp := none, pending := [], answers := [], stall := none
          resume := d.resume || !(t.ex && t.fpc == t.epc), again := d.again || !(t.ex && t.fpc == t.epc) })) ∧
        (2 ^ 32 ≤ w → key = s.sel → d.handles → t.cause = f.cause → t.icause = 0 → t.elem = none → t.partway = false → t.chb = false → t.ex = false →
          t.posted = true → t.rep = d.reps.go → f.cause ∈ [6, 7] →
          ∃ u, exec (.verd n v) s = .next u ∧ Enters freed u f.cause (.ofNat 64 (f.cause + (if f.wr then 0x10000 else 0) + 0x40000)) f.va 0
            (d.status false false) (t.epc &&& 0xFFFFFFFFFFFFFFFC) t.fpc)) ∧
      (engine →
        (w < 2 ^ 32 → exec (.verd n v) s = .next (freed.setCore home { s.core home with transfers := [{ T with tag := none }] })) ∧
        (2 ^ 32 ≤ w → T.kind ≠ .cpyout → ch < 4 → d.wait = none → s.tren T.flock 3 = false →
          ∃ u, exec (.verd n v) s = .next u ∧ Watermark d (u.drover key) ch id ∧ u.mem = s.mem ∧ (u.core home).transfers = [] ∧
            assocGet (u.core home).tiles T.tile = some { x with st := .empty, err := true, pend := none }))) ∧
    ((w < 2 ^ 32 → (w + 2 ^ 32 - dd.head % 2 ^ 32) % 2 ^ 32 ≤ (dd.tail + 2 ^ 32 - dd.head % 2 ^ 32) % 2 ^ 32 →
        (dd.backlog = [] → exec (.headWrite n v) s = .next (s.setDie n { dd with head := w })) ∧
        (∀ r ctx q base, dd.backlog = [(r, ctx, q)] → dd.frqb = some base → isHbm base 65544 = true → (dd.tail + 2 ^ 32 - w) % 2 ^ 32 < 1024 →
          dd.tail < 2 ^ 32 → (∀ c, s.context ctx = some c → c.conf = false) → q = none →
          ∃ u, exec (.headWrite n v) s = .next u ∧ u = { s with mem := u.mem, encTag := u.encTag, dies := u.dies, mgmt := u.mgmt } ∧
            (u.die n).backlog = [] ∧ (u.die n).head = w ∧ (u.die n).tail = (dd.tail + 1) % 2 ^ 32 ∧
            u.number 0 (base + 64 * (dd.tail % 1024)) 64 = leNat (r.bytes dd.tail) ∧ u.number 0 (base + 65536) 8 = (dd.tail + 1) % 2 ^ 32 ∧
            (∀ y, (y < base + 64 * (dd.tail % 1024) ∨ base + 64 * (dd.tail % 1024) + 64 ≤ y) → (y < base + 65536 ∨ base + 65544 ≤ y) → u.byte y = s.byte y))) ∧
      (2 ^ 32 ≤ w ∨ (dd.tail + 2 ^ 32 - dd.head % 2 ^ 32) % 2 ^ 32 < (w + 2 ^ 32 - dd.head % 2 ^ 32) % 2 ^ 32 → exec (.headWrite n v) s = .next s)) ∧
    (2 ^ 34 ≤ w → exec (.invb n v) s = .next s) ∧
    (w < 2 ^ 34 → exec (.invb n v) s = .next (s.setDie n { dd with
      invStarted := dd.invStarted + 1
      invals := dd.invals ++ [{ k := dd.invStarted + 1, ctx := w % 2 ^ 16, all := v.getLsbD 32, vpn := bits dd.inva 12 44, np := bits v 16 16 + 1
                                pkg := v.getLsbD 33 }] })) ∧
    (∀ i rest, dd.invals = i :: rest → 
      (s.unacked ≠ [] ∨ s.reqs ≠ [] → exec (.invalidationComplete n) s = .next s) ∧
      (s.unacked = [] → s.reqs = [] → rising s.dies = true → ∃ u, exec (.invalidationComplete n) s = .next u ∧ u = { s with dies := u.dies } ∧
        (u.die n).invDone = i.k % 2 ^ 32 ∧ (u.die n).invals = rest ∧
        ∀ m y, let covered := (i.pkg = true ∨ m = n) ∧ y.ctx = i.ctx ∧ (i.all = true ∨ y.vpn < i.vpn + i.np ∧ i.vpn < y.vpn + y.pages)
          (y ∈ (u.die m).tlb ↔ y ∈ (s.die m).tlb ∧ ¬ covered) ∧
          ∀ k, (∃ l, (k, l) ∈ (u.die m).tlb1 ∧ y ∈ l) ↔ (∃ l, (k, l) ∈ (s.die m).tlb1 ∧ y ∈ l) ∧ ¬ covered)) ∧
    (dd.invals = [] → exec (.invalidationComplete n) s = .next s)

/-- R224, R366, R397: an engine's access whose page is not mapped or does not admit it posts a record that names it and awaits a verdict,
and the transfer stays with its tile as it was; an access that does not fail leaves everything as it was. -/
def Obligations.EngineFaultsArePosted : Prop :=
  ∀ (s s' : State) (key ch id : Nat) (T : Transfer) (f : FaultInfo), let home := coreOf key; let die := dieOfCore home
    let ag := s.engineOf key ch id T.sup; let va := BitVec.ofInt 64 (T.desc.place 0)
    s.transferOf key ch id = some T → T.drv = key → T.ch = ch → T.id = id → T.tag = none → s.bookings = [] → T.kind = .cpyin → 0 < T.nrows → T.desc.c.length = 4 →
    (∀ k < 4, T.desc.c.getD k 1 ≠ 0) → T.desc.inside 0 = true → 0 ≤ T.desc.place 0 → T.desc.place 0 < 2 ^ 64 → T.desc.esz ∈ [1, 2, 4, 8] →
    (s.locate ag .read va T.desc.esz = .error (s', f) → f.cause = 7 ∨ f.cause = 6 ∧ f.sub ≠ 0 → (s'.die die).frqb = none → (s'.die die).awaited = [] →
      ∃ t r, exec (.engineAccessFault (.transfer key ch id)) s = .next t ∧ t.mem = s'.mem ∧ t.drovers = s'.drovers ∧
        (t.core home).tiles = (s'.core home).tiles ∧ (t.core home).tmem = (s'.core home).tmem ∧
        (t.core home).transfers = (s'.core home).transfers.map (fun y => if y.drv == key && y.ch == ch && y.id == id then { T with tag := some 0 } else y) ∧
        (t.die die).backlog = (s'.die die).backlog ++ [(r, T.ctx, some (.transfer key ch id))] ∧
        r.cause = f.cause ∧ r.sub = f.sub ∧ r.va = f.va ∧ r.flg = 4 + (if f.wr then 1 else 0) + 16 + (if f.dk then 32 else 0) ∧ r.pcore = home ∧
        r.slot = slotOf key ∧ r.flock = T.flock ∧ r.aux = .ofNat 64 (id + ch * 2 ^ 48)) ∧
    (∀ (val : Nat → Nat), (∀ n < T.nrows * T.desc.c.getD 0 1, T.desc.inside n = true → 0 ≤ T.desc.place n ∧ T.desc.place n < 2 ^ 64) →
      s.ReadsFor ag T.desc.esz (((List.range (T.nrows * T.desc.c.getD 0 1)).filter T.desc.inside).map (fun n => (.ofInt 64 (T.desc.place n), val n))) s' →
      T.nrows ≤ T.desc.c.getD 1 1 * T.desc.c.getD 2 1 * T.desc.c.getD 3 1 → exec (.engineAccessFault (.transfer key ch id)) s = .next s)

/-- R428, R429, R442, R443, R448, R455: power-on measures the firmware and starts bring-up, which ends in READY or ERR; a cold reset
leaves the reset state with bring-up begun, from DEBUG with the lifecycle in PRODUCTION and fresh keys, and with firmware, identifier and
unlock count kept; scrubbing poisons and counts lines with uncorrectable errors,
and corrects and counts the others; a snapshot latches every core's cycle count under the
next number and changes no state a program observes; a lockstep mismatch reports it and halts every drover for debug. -/
def Obligations.ThePackageStartsResetsAndIsWatched : Prop :=
  ∀ (s : State) (ok : Bool) (issuer k : Nat) (va x y : Word), let m := s.mgmt
    (m.ready = true ∨ m.err = true ∨ m.booting = true → exec .powerOn s = .next s) ∧
    (m.ready = false → m.err = false → m.booting = false →
      ∃ t, exec .powerOn s = .next t ∧ t = { s with mgmt := { m with booting := true, meas := t.mgmt.meas, bootMeas := t.mgmt.meas } }) ∧
    (m.booting = true → exec (.bringUpComplete ok) s = .next { s with mgmt := { m with booting := false, ready := ok, err := !ok } }) ∧
    (m.booting = false → exec (.bringUpComplete ok) s = .next s) ∧
    (∃ t, exec .coldReset s = .next t ∧ t = { State.reset with mgmt := t.mgmt } ∧ let u := t.mgmt
      u.ready = false ∧ u.err = false ∧ u.booting = true ∧ u.fns = [] ∧ u.irqMap = [] ∧ u.fw = m.fw ∧ u.device = m.device ∧ u.ucnt = m.ucnt ∧ u.meas = u.bootMeas ∧
      (m.lcs = .debug → u.lcs = .production ∧ u.keyEpoch = m.keyEpoch + 1 ∧ u.cacheKeyEpoch = m.cacheKeyEpoch + 1) ∧
      (m.lcs ≠ .debug → u.lcs = m.lcs ∧ u.keyEpoch = m.keyEpoch ∧ u.cacheKeyEpoch = m.cacheKeyEpoch)) ∧
    (∃ t, exec .scrub s = .next t ∧ t = { s with poison := t.poison, bad := [], soft := [], dies := t.dies } ∧ (∀ l, l ∈ t.poison ↔ l ∈ s.poison ∨ l ∈ s.bad) ∧
      (rising s.dies = true → (∀ l ∈ s.soft, ∀ k, l * 64 / 0x3000000000 = k → assocGet s.dies k ≠ none) →
        ∀ (n : Nat) (e : Nat × Die), s.dies[n]? = some e → t.dies[n]? = some (e.1, { e.2 with
        corrected := e.2.corrected + (s.soft.filter (fun l => l * 64 / 0x3000000000 == e.1)).length
        uncorrected := e.2.uncorrected + (s.bad.filter (fun l => l * 64 / 0x3000000000 == e.1)).length }))) ∧
    (∃ t, exec .snapshotTrigger s = .next t ∧ t = { s with mgmt := t.mgmt, trace := t.trace, mem := t.mem, encTag := t.encTag } ∧
      (s.trace.base = none → t.mem = s.mem) ∧
      t.mgmt = { m with snapNo := m.snapNo + 1, snapLatched := true, snaps := s.blocks.map (fun b =>
        ⟨b.1, b.2.1, b.2.2, s.cycle, assocGetD s.trace.seqs 0 (traceId b.1 b.2.1 b.2.2)⟩) } ∧
      t.trace.out.length = s.trace.out.length + s.blocks.length ∧
      ∀ r ∈ t.trace.out.drop s.trace.out.length, r.typ = 0x16 ∧ r.snap = (m.snapNo + 1) % 2 ^ 32) ∧
    (rising s.drovers = true → (∀ e ∈ s.drovers, e.2.cst.run = false ∧ s.tren e.2.flock 1 = false) →
      ∃ t, exec (.lockstepMismatch issuer k va x y) s = .next t ∧ t.mgmt.lockReports = m.lockReports ++ [⟨issuer, k, va, x, y⟩] ∧ t.mgmt.snapNo = m.snapNo + 1 ∧
        t.mgmt.msix = m.msix ++ (m.irqMap.filter (fun e => e.1 = 6)).map (fun e => e.2.1) ∧
        ∀ j, assocGet s.drovers j ≠ none → let d := s.drover j; let e := t.drover j
          (d.state = .exited → e = d) ∧ (d.state ≠ .exited → e.state = .halted ∧ e.dbgHalt = true ∧ e.pc = d.pc ∧ e.vec = d.vec ∧
            (d.state = .halted ∨ d.susp ≠ none → e.tr = d.tr) ∧
            (d.state ≠ .halted → d.susp = none → e.hold = some (d.tr.epc, d.tr.esr, d.tr.fpc) ∧ e.tr.epc = d.pc ∧ e.tr.tvec = d.tr.tvec ∧ e.tr.sup = d.tr.sup) ∧
            ∀ a, e.getG a = d.getG a))

/-- R150, R416, R425, R426, R447: as each falls due in a cycle without an issue, a sample of the drover is recorded with the reason that
holds, where it issues that of an attempt of its next instruction; a lane group's interval of 2^31 cycles ends with its record; a trace grant ends; a YIELD ends. A drover released from a debug
halt goes on where it stands. -/
def Obligations.CyclesBringWhatIsDue : Prop :=
  ∀ (s : State) (key g ctx : Nat), let d := s.drover key; let p := bits (s.debug d.flock).dctl 24 5
    (d.yieldUntil = none → exec (.yieldTimeout key) s = .next s) ∧ (p = 0 → exec (.traceSample key) s = .next s) ∧
    (d.lgm.getLsbD g = false → exec (.laneCountExpiry key g) s = .next s) ∧
    (s.QuietCycle key → d.lgm = 0 → d.laneMask = 0 → p = 0 → d.yieldUntil = some (s.cycle + 1) →
      ∃ t, exec (.yieldTimeout key) s = .next t ∧ s.after t key { d with yieldUntil := none, yieldFor := [] }) ∧
    ((d.state = .issuing ∨ d.state = .awaiting ∨ d.state = .trapped) → s.Passes key → d.lgm = 0 → d.laneMask = 0 → d.yieldUntil = none →
      s.tren d.flock 2 = true → (∀ c, s.context d.ctx = some c → c.conf = false) → p ≠ 0 → d.born ≤ s.cycle → (s.cycle + 1 - d.born) % 2 ^ p = 0 → s.trace.base = none →
      ∃ t r why, exec (.traceSample key) s = .next t ∧ t.cycle = s.cycle + 1 ∧ t.mem = s.mem ∧ t.drover key = d ∧ t.trace.out = s.trace.out ++ [r] ∧
        r.typ = 0x03 ∧ r.cyc = s.cycle + 1 ∧ r.src = 1 ∧ r.slot = slotOf key ∧ r.die = dieOf key ∧
        r.payload = leBytes 8 d.pc.toNat ++ leBytes 8 d.strp.toNat ++ leBytes 6 d.stro ++
          leBytes 1 why ++ leBytes 1 (if d.state = .issuing then 0 else if d.state = .awaiting then 1 else 2) ++ leBytes 4 d.flock ∧
        (d.state = .awaiting → why = 9) ∧ (d.state = .trapped → why = 13) ∧
        (d.state = .issuing → ∀ v, { s with cycle := s.cycle + 1 }.issue key = .next v → why = ((v.drover key).stall).getD 1)) ∧
    (∀ c : LaneCount, d.state = .issuing → s.Passes key → d.yieldUntil = none → p = 0 → s.tren d.flock 1 = true →
      (∀ c, s.context d.ctx = some c → c.conf = false) → s.trace.base = none → g < 16 → d.lgm = .ofNat 16 (2 ^ g) → d.laneMask = d.lgm → d.occupied = [] →
      d.lanes = [(g, c)] → c.c = 2 ^ 31 - 1 →
      ∃ t r, exec (.laneCountExpiry key g) s = .next t ∧ t.cycle = s.cycle + 1 ∧ t.mem = s.mem ∧ t.drover key = { d with lanes := [], dead := false } ∧
        t.trace.out = s.trace.out ++ [r] ∧ r.typ = 0x02 ∧ r.payload = leBytes 1 g ++ leBytes 3 0 ++ leBytes 4 (2 ^ 31) ++ leBytes 6 c.u ++ leBytes 6 c.m ++
          leBytes 6 c.b ++ leBytes 6 (c.d + if d.dead then 64 else 0) ++ leBytes 6 (c.s + if d.dead then 0 else 64)) ∧
    (∀ c, s.context ctx = some c → c.grantUntil = some (s.cycle + 1) → s.drovers = [] → s.queues = [] → s.tasks = [] → (∀ e ∈ s.flocks, e.2.abortAsked = false) → 2 ≤ (s.cycle + 1) % 8 → rising s.ctxs = true →
      ∃ t, exec (.traceGrantExpiry ctx) s = .next t ∧ t = { s with cycle := s.cycle + 1, ctxs := t.ctxs } ∧
        t.context ctx = some { c with grantUntil := none } ∧
        ∀ j x, s.context j = some x → (x.grantUntil = none ∨ ∃ u, x.grantUntil = some u ∧ s.cycle + 1 < u) → t.context j = some x) ∧
    (d.dbgHalt = false → exec (.debugRelease key) s = .next s) ∧
    (d.dbgHalt = true → d.state = .halted → d.cst.rs = false → d.granted = false → d.susp = none →
      let free := { d with dbgHalt := false, skip1 := true }; let st := if d.wait = none then DroverState.issuing else .awaiting
      (d.preempted = true ∨ (∃ x ∈ s.unacked, x.2 = key) → exec (.debugRelease key) s = .next (s.setDrover key free)) ∧
      (d.preempted = false → (∀ x ∈ s.unacked, x.2 ≠ key) →
        (d.hold = none → exec (.debugRelease key) s = .next (s.setDrover key { free with state := st })) ∧
        (∀ epc esr fpc, d.hold = some (epc, esr, fpc) → let rst := d.tr.esr.getLsbD 2
          exec (.debugRelease key) s = .next (s.setDrover key { free with
            state := st, hold := none, pc := d.tr.epc, tr := { d.tr with epc := epc, esr := esr, fpc := fpc }, restart := if rst then d.restart else 0
            again := d.again || rst, repBack := d.tr.esr.getLsbD 3, reps := { d.reps with go := false } }))))

/-- R21, R23, R26, R27: a request that its core's groups at hand meet is granted: its groups up to its maximum, a change in them
migrating the rectangle: the first min(VL, VLMAX) elements of each row and predicate bits stay, the rest read 0, VL is clipped, GRT.GC is
set. One that they do not meet stands. A chained run at a strip boundary loses its groups to a request that the pasture does not meet, and
goes on; any other keeps them. -/
def Obligations.LanesAreGrantedAndReclaimed : Prop :=
  ∀ (s : State) (key k since : Nat) (r : Run) (t : Template), let d := s.cur; let m := BitVec.ofNat 16 s.grantable
    (key = s.sel → d.request.isSome = true → d.state = .issuing → s.AtHand → d.spilled = false → ∃ u, exec (.laneGrant key) s = .next u ∧ u = s.setCur u.cur ∧
      u.cur.lgm = m ∧ u.cur.request = none ∧ u.cur.granted = true ∧ u.cur.ungranted = d.ungranted ∧
      (d.granted = false ∨ m = d.parked → u.cur.vec = d.vec ∧ u.cur.gc = d.gc) ∧
      (d.granted = true → m ≠ d.parked → d.vfmt.legal = true →
        let L := Nat.min d.vec.vl (popcount 16 m.toNat * 64 * (128 / d.vw))
        u.cur.gc = true ∧ u.cur.vec.vl = L ∧ u.cur.vec.scales = d.vec.scales ∧ u.cur.vec.accs = d.vec.accs ∧ u.cur.vec.vty = d.vec.vty ∧
        (∀ q, q < 256 → ∀ i, rowElem (u.cur.vec.row q) d.vw i = if i < L then rowElem (d.vec.row q) d.vw i else 0) ∧
        (∀ q, 1 ≤ q → q < 16 → ∀ i, (u.cur.vec.pred q).getLsbD i = (decide (i < L) && (d.vec.pred q).getLsbD i)))) ∧
    ((s.drover key).request = none ∨ (s.drover key).state ≠ .issuing → exec (.laneGrant key) s = .next s) ∧
    (key = s.sel → (∀ j ∈ keysOf (coreOf s.sel), j ≠ s.sel → (s.drover j).request = none ∧ (s.drover j).state ≠ .trapped) → d.run = none →
      popcount 16 (d.lgm.toNat ||| s.pastureFor s.sel) < d.lgMin → exec (.laneGrant key) s = .next s) ∧
    ((s.drover key).cst.run = false ∨ (s.drover key).cst.tmp = true ∨ s.starved (coreOf key) = false → exec (.laneReclamation key) s = .next s) ∧
    (let e := s.drover key; let f := s.drover k
      s.drovers = [(key, e), (k, f)] ∨ s.drovers = [(k, f), (key, e)] → key ≠ k → coreOf k = coreOf key → e.run = some r → e.template = some t → e.cst.run = true →
      e.cst.tmp = false → t.tf = false → r.placed = true → s.plainRun key r → r.units.isEmpty = false → e.lgm = 0 → e.wait = none → e.state = .issuing → e.request = none →
      (∀ x ∈ r.nodes.zip t.nodes, x.1.pix ≤ x.1.strip * x.2.lq) → s.bookings = [] → (∀ c, s.tren e.flock c = false) →
      f.request = some ⟨since, f.lgMax⟩ → since + 3840 ≤ s.cycle → e.runUnits (coreOf key) ≠ 0 → f.lgm = 0 → f.run = none → f.granted = false → 1 ≤ f.lgMin → f.lgMin ≤ f.lgMax → f.lgMax ≤ 16 → popcount 16 (s.pastureFor k) < f.lgMin →
      ∃ u r', exec (.laneReclamation key) s = .next u ∧ u.mem = s.mem ∧ (u.drover k).lgm = .ofNat 16 (2 ^ f.lgMax - 1) ∧ (u.drover k).request = none ∧
        (u.drover k).ungranted = f.ungranted ∧ (u.drover key).run = some r' ∧ (u.drover key).cst.run = true ∧ (u.drover key).vec = e.vec ∧
        r'.units = [] ∧ r'.queues = r.queues ∧ r'.count = r.count ∧ r'.nodes.map (fun x => (x.strip, x.pix)) = r.nodes.map (fun x => (x.strip, x.pix)))

/-- R35, R59, R401, R437, R443: right after reset no drover is resident and no context, queue, task, flock or booking stands; READY, ERR
and BUSY are 0, no fault queue is set, HEAD is 0; memory lists nothing and the tables are in order; a drover slot's registers are at the
reset values of the field map. -/
def Obligations.ResetIsAsTheFieldMapHasIt : Prop :=
  let s := State.reset; let d := Drover.reset
  s.memOk ∧ s.Tidy ∧ s.mem = [] ∧ s.drovers = [] ∧ s.flocks = [] ∧ s.tasks = [] ∧ s.queues = [] ∧ s.ctxs = [] ∧ s.bookings = [] ∧ s.cycle = 0 ∧
    s.mgmt.ready = false ∧ s.mgmt.err = false ∧ (∀ n, (s.fn n).busy = false ∧ (s.fn n).cmd = 0 ∧ (s.fn n).code = 0 ∧ (s.fn n).res = 0) ∧
    (∀ n, (s.die n).frqb = none ∧ (s.die n).head = 0 ∧ (s.die n).accPtr = 0 ∧ (s.die n).tlb = [] ∧ (s.die n).invDone = 0) ∧
    (∀ k, (s.core k).tiles = [] ∧ (s.core k).slots = [] ∧ (s.core k).srs.owner = none) ∧
    (∀ k, s.drover k = d) ∧ d.state = .exited ∧ (∀ a, d.getG a = 0) ∧ d.vec.vl = 0 ∧ d.vec.tl = 0 ∧ d.vec.kl = 0 ∧ d.vec.vty = 0 ∧ d.vec.vwb = 0 ∧
    (∀ r, d.vec.row r = 0 ∧ d.vec.pixOf r = ⟨true, 0⟩) ∧ d.fef = 0 ∧ d.fee = 0 ∧ (∀ n, (h : n < 7) → d.fei[n] = ⟨false, 0⟩) ∧ d.sms = 0 ∧
    (∀ n, (h : n < 4) → d.cwm[n] = 0 ∧ d.cnx[n] = 1) ∧ d.cst.live = false ∧ d.cst.run = false ∧ d.cst.rs = false ∧ d.cst.csab = 0 ∧ d.bks.st = 0 ∧
    d.tr.sup = false ∧ d.tr.epc = 0 ∧ d.tr.esr = 0 ∧ d.tr.tvec = 0 ∧ d.tr.flt = 0 ∧ d.tr.fva = 0 ∧ d.tr.fpc = 0 ∧ d.tr.fel = 0

/-- R17, R98, R104, R154: a step whose turn is a core's front end is exec of the instruction that the word of its next ready drover
decodes to; then the core's pointer stands past the drover, and a cycle passes. A drover whose instruction is not ready yields its turn to
the next. A step whose turn is an event is exec of it. -/
def Obligations.AStepRunsTheDecodedInstruction : Prop :=
  ∀ (s s0 : State) (rest : List Turn) (c : Nat),
    (s.agenda = .issue c :: rest ∧ s0 = { s with agenda := rest } ∨
      s.agenda = [] ∧ s.freshCores.head? = some c ∧ s.cycle % 8 ≠ 0 ∧ s0 = s →
      ∀ (k : Nat) (i : Instr) (u t : State), s0.Issues c k i u → exec i u = .next t →
        ((t.drover k).stall = none → step s = .next ((t.noteIssue c k).tick (some k)) ∧ ((t.noteIssue c k).core c).rr = (slotOf k + 1) % 8) ∧
        ((t.drover k).stall.isSome = true → s0.turnOrder c = [k] → step s = .next (t.tick none))) ∧
    (∀ i, s.agenda = .event i :: rest → encode i = none → step s = exec i { s with agenda := rest }) ∧
    (∀ n v, s.agenda = .pass n :: rest → v = { s with agenda := rest } → step s = .next (v.pass n))

/-- R94 to R102, R106: words written out from the encoding tables decode to the instructions they stand for, and words with a reserved
major, an unassigned function or a bit set where the encoding has none are rejected. -/
def Obligations.WordsDecodeAsTheTablesHaveThem : Prop :=
  decode 0x09aa8a81#32 = .ok (.add 21#7 42#7 77#7) ∧ decode 0x54aa8a82#32 = .ok (.addi 21#7 42#7 677#11) ∧ decode 0x8d158a89#32 = .ok (.li 21#7 144470#18) ∧
  decode 0x54aa8a8e#32 = .ok (.beq 21#7 42#7 677#11) ∧ decode 0x54aa8a97#32 = .ok (.ldd 21#7 42#7 677#11) ∧ decode 0x54aa8a9a#32 = .ok (.stw 21#7 42#7 677#11) ∧
  decode 0x19aa8adc#32 = .ok (.amoadd 21#7 42#7 77#7 true) ∧ decode 0x0260001d#32 = .ok (.fence 2#2 3#3) ∧ decode 0x248d0000#32 = .ok (.trap 4660#14) ∧
  decode 0x80c08180#32 = .ok (.srd 3#7 770#14) ∧ decode 0xb9aa8300#32 = .ok (.rep 42#7 77#7 6#3) ∧ decode 0x000a8aa0#32 = .ok (.setvl 21#7 42#7) ∧
  decode 0x09aa8ae1#32 = .ok (.vadd 21#7 42#7 77#7 true) ∧ decode 0x14aa8aef#32 = .ok (.vaddi 21#7 42#7 165#8 true) ∧ decode 0x39aa8ae5#32 = .ok (.vfma 21#7 42#7 77#7 true) ∧
  decode 0x01aa8aeb#32 = .ok (.vcvt 21#7 42#7 13#5 true) ∧ decode 0x09aa8aed#32 = .ok (.vrsum 21#7 42#7 77#7 true) ∧ decode 0x002081ae#32 = .ok (.pand 3#7 2#7 1#7) ∧
  decode 0x000a8af0#32 = .ok (.vld 21#7 42#7 true) ∧ decode 0x41aa8af1#32 = .ok (.vstb 21#7 42#7 13#5 true) ∧ decode 0x09aa8ab3#32 = .ok (.talloc 21#7 42#7 77#7) ∧
  decode 0x09aa8ab4#32 = .ok (.cpyin 21#7 42#7 77#7) ∧ decode 0x002081b6#32 = .ok (.kld 3#7 2#7 1#7) ∧ decode 0x59aa8337#32 = .ok (.mxoa 42#7 77#7 1#2 6#5) ∧
  decode 0x09aa8af8#32 = .ok (.smmul 21#7 42#7 77#7 true) ∧ decode 0x29aa8039#32 = .ok (.chrun 42#7 77#7) ∧ decode 0x100081ba#32 = .ok (.qpop 3#7 2#7) ∧
  decode 0x000a8abb#32 = .ok (.book 21#7 42#7) ∧ decode 0x400a803c#32 = .ok (.srssig 42#7) ∧ decode 0x19aa803d#32 = .ok (.signal 42#7 77#7) ∧
  decode 0x0000001e#32 = .error .reservedMajor ∧ decode 0x00000000#32 = .error .unassignedFunction ∧ decode 0x10000080#32 = .error .res0

/-- R94 to R102: every instruction's word decodes to it, with every operand at every value, and a word that decodes to an instruction is
its word. -/
def Obligations.DecodingInvertsEncoding : Prop :=
  (∀ (i : Instr) (w : BitVec 32), encode i = some w → decode w = .ok i) ∧
  ∀ (i : Instr) (w : BitVec 32), decode w = .ok i → encode i = some w

/-- Memory, and the key numbers beside it, keep their canonical form in every step: equal memories stay equal data. -/
def Obligations.MemoryKeepsItsForm : Prop :=
  ∀ s t : State, s.memOk → step s = .next t → t.memOk
end

