-- ==== Sys2Proof/Laws/Assoc.lean ====
section
/-! SUPPORT. Reading after writing for sparse data by key, and the canonical form of memory under every write. -/
namespace Sys2Proof.Machine

theorem assocGet_put_same (l : List (Nat × α)) (k : Nat) (v : α) : assocGet (assocPut l k v) k = some v := by
  induction l with
  | nil => simp [assocPut, assocGet]
  | cons e r ih =>
    simp only [assocPut]; split
    · simp [assocGet]
    · split
      · simp [assocGet]
      · rename_i h1 h2; simp only [assocGet, if_neg h2, ih]

theorem assocGet_put_other (l : List (Nat × α)) (k j : Nat) (v : α) (h : j ≠ k) :
    assocGet (assocPut l k v) j = assocGet l j := by
  induction l with
  | nil => simp [assocPut, assocGet, h]
  | cons e r ih =>
    unfold assocPut; split
    · simp [assocGet, h]
    · split
      · simp_all [assocGet]
      · simp only [assocGet, ih]

@[simp] theorem assocGetD_put_same (l : List (Nat × α)) (d : α) (k : Nat) (v : α) :
    assocGetD (assocPut l k v) d k = v := by simp [assocGetD, assocGet_put_same]

theorem assocGetD_put_other (l : List (Nat × α)) (d : α) (k j : Nat) (v : α) (h : j ≠ k) :
    assocGetD (assocPut l k v) d j = assocGetD l d j := by simp [assocGetD, assocGet_put_other l k j v h]

/-- Putting twice at a key keeps the second value. -/
@[simp] theorem assocPut_put (l : List (Nat × α)) (k : Nat) (v w : α) :
    assocPut (assocPut l k v) k w = assocPut l k w := by
  induction l with
  | nil => simp [assocPut]
  | cons e r ih =>
    obtain ⟨j, x⟩ := e
    by_cases h1 : k < j
    · simp [assocPut, h1]
    · by_cases h2 : k = j
      · simp [assocPut, h2]
      · simp [assocPut, h1, h2, ih]

/-! ### Rising keys -/

theorem risingFrom_le {b c : Nat} (l : List (Nat × α)) (h : c ≤ b) (hl : risingFrom b l = true) : risingFrom c l = true := by
  cases l with
  | nil => rfl
  | cons e r => simp only [risingFrom, Bool.and_eq_true, decide_eq_true_eq] at *; exact ⟨by omega, hl.2⟩

theorem risingFrom_put (l : List (Nat × α)) (b k : Nat) (v : α) (hb : b ≤ k) (hl : risingFrom b l = true) :
    risingFrom b (assocPut l k v) = true := by
  induction l generalizing b with
  | nil => simp [assocPut, risingFrom, hb]
  | cons e r ih =>
    simp only [risingFrom, Bool.and_eq_true, decide_eq_true_eq] at hl
    unfold assocPut; split
    · simp only [risingFrom, Bool.and_eq_true, decide_eq_true_eq]; exact ⟨hb, by omega, hl.2⟩
    · split
      · rename_i h1 h2; subst h2; simp [risingFrom, hl.1, hl.2]
      · simp only [risingFrom, Bool.and_eq_true, decide_eq_true_eq]; exact ⟨hl.1, ih _ (by omega) hl.2⟩

theorem risingFrom_del (l : List (Nat × α)) (b k : Nat) (hl : risingFrom b l = true) : risingFrom b (assocDel l k) = true := by
  induction l generalizing b with
  | nil => rfl
  | cons e r ih =>
    simp only [risingFrom, Bool.and_eq_true, decide_eq_true_eq] at hl
    unfold assocDel; split
    · exact risingFrom_le r (by omega) hl.2
    · simp only [risingFrom, Bool.and_eq_true, decide_eq_true_eq]; exact ⟨hl.1, ih _ hl.2⟩

theorem all_put (p : Nat × α → Bool) (l : List (Nat × α)) (k : Nat) (v : α) (hv : p (k, v) = true) (hl : l.all p = true) :
    (assocPut l k v).all p = true := by
  induction l with
  | nil => simp [assocPut, hv]
  | cons e r ih => 
    simp only [List.all_cons, Bool.and_eq_true] at hl; simp only [assocPut]; split
    · simp [hv, hl.1, hl.2]
    · split
      · simp [hv, hl.2]
      · simp [hl.1, ih hl.2]

theorem all_del (p : Nat × α → Bool) (l : List (Nat × α)) (k : Nat) (hl : l.all p = true) : (assocDel l k).all p = true := by
  induction l with
  | nil => rfl
  | cons e r ih => simp only [List.all_cons, Bool.and_eq_true] at hl; unfold assocDel; split <;> simp_all

/-- Every write keeps the canonical form. -/
theorem Memory.wf_set (m : List (Nat × Byte)) (a : Nat) (b : Byte) (h : Memory.wf m = true) : Memory.wf (Memory.set m a b) = true := by
  simp only [Memory.wf, rising, Bool.and_eq_true] at *
  unfold Memory.set; split
  · exact ⟨risingFrom_del m 0 a h.1, all_del _ m a h.2⟩
  · exact ⟨risingFrom_put m 0 a b (Nat.zero_le a) h.1, all_put _ m a b (by simpa [Memory.default] using ‹_›) h.2⟩

theorem Memory.wf_setList (l : List Byte) (m : List (Nat × Byte)) (a : Nat) (h : Memory.wf m = true) :
    Memory.wf (Memory.setList m a l) = true := by
  induction l generalizing m a with
  | nil => exact h
  | cons b r ih => exact ih _ _ (Memory.wf_set m a b h)

theorem assocGet_of_rising (l : List (Nat × α)) (b k : Nat) (hl : risingFrom b l = true) (hk : k < b) : assocGet l k = none := by
  induction l generalizing b with
  | nil => rfl
  | cons e r ih =>
    simp only [risingFrom, Bool.and_eq_true, decide_eq_true_eq] at hl
    unfold assocGet; rw [if_neg (by omega)]; exact ih _ hl.2 (by omega)

theorem assocGet_del_same (l : List (Nat × α)) (b k : Nat) (hl : risingFrom b l = true) : assocGet (assocDel l k) k = none := by
  induction l generalizing b with
  | nil => rfl
  | cons e r ih =>
    simp only [risingFrom, Bool.and_eq_true, decide_eq_true_eq] at hl
    unfold assocDel; split
    · rename_i h; exact assocGet_of_rising r _ k hl.2 (by omega)
    · rename_i h; unfold assocGet; rw [if_neg h]; exact ih _ hl.2

theorem assocGet_del_other (l : List (Nat × α)) (k j : Nat) (h : j ≠ k) : assocGet (assocDel l k) j = assocGet l j := by
  induction l with
  | nil => rfl
  | cons e r ih => unfold assocDel; split <;> simp_all [assocGet]

/-- A write leaves every other byte alone. -/
theorem Memory.get_set_other (m : List (Nat × Byte)) (a c : Nat) (b : Byte) (h : c ≠ a) :
    Memory.get (Memory.set m a b) c = Memory.get m c := by
  unfold Memory.set Memory.get assocGetD; split
  · rw [assocGet_del_other m a c h]
  · rw [assocGet_put_other m a c b h]

/-- A byte reads as it was written. -/
theorem Memory.get_set_same (m : List (Nat × Byte)) (a : Nat) (b : Byte) (h : Memory.wf m = true) :
    Memory.get (Memory.set m a b) a = b := by
  simp only [Memory.wf, rising, Bool.and_eq_true] at h
  unfold Memory.set Memory.get assocGetD; split
  · rw [assocGet_del_same m 0 a h.1]; simp_all
  · rw [assocGet_put_same]; rfl

end Sys2Proof.Machine
end

