-- ==== Sys2Proof/Laws/State.lean ====
section
/-! SUPPORT. What each update of the state leaves alone: one lemma per field per update. Generated from the fields of State and
Drover. -/
namespace Sys2Proof.Machine

/-! ### State.setDrover -/

@[simp] theorem State.setDrover_agenda (s : State) (key : Nat) (d : Drover) : (s.setDrover key d).agenda = s.agenda := rfl
@[simp] theorem State.setDrover_sel (s : State) (key : Nat) (d : Drover) : (s.setDrover key d).sel = s.sel := rfl
@[simp] theorem State.setDrover_turn (s : State) (key : Nat) (d : Drover) : (s.setDrover key d).turn = s.turn := rfl
@[simp] theorem State.setDrover_cycle (s : State) (key : Nat) (d : Drover) : (s.setDrover key d).cycle = s.cycle := rfl
@[simp] theorem State.setDrover_mem (s : State) (key : Nat) (d : Drover) : (s.setDrover key d).mem = s.mem := rfl
@[simp] theorem State.setDrover_encTag (s : State) (key : Nat) (d : Drover) : (s.setDrover key d).encTag = s.encTag := rfl
@[simp] theorem State.setDrover_poison (s : State) (key : Nat) (d : Drover) : (s.setDrover key d).poison = s.poison := rfl
@[simp] theorem State.setDrover_bad (s : State) (key : Nat) (d : Drover) : (s.setDrover key d).bad = s.bad := rfl
@[simp] theorem State.setDrover_soft (s : State) (key : Nat) (d : Drover) : (s.setDrover key d).soft = s.soft := rfl
@[simp] theorem State.setDrover_reqs (s : State) (key : Nat) (d : Drover) : (s.setDrover key d).reqs = s.reqs := rfl
@[simp] theorem State.setDrover_reps (s : State) (key : Nat) (d : Drover) : (s.setDrover key d).reps = s.reps := rfl
@[simp] theorem State.setDrover_posted (s : State) (key : Nat) (d : Drover) : (s.setDrover key d).posted = s.posted := rfl
@[simp] theorem State.setDrover_unacked (s : State) (key : Nat) (d : Drover) : (s.setDrover key d).unacked = s.unacked := rfl
@[simp] theorem State.setDrover_qpErr (s : State) (key : Nat) (d : Drover) : (s.setDrover key d).qpErr = s.qpErr := rfl
@[simp] theorem State.setDrover_regions (s : State) (key : Nat) (d : Drover) : (s.setDrover key d).regions = s.regions := rfl
@[simp] theorem State.setDrover_sends (s : State) (key : Nat) (d : Drover) : (s.setDrover key d).sends = s.sends := rfl
@[simp] theorem State.setDrover_cnps (s : State) (key : Nat) (d : Drover) : (s.setDrover key d).cnps = s.cnps := rfl
@[simp] theorem State.setDrover_served (s : State) (key : Nat) (d : Drover) : (s.setDrover key d).served = s.served := rfl
@[simp] theorem State.setDrover_ctxs (s : State) (key : Nat) (d : Drover) : (s.setDrover key d).ctxs = s.ctxs := rfl
@[simp] theorem State.setDrover_queues (s : State) (key : Nat) (d : Drover) : (s.setDrover key d).queues = s.queues := rfl
@[simp] theorem State.setDrover_tasks (s : State) (key : Nat) (d : Drover) : (s.setDrover key d).tasks = s.tasks := rfl
@[simp] theorem State.setDrover_flocks (s : State) (key : Nat) (d : Drover) : (s.setDrover key d).flocks = s.flocks := rfl
@[simp] theorem State.setDrover_marks (s : State) (key : Nat) (d : Drover) : (s.setDrover key d).marks = s.marks := rfl
@[simp] theorem State.setDrover_seqNo (s : State) (key : Nat) (d : Drover) : (s.setDrover key d).seqNo = s.seqNo := rfl
@[simp] theorem State.setDrover_nextFlock (s : State) (key : Nat) (d : Drover) : (s.setDrover key d).nextFlock = s.nextFlock := rfl
@[simp] theorem State.setDrover_nextAge (s : State) (key : Nat) (d : Drover) : (s.setDrover key d).nextAge = s.nextAge := rfl
@[simp] theorem State.setDrover_nextKey (s : State) (key : Nat) (d : Drover) : (s.setDrover key d).nextKey = s.nextKey := rfl
@[simp] theorem State.setDrover_nextCtx (s : State) (key : Nat) (d : Drover) : (s.setDrover key d).nextCtx = s.nextCtx := rfl
@[simp] theorem State.setDrover_cores (s : State) (key : Nat) (d : Drover) : (s.setDrover key d).cores = s.cores := rfl
@[simp] theorem State.setDrover_dies (s : State) (key : Nat) (d : Drover) : (s.setDrover key d).dies = s.dies := rfl
@[simp] theorem State.setDrover_bookings (s : State) (key : Nat) (d : Drover) : (s.setDrover key d).bookings = s.bookings := rfl
@[simp] theorem State.setDrover_mgmt (s : State) (key : Nat) (d : Drover) : (s.setDrover key d).mgmt = s.mgmt := rfl
@[simp] theorem State.setDrover_trace (s : State) (key : Nat) (d : Drover) : (s.setDrover key d).trace = s.trace := rfl

/-! ### State.setCore -/

@[simp] theorem State.setCore_agenda (s : State) (c : Nat) (x : Core) : (s.setCore c x).agenda = s.agenda := rfl
@[simp] theorem State.setCore_sel (s : State) (c : Nat) (x : Core) : (s.setCore c x).sel = s.sel := rfl
@[simp] theorem State.setCore_turn (s : State) (c : Nat) (x : Core) : (s.setCore c x).turn = s.turn := rfl
@[simp] theorem State.setCore_cycle (s : State) (c : Nat) (x : Core) : (s.setCore c x).cycle = s.cycle := rfl
@[simp] theorem State.setCore_mem (s : State) (c : Nat) (x : Core) : (s.setCore c x).mem = s.mem := rfl
@[simp] theorem State.setCore_encTag (s : State) (c : Nat) (x : Core) : (s.setCore c x).encTag = s.encTag := rfl
@[simp] theorem State.setCore_poison (s : State) (c : Nat) (x : Core) : (s.setCore c x).poison = s.poison := rfl
@[simp] theorem State.setCore_bad (s : State) (c : Nat) (x : Core) : (s.setCore c x).bad = s.bad := rfl
@[simp] theorem State.setCore_soft (s : State) (c : Nat) (x : Core) : (s.setCore c x).soft = s.soft := rfl
@[simp] theorem State.setCore_reqs (s : State) (c : Nat) (x : Core) : (s.setCore c x).reqs = s.reqs := rfl
@[simp] theorem State.setCore_reps (s : State) (c : Nat) (x : Core) : (s.setCore c x).reps = s.reps := rfl
@[simp] theorem State.setCore_posted (s : State) (c : Nat) (x : Core) : (s.setCore c x).posted = s.posted := rfl
@[simp] theorem State.setCore_unacked (s : State) (c : Nat) (x : Core) : (s.setCore c x).unacked = s.unacked := rfl
@[simp] theorem State.setCore_qpErr (s : State) (c : Nat) (x : Core) : (s.setCore c x).qpErr = s.qpErr := rfl
@[simp] theorem State.setCore_regions (s : State) (c : Nat) (x : Core) : (s.setCore c x).regions = s.regions := rfl
@[simp] theorem State.setCore_sends (s : State) (c : Nat) (x : Core) : (s.setCore c x).sends = s.sends := rfl
@[simp] theorem State.setCore_cnps (s : State) (c : Nat) (x : Core) : (s.setCore c x).cnps = s.cnps := rfl
@[simp] theorem State.setCore_served (s : State) (c : Nat) (x : Core) : (s.setCore c x).served = s.served := rfl
@[simp] theorem State.setCore_ctxs (s : State) (c : Nat) (x : Core) : (s.setCore c x).ctxs = s.ctxs := rfl
@[simp] theorem State.setCore_queues (s : State) (c : Nat) (x : Core) : (s.setCore c x).queues = s.queues := rfl
@[simp] theorem State.setCore_tasks (s : State) (c : Nat) (x : Core) : (s.setCore c x).tasks = s.tasks := rfl
@[simp] theorem State.setCore_flocks (s : State) (c : Nat) (x : Core) : (s.setCore c x).flocks = s.flocks := rfl
@[simp] theorem State.setCore_marks (s : State) (c : Nat) (x : Core) : (s.setCore c x).marks = s.marks := rfl
@[simp] theorem State.setCore_seqNo (s : State) (c : Nat) (x : Core) : (s.setCore c x).seqNo = s.seqNo := rfl
@[simp] theorem State.setCore_nextFlock (s : State) (c : Nat) (x : Core) : (s.setCore c x).nextFlock = s.nextFlock := rfl
@[simp] theorem State.setCore_nextAge (s : State) (c : Nat) (x : Core) : (s.setCore c x).nextAge = s.nextAge := rfl
@[simp] theorem State.setCore_nextKey (s : State) (c : Nat) (x : Core) : (s.setCore c x).nextKey = s.nextKey := rfl
@[simp] theorem State.setCore_nextCtx (s : State) (c : Nat) (x : Core) : (s.setCore c x).nextCtx = s.nextCtx := rfl
@[simp] theorem State.setCore_drovers (s : State) (c : Nat) (x : Core) : (s.setCore c x).drovers = s.drovers := rfl
@[simp] theorem State.setCore_dies (s : State) (c : Nat) (x : Core) : (s.setCore c x).dies = s.dies := rfl
@[simp] theorem State.setCore_bookings (s : State) (c : Nat) (x : Core) : (s.setCore c x).bookings = s.bookings := rfl
@[simp] theorem State.setCore_mgmt (s : State) (c : Nat) (x : Core) : (s.setCore c x).mgmt = s.mgmt := rfl
@[simp] theorem State.setCore_trace (s : State) (c : Nat) (x : Core) : (s.setCore c x).trace = s.trace := rfl

/-! ### State.setDie -/

@[simp] theorem State.setDie_agenda (s : State) (n : Nat) (x : Die) : (s.setDie n x).agenda = s.agenda := rfl
@[simp] theorem State.setDie_sel (s : State) (n : Nat) (x : Die) : (s.setDie n x).sel = s.sel := rfl
@[simp] theorem State.setDie_turn (s : State) (n : Nat) (x : Die) : (s.setDie n x).turn = s.turn := rfl
@[simp] theorem State.setDie_cycle (s : State) (n : Nat) (x : Die) : (s.setDie n x).cycle = s.cycle := rfl
@[simp] theorem State.setDie_mem (s : State) (n : Nat) (x : Die) : (s.setDie n x).mem = s.mem := rfl
@[simp] theorem State.setDie_encTag (s : State) (n : Nat) (x : Die) : (s.setDie n x).encTag = s.encTag := rfl
@[simp] theorem State.setDie_poison (s : State) (n : Nat) (x : Die) : (s.setDie n x).poison = s.poison := rfl
@[simp] theorem State.setDie_bad (s : State) (n : Nat) (x : Die) : (s.setDie n x).bad = s.bad := rfl
@[simp] theorem State.setDie_soft (s : State) (n : Nat) (x : Die) : (s.setDie n x).soft = s.soft := rfl
@[simp] theorem State.setDie_reqs (s : State) (n : Nat) (x : Die) : (s.setDie n x).reqs = s.reqs := rfl
@[simp] theorem State.setDie_reps (s : State) (n : Nat) (x : Die) : (s.setDie n x).reps = s.reps := rfl
@[simp] theorem State.setDie_posted (s : State) (n : Nat) (x : Die) : (s.setDie n x).posted = s.posted := rfl
@[simp] theorem State.setDie_unacked (s : State) (n : Nat) (x : Die) : (s.setDie n x).unacked = s.unacked := rfl
@[simp] theorem State.setDie_qpErr (s : State) (n : Nat) (x : Die) : (s.setDie n x).qpErr = s.qpErr := rfl
@[simp] theorem State.setDie_regions (s : State) (n : Nat) (x : Die) : (s.setDie n x).regions = s.regions := rfl
@[simp] theorem State.setDie_sends (s : State) (n : Nat) (x : Die) : (s.setDie n x).sends = s.sends := rfl
@[simp] theorem State.setDie_cnps (s : State) (n : Nat) (x : Die) : (s.setDie n x).cnps = s.cnps := rfl
@[simp] theorem State.setDie_served (s : State) (n : Nat) (x : Die) : (s.setDie n x).served = s.served := rfl
@[simp] theorem State.setDie_ctxs (s : State) (n : Nat) (x : Die) : (s.setDie n x).ctxs = s.ctxs := rfl
@[simp] theorem State.setDie_queues (s : State) (n : Nat) (x : Die) : (s.setDie n x).queues = s.queues := rfl
@[simp] theorem State.setDie_tasks (s : State) (n : Nat) (x : Die) : (s.setDie n x).tasks = s.tasks := rfl
@[simp] theorem State.setDie_flocks (s : State) (n : Nat) (x : Die) : (s.setDie n x).flocks = s.flocks := rfl
@[simp] theorem State.setDie_marks (s : State) (n : Nat) (x : Die) : (s.setDie n x).marks = s.marks := rfl
@[simp] theorem State.setDie_seqNo (s : State) (n : Nat) (x : Die) : (s.setDie n x).seqNo = s.seqNo := rfl
@[simp] theorem State.setDie_nextFlock (s : State) (n : Nat) (x : Die) : (s.setDie n x).nextFlock = s.nextFlock := rfl
@[simp] theorem State.setDie_nextAge (s : State) (n : Nat) (x : Die) : (s.setDie n x).nextAge = s.nextAge := rfl
@[simp] theorem State.setDie_nextKey (s : State) (n : Nat) (x : Die) : (s.setDie n x).nextKey = s.nextKey := rfl
@[simp] theorem State.setDie_nextCtx (s : State) (n : Nat) (x : Die) : (s.setDie n x).nextCtx = s.nextCtx := rfl
@[simp] theorem State.setDie_drovers (s : State) (n : Nat) (x : Die) : (s.setDie n x).drovers = s.drovers := rfl
@[simp] theorem State.setDie_cores (s : State) (n : Nat) (x : Die) : (s.setDie n x).cores = s.cores := rfl
@[simp] theorem State.setDie_bookings (s : State) (n : Nat) (x : Die) : (s.setDie n x).bookings = s.bookings := rfl
@[simp] theorem State.setDie_mgmt (s : State) (n : Nat) (x : Die) : (s.setDie n x).mgmt = s.mgmt := rfl
@[simp] theorem State.setDie_trace (s : State) (n : Nat) (x : Die) : (s.setDie n x).trace = s.trace := rfl

/-! ### State.setFlock -/

@[simp] theorem State.setFlock_agenda (s : State) (f : Nat) (x : Flock) : (s.setFlock f x).agenda = s.agenda := rfl
@[simp] theorem State.setFlock_sel (s : State) (f : Nat) (x : Flock) : (s.setFlock f x).sel = s.sel := rfl
@[simp] theorem State.setFlock_turn (s : State) (f : Nat) (x : Flock) : (s.setFlock f x).turn = s.turn := rfl
@[simp] theorem State.setFlock_cycle (s : State) (f : Nat) (x : Flock) : (s.setFlock f x).cycle = s.cycle := rfl
@[simp] theorem State.setFlock_mem (s : State) (f : Nat) (x : Flock) : (s.setFlock f x).mem = s.mem := rfl
@[simp] theorem State.setFlock_encTag (s : State) (f : Nat) (x : Flock) : (s.setFlock f x).encTag = s.encTag := rfl
@[simp] theorem State.setFlock_poison (s : State) (f : Nat) (x : Flock) : (s.setFlock f x).poison = s.poison := rfl
@[simp] theorem State.setFlock_bad (s : State) (f : Nat) (x : Flock) : (s.setFlock f x).bad = s.bad := rfl
@[simp] theorem State.setFlock_soft (s : State) (f : Nat) (x : Flock) : (s.setFlock f x).soft = s.soft := rfl
@[simp] theorem State.setFlock_reqs (s : State) (f : Nat) (x : Flock) : (s.setFlock f x).reqs = s.reqs := rfl
@[simp] theorem State.setFlock_reps (s : State) (f : Nat) (x : Flock) : (s.setFlock f x).reps = s.reps := rfl
@[simp] theorem State.setFlock_posted (s : State) (f : Nat) (x : Flock) : (s.setFlock f x).posted = s.posted := rfl
@[simp] theorem State.setFlock_unacked (s : State) (f : Nat) (x : Flock) : (s.setFlock f x).unacked = s.unacked := rfl
@[simp] theorem State.setFlock_qpErr (s : State) (f : Nat) (x : Flock) : (s.setFlock f x).qpErr = s.qpErr := rfl
@[simp] theorem State.setFlock_regions (s : State) (f : Nat) (x : Flock) : (s.setFlock f x).regions = s.regions := rfl
@[simp] theorem State.setFlock_sends (s : State) (f : Nat) (x : Flock) : (s.setFlock f x).sends = s.sends := rfl
@[simp] theorem State.setFlock_cnps (s : State) (f : Nat) (x : Flock) : (s.setFlock f x).cnps = s.cnps := rfl
@[simp] theorem State.setFlock_served (s : State) (f : Nat) (x : Flock) : (s.setFlock f x).served = s.served := rfl
@[simp] theorem State.setFlock_ctxs (s : State) (f : Nat) (x : Flock) : (s.setFlock f x).ctxs = s.ctxs := rfl
@[simp] theorem State.setFlock_queues (s : State) (f : Nat) (x : Flock) : (s.setFlock f x).queues = s.queues := rfl
@[simp] theorem State.setFlock_tasks (s : State) (f : Nat) (x : Flock) : (s.setFlock f x).tasks = s.tasks := rfl
@[simp] theorem State.setFlock_marks (s : State) (f : Nat) (x : Flock) : (s.setFlock f x).marks = s.marks := rfl
@[simp] theorem State.setFlock_seqNo (s : State) (f : Nat) (x : Flock) : (s.setFlock f x).seqNo = s.seqNo := rfl
@[simp] theorem State.setFlock_nextFlock (s : State) (f : Nat) (x : Flock) : (s.setFlock f x).nextFlock = s.nextFlock := rfl
@[simp] theorem State.setFlock_nextAge (s : State) (f : Nat) (x : Flock) : (s.setFlock f x).nextAge = s.nextAge := rfl
@[simp] theorem State.setFlock_nextKey (s : State) (f : Nat) (x : Flock) : (s.setFlock f x).nextKey = s.nextKey := rfl
@[simp] theorem State.setFlock_nextCtx (s : State) (f : Nat) (x : Flock) : (s.setFlock f x).nextCtx = s.nextCtx := rfl
@[simp] theorem State.setFlock_drovers (s : State) (f : Nat) (x : Flock) : (s.setFlock f x).drovers = s.drovers := rfl
@[simp] theorem State.setFlock_cores (s : State) (f : Nat) (x : Flock) : (s.setFlock f x).cores = s.cores := rfl
@[simp] theorem State.setFlock_dies (s : State) (f : Nat) (x : Flock) : (s.setFlock f x).dies = s.dies := rfl
@[simp] theorem State.setFlock_bookings (s : State) (f : Nat) (x : Flock) : (s.setFlock f x).bookings = s.bookings := rfl
@[simp] theorem State.setFlock_mgmt (s : State) (f : Nat) (x : Flock) : (s.setFlock f x).mgmt = s.mgmt := rfl
@[simp] theorem State.setFlock_trace (s : State) (f : Nat) (x : Flock) : (s.setFlock f x).trace = s.trace := rfl

/-! ### State.setTask -/

@[simp] theorem State.setTask_agenda (s : State) (k : Nat) (x : Task) : (s.setTask k x).agenda = s.agenda := rfl
@[simp] theorem State.setTask_sel (s : State) (k : Nat) (x : Task) : (s.setTask k x).sel = s.sel := rfl
@[simp] theorem State.setTask_turn (s : State) (k : Nat) (x : Task) : (s.setTask k x).turn = s.turn := rfl
@[simp] theorem State.setTask_cycle (s : State) (k : Nat) (x : Task) : (s.setTask k x).cycle = s.cycle := rfl
@[simp] theorem State.setTask_mem (s : State) (k : Nat) (x : Task) : (s.setTask k x).mem = s.mem := rfl
@[simp] theorem State.setTask_encTag (s : State) (k : Nat) (x : Task) : (s.setTask k x).encTag = s.encTag := rfl
@[simp] theorem State.setTask_poison (s : State) (k : Nat) (x : Task) : (s.setTask k x).poison = s.poison := rfl
@[simp] theorem State.setTask_bad (s : State) (k : Nat) (x : Task) : (s.setTask k x).bad = s.bad := rfl
@[simp] theorem State.setTask_soft (s : State) (k : Nat) (x : Task) : (s.setTask k x).soft = s.soft := rfl
@[simp] theorem State.setTask_reqs (s : State) (k : Nat) (x : Task) : (s.setTask k x).reqs = s.reqs := rfl
@[simp] theorem State.setTask_reps (s : State) (k : Nat) (x : Task) : (s.setTask k x).reps = s.reps := rfl
@[simp] theorem State.setTask_posted (s : State) (k : Nat) (x : Task) : (s.setTask k x).posted = s.posted := rfl
@[simp] theorem State.setTask_unacked (s : State) (k : Nat) (x : Task) : (s.setTask k x).unacked = s.unacked := rfl
@[simp] theorem State.setTask_qpErr (s : State) (k : Nat) (x : Task) : (s.setTask k x).qpErr = s.qpErr := rfl
@[simp] theorem State.setTask_regions (s : State) (k : Nat) (x : Task) : (s.setTask k x).regions = s.regions := rfl
@[simp] theorem State.setTask_sends (s : State) (k : Nat) (x : Task) : (s.setTask k x).sends = s.sends := rfl
@[simp] theorem State.setTask_cnps (s : State) (k : Nat) (x : Task) : (s.setTask k x).cnps = s.cnps := rfl
@[simp] theorem State.setTask_served (s : State) (k : Nat) (x : Task) : (s.setTask k x).served = s.served := rfl
@[simp] theorem State.setTask_ctxs (s : State) (k : Nat) (x : Task) : (s.setTask k x).ctxs = s.ctxs := rfl
@[simp] theorem State.setTask_queues (s : State) (k : Nat) (x : Task) : (s.setTask k x).queues = s.queues := rfl
@[simp] theorem State.setTask_flocks (s : State) (k : Nat) (x : Task) : (s.setTask k x).flocks = s.flocks := rfl
@[simp] theorem State.setTask_marks (s : State) (k : Nat) (x : Task) : (s.setTask k x).marks = s.marks := rfl
@[simp] theorem State.setTask_seqNo (s : State) (k : Nat) (x : Task) : (s.setTask k x).seqNo = s.seqNo := rfl
@[simp] theorem State.setTask_nextFlock (s : State) (k : Nat) (x : Task) : (s.setTask k x).nextFlock = s.nextFlock := rfl
@[simp] theorem State.setTask_nextAge (s : State) (k : Nat) (x : Task) : (s.setTask k x).nextAge = s.nextAge := rfl
@[simp] theorem State.setTask_nextKey (s : State) (k : Nat) (x : Task) : (s.setTask k x).nextKey = s.nextKey := rfl
@[simp] theorem State.setTask_nextCtx (s : State) (k : Nat) (x : Task) : (s.setTask k x).nextCtx = s.nextCtx := rfl
@[simp] theorem State.setTask_drovers (s : State) (k : Nat) (x : Task) : (s.setTask k x).drovers = s.drovers := rfl
@[simp] theorem State.setTask_cores (s : State) (k : Nat) (x : Task) : (s.setTask k x).cores = s.cores := rfl
@[simp] theorem State.setTask_dies (s : State) (k : Nat) (x : Task) : (s.setTask k x).dies = s.dies := rfl
@[simp] theorem State.setTask_bookings (s : State) (k : Nat) (x : Task) : (s.setTask k x).bookings = s.bookings := rfl
@[simp] theorem State.setTask_mgmt (s : State) (k : Nat) (x : Task) : (s.setTask k x).mgmt = s.mgmt := rfl
@[simp] theorem State.setTask_trace (s : State) (k : Nat) (x : Task) : (s.setTask k x).trace = s.trace := rfl

/-! ### State.setQueue -/

@[simp] theorem State.setQueue_agenda (s : State) (h : Nat) (q : WorkQueue) : (s.setQueue h q).agenda = s.agenda := rfl
@[simp] theorem State.setQueue_sel (s : State) (h : Nat) (q : WorkQueue) : (s.setQueue h q).sel = s.sel := rfl
@[simp] theorem State.setQueue_turn (s : State) (h : Nat) (q : WorkQueue) : (s.setQueue h q).turn = s.turn := rfl
@[simp] theorem State.setQueue_cycle (s : State) (h : Nat) (q : WorkQueue) : (s.setQueue h q).cycle = s.cycle := rfl
@[simp] theorem State.setQueue_mem (s : State) (h : Nat) (q : WorkQueue) : (s.setQueue h q).mem = s.mem := rfl
@[simp] theorem State.setQueue_encTag (s : State) (h : Nat) (q : WorkQueue) : (s.setQueue h q).encTag = s.encTag := rfl
@[simp] theorem State.setQueue_poison (s : State) (h : Nat) (q : WorkQueue) : (s.setQueue h q).poison = s.poison := rfl
@[simp] theorem State.setQueue_bad (s : State) (h : Nat) (q : WorkQueue) : (s.setQueue h q).bad = s.bad := rfl
@[simp] theorem State.setQueue_soft (s : State) (h : Nat) (q : WorkQueue) : (s.setQueue h q).soft = s.soft := rfl
@[simp] theorem State.setQueue_reqs (s : State) (h : Nat) (q : WorkQueue) : (s.setQueue h q).reqs = s.reqs := rfl
@[simp] theorem State.setQueue_reps (s : State) (h : Nat) (q : WorkQueue) : (s.setQueue h q).reps = s.reps := rfl
@[simp] theorem State.setQueue_posted (s : State) (h : Nat) (q : WorkQueue) : (s.setQueue h q).posted = s.posted := rfl
@[simp] theorem State.setQueue_unacked (s : State) (h : Nat) (q : WorkQueue) : (s.setQueue h q).unacked = s.unacked := rfl
@[simp] theorem State.setQueue_qpErr (s : State) (h : Nat) (q : WorkQueue) : (s.setQueue h q).qpErr = s.qpErr := rfl
@[simp] theorem State.setQueue_regions (s : State) (h : Nat) (q : WorkQueue) : (s.setQueue h q).regions = s.regions := rfl
@[simp] theorem State.setQueue_sends (s : State) (h : Nat) (q : WorkQueue) : (s.setQueue h q).sends = s.sends := rfl
@[simp] theorem State.setQueue_cnps (s : State) (h : Nat) (q : WorkQueue) : (s.setQueue h q).cnps = s.cnps := rfl
@[simp] theorem State.setQueue_served (s : State) (h : Nat) (q : WorkQueue) : (s.setQueue h q).served = s.served := rfl
@[simp] theorem State.setQueue_ctxs (s : State) (h : Nat) (q : WorkQueue) : (s.setQueue h q).ctxs = s.ctxs := rfl
@[simp] theorem State.setQueue_tasks (s : State) (h : Nat) (q : WorkQueue) : (s.setQueue h q).tasks = s.tasks := rfl
@[simp] theorem State.setQueue_flocks (s : State) (h : Nat) (q : WorkQueue) : (s.setQueue h q).flocks = s.flocks := rfl
@[simp] theorem State.setQueue_marks (s : State) (h : Nat) (q : WorkQueue) : (s.setQueue h q).marks = s.marks := rfl
@[simp] theorem State.setQueue_seqNo (s : State) (h : Nat) (q : WorkQueue) : (s.setQueue h q).seqNo = s.seqNo := rfl
@[simp] theorem State.setQueue_nextFlock (s : State) (h : Nat) (q : WorkQueue) : (s.setQueue h q).nextFlock = s.nextFlock := rfl
@[simp] theorem State.setQueue_nextAge (s : State) (h : Nat) (q : WorkQueue) : (s.setQueue h q).nextAge = s.nextAge := rfl
@[simp] theorem State.setQueue_nextKey (s : State) (h : Nat) (q : WorkQueue) : (s.setQueue h q).nextKey = s.nextKey := rfl
@[simp] theorem State.setQueue_nextCtx (s : State) (h : Nat) (q : WorkQueue) : (s.setQueue h q).nextCtx = s.nextCtx := rfl
@[simp] theorem State.setQueue_drovers (s : State) (h : Nat) (q : WorkQueue) : (s.setQueue h q).drovers = s.drovers := rfl
@[simp] theorem State.setQueue_cores (s : State) (h : Nat) (q : WorkQueue) : (s.setQueue h q).cores = s.cores := rfl
@[simp] theorem State.setQueue_dies (s : State) (h : Nat) (q : WorkQueue) : (s.setQueue h q).dies = s.dies := rfl
@[simp] theorem State.setQueue_bookings (s : State) (h : Nat) (q : WorkQueue) : (s.setQueue h q).bookings = s.bookings := rfl
@[simp] theorem State.setQueue_mgmt (s : State) (h : Nat) (q : WorkQueue) : (s.setQueue h q).mgmt = s.mgmt := rfl
@[simp] theorem State.setQueue_trace (s : State) (h : Nat) (q : WorkQueue) : (s.setQueue h q).trace = s.trace := rfl

/-! ### State.setCur -/

@[simp] theorem State.setCur_agenda (s : State) (d : Drover) : (s.setCur d).agenda = s.agenda := rfl
@[simp] theorem State.setCur_sel (s : State) (d : Drover) : (s.setCur d).sel = s.sel := rfl
@[simp] theorem State.setCur_turn (s : State) (d : Drover) : (s.setCur d).turn = s.turn := rfl
@[simp] theorem State.setCur_cycle (s : State) (d : Drover) : (s.setCur d).cycle = s.cycle := rfl
@[simp] theorem State.setCur_mem (s : State) (d : Drover) : (s.setCur d).mem = s.mem := rfl
@[simp] theorem State.setCur_encTag (s : State) (d : Drover) : (s.setCur d).encTag = s.encTag := rfl
@[simp] theorem State.setCur_poison (s : State) (d : Drover) : (s.setCur d).poison = s.poison := rfl
@[simp] theorem State.setCur_bad (s : State) (d : Drover) : (s.setCur d).bad = s.bad := rfl
@[simp] theorem State.setCur_soft (s : State) (d : Drover) : (s.setCur d).soft = s.soft := rfl
@[simp] theorem State.setCur_reqs (s : State) (d : Drover) : (s.setCur d).reqs = s.reqs := rfl
@[simp] theorem State.setCur_reps (s : State) (d : Drover) : (s.setCur d).reps = s.reps := rfl
@[simp] theorem State.setCur_posted (s : State) (d : Drover) : (s.setCur d).posted = s.posted := rfl
@[simp] theorem State.setCur_unacked (s : State) (d : Drover) : (s.setCur d).unacked = s.unacked := rfl
@[simp] theorem State.setCur_qpErr (s : State) (d : Drover) : (s.setCur d).qpErr = s.qpErr := rfl
@[simp] theorem State.setCur_regions (s : State) (d : Drover) : (s.setCur d).regions = s.regions := rfl
@[simp] theorem State.setCur_sends (s : State) (d : Drover) : (s.setCur d).sends = s.sends := rfl
@[simp] theorem State.setCur_cnps (s : State) (d : Drover) : (s.setCur d).cnps = s.cnps := rfl
@[simp] theorem State.setCur_served (s : State) (d : Drover) : (s.setCur d).served = s.served := rfl
@[simp] theorem State.setCur_ctxs (s : State) (d : Drover) : (s.setCur d).ctxs = s.ctxs := rfl
@[simp] theorem State.setCur_queues (s : State) (d : Drover) : (s.setCur d).queues = s.queues := rfl
@[simp] theorem State.setCur_tasks (s : State) (d : Drover) : (s.setCur d).tasks = s.tasks := rfl
@[simp] theorem State.setCur_flocks (s : State) (d : Drover) : (s.setCur d).flocks = s.flocks := rfl
@[simp] theorem State.setCur_marks (s : State) (d : Drover) : (s.setCur d).marks = s.marks := rfl
@[simp] theorem State.setCur_seqNo (s : State) (d : Drover) : (s.setCur d).seqNo = s.seqNo := rfl
@[simp] theorem State.setCur_nextFlock (s : State) (d : Drover) : (s.setCur d).nextFlock = s.nextFlock := rfl
@[simp] theorem State.setCur_nextAge (s : State) (d : Drover) : (s.setCur d).nextAge = s.nextAge := rfl
@[simp] theorem State.setCur_nextKey (s : State) (d : Drover) : (s.setCur d).nextKey = s.nextKey := rfl
@[simp] theorem State.setCur_nextCtx (s : State) (d : Drover) : (s.setCur d).nextCtx = s.nextCtx := rfl
@[simp] theorem State.setCur_cores (s : State) (d : Drover) : (s.setCur d).cores = s.cores := rfl
@[simp] theorem State.setCur_dies (s : State) (d : Drover) : (s.setCur d).dies = s.dies := rfl
@[simp] theorem State.setCur_bookings (s : State) (d : Drover) : (s.setCur d).bookings = s.bookings := rfl
@[simp] theorem State.setCur_mgmt (s : State) (d : Drover) : (s.setCur d).mgmt = s.mgmt := rfl
@[simp] theorem State.setCur_trace (s : State) (d : Drover) : (s.setCur d).trace = s.trace := rfl

/-! ### Reading a block after writing one -/

@[simp] theorem State.drover_setDrover (s : State) (k : Nat) (d : Drover) : (s.setDrover k d).drover k = d := by
  simp [State.drover, State.setDrover]
theorem State.drover_setDrover_other (s : State) (k j : Nat) (d : Drover) (h : j ≠ k) : (s.setDrover k d).drover j = s.drover j := by
  simp [State.drover, State.setDrover, assocGetD_put_other _ _ _ _ _ h]
@[simp] theorem State.cur_setCur (s : State) (d : Drover) : (s.setCur d).cur = d := by simp [State.cur, State.setCur, State.setDrover_sel]
@[simp] theorem State.setDrover_setDrover (s : State) (k : Nat) (d e : Drover) : (s.setDrover k d).setDrover k e = s.setDrover k e := by
  simp [State.setDrover]
@[simp] theorem State.setCur_setCur (s : State) (d e : Drover) : (s.setCur d).setCur e = s.setCur e := by
  simp [State.setCur, State.setDrover_sel]
@[simp] theorem State.core_setDrover (s : State) (k : Nat) (d : Drover) (c : Nat) : (s.setDrover k d).core c = s.core c := rfl
@[simp] theorem State.die_setDrover (s : State) (k : Nat) (d : Drover) (c : Nat) : (s.setDrover k d).die c = s.die c := rfl
@[simp] theorem State.flock_setDrover (s : State) (k : Nat) (d : Drover) (c : Nat) : (s.setDrover k d).flock c = s.flock c := rfl
@[simp] theorem State.context_setDrover (s : State) (k : Nat) (d : Drover) (c : Nat) : (s.setDrover k d).context c = s.context c := rfl
@[simp] theorem State.drover_setCore (s : State) (c : Nat) (x : Core) (k : Nat) : (s.setCore c x).drover k = s.drover k := rfl
@[simp] theorem State.drover_setDie (s : State) (n : Nat) (x : Die) (k : Nat) : (s.setDie n x).drover k = s.drover k := rfl
@[simp] theorem State.cur_setCore (s : State) (c : Nat) (x : Core) : (s.setCore c x).cur = s.cur := rfl
@[simp] theorem State.cur_setDie (s : State) (n : Nat) (x : Die) : (s.setDie n x).cur = s.cur := rfl
@[simp] theorem State.core_setCore (s : State) (c : Nat) (x : Core) : (s.setCore c x).core c = x := by simp [State.core, State.setCore]
theorem State.core_setCore_other (s : State) (c e : Nat) (x : Core) (h : e ≠ c) : (s.setCore c x).core e = s.core e := by
  simp [State.core, State.setCore, assocGetD_put_other _ _ _ _ _ h]
@[simp] theorem State.die_setDie (s : State) (c : Nat) (x : Die) : (s.setDie c x).die c = x := by simp [State.die, State.setDie]
@[simp] theorem State.flock_setFlock (s : State) (c : Nat) (x : Flock) : (s.setFlock c x).flock c = some x := by
  simp [State.flock, State.setFlock, assocGet_put_same]
@[simp] theorem State.task_setTask (s : State) (c : Nat) (x : Task) : (s.setTask c x).task c = some x := by
  simp [State.task, State.setTask, assocGet_put_same]
@[simp] theorem State.queue_setQueue (s : State) (c : Nat) (x : WorkQueue) : (s.setQueue c x).queue c = some x := by
  simp [State.queue, State.setQueue, assocGet_put_same]

/-! ### Drover.setG -/

@[simp] theorem Drover.setG_flock (d : Drover) (r : Reg) (v : Word) : (d.setG r v).flock = d.flock := by unfold Drover.setG; split <;> rfl
@[simp] theorem Drover.setG_ctx (d : Drover) (r : Reg) (v : Word) : (d.setG r v).ctx = d.ctx := by unfold Drover.setG; split <;> rfl
@[simp] theorem Drover.setG_fcore (d : Drover) (r : Reg) (v : Word) : (d.setG r v).fcore = d.fcore := by unfold Drover.setG; split <;> rfl
@[simp] theorem Drover.setG_index (d : Drover) (r : Reg) (v : Word) : (d.setG r v).index = d.index := by unfold Drover.setG; split <;> rfl
@[simp] theorem Drover.setG_rowsAlloc (d : Drover) (r : Reg) (v : Word) : (d.setG r v).rowsAlloc = d.rowsAlloc := by unfold Drover.setG; split <;> rfl
@[simp] theorem Drover.setG_accAlloc (d : Drover) (r : Reg) (v : Word) : (d.setG r v).accAlloc = d.accAlloc := by unfold Drover.setG; split <;> rfl
@[simp] theorem Drover.setG_lgMin (d : Drover) (r : Reg) (v : Word) : (d.setG r v).lgMin = d.lgMin := by unfold Drover.setG; split <;> rfl
@[simp] theorem Drover.setG_lgMax (d : Drover) (r : Reg) (v : Word) : (d.setG r v).lgMax = d.lgMax := by unfold Drover.setG; split <;> rfl
@[simp] theorem Drover.setG_tileLo (d : Drover) (r : Reg) (v : Word) : (d.setG r v).tileLo = d.tileLo := by unfold Drover.setG; split <;> rfl
@[simp] theorem Drover.setG_tileLen (d : Drover) (r : Reg) (v : Word) : (d.setG r v).tileLen = d.tileLen := by unfold Drover.setG; split <;> rfl
@[simp] theorem Drover.setG_pc (d : Drover) (r : Reg) (v : Word) : (d.setG r v).pc = d.pc := by unfold Drover.setG; split <;> rfl
@[simp] theorem Drover.setG_state (d : Drover) (r : Reg) (v : Word) : (d.setG r v).state = d.state := by unfold Drover.setG; split <;> rfl
@[simp] theorem Drover.setG_wait (d : Drover) (r : Reg) (v : Word) : (d.setG r v).wait = d.wait := by unfold Drover.setG; split <;> rfl
@[simp] theorem Drover.setG_latch (d : Drover) (r : Reg) (v : Word) : (d.setG r v).latch = d.latch := by unfold Drover.setG; split <;> rfl
@[simp] theorem Drover.setG_stall (d : Drover) (r : Reg) (v : Word) : (d.setG r v).stall = d.stall := by unfold Drover.setG; split <;> rfl
@[simp] theorem Drover.setG_resume (d : Drover) (r : Reg) (v : Word) : (d.setG r v).resume = d.resume := by unfold Drover.setG; split <;> rfl
@[simp] theorem Drover.setG_viaEret (d : Drover) (r : Reg) (v : Word) : (d.setG r v).viaEret = d.viaEret := by unfold Drover.setG; split <;> rfl
@[simp] theorem Drover.setG_atHandler (d : Drover) (r : Reg) (v : Word) : (d.setG r v).atHandler = d.atHandler := by unfold Drover.setG; split <;> rfl
@[simp] theorem Drover.setG_restart (d : Drover) (r : Reg) (v : Word) : (d.setG r v).restart = d.restart := by unfold Drover.setG; split <;> rfl
@[simp] theorem Drover.setG_raised (d : Drover) (r : Reg) (v : Word) : (d.setG r v).raised = d.raised := by unfold Drover.setG; split <;> rfl
@[simp] theorem Drover.setG_yieldUntil (d : Drover) (r : Reg) (v : Word) : (d.setG r v).yieldUntil = d.yieldUntil := by unfold Drover.setG; split <;> rfl
@[simp] theorem Drover.setG_yieldFor (d : Drover) (r : Reg) (v : Word) : (d.setG r v).yieldFor = d.yieldFor := by unfold Drover.setG; split <;> rfl
@[simp] theorem Drover.setG_tdone (d : Drover) (r : Reg) (v : Word) : (d.setG r v).tdone = d.tdone := by unfold Drover.setG; split <;> rfl
@[simp] theorem Drover.setG_lgm (d : Drover) (r : Reg) (v : Word) : (d.setG r v).lgm = d.lgm := by unfold Drover.setG; split <;> rfl
@[simp] theorem Drover.setG_gc (d : Drover) (r : Reg) (v : Word) : (d.setG r v).gc = d.gc := by unfold Drover.setG; split <;> rfl
@[simp] theorem Drover.setG_granted (d : Drover) (r : Reg) (v : Word) : (d.setG r v).granted = d.granted := by unfold Drover.setG; split <;> rfl
@[simp] theorem Drover.setG_parked (d : Drover) (r : Reg) (v : Word) : (d.setG r v).parked = d.parked := by unfold Drover.setG; split <;> rfl
@[simp] theorem Drover.setG_request (d : Drover) (r : Reg) (v : Word) : (d.setG r v).request = d.request := by unfold Drover.setG; split <;> rfl
@[simp] theorem Drover.setG_typed (d : Drover) (r : Reg) (v : Word) : (d.setG r v).typed = d.typed := by unfold Drover.setG; split <;> rfl
@[simp] theorem Drover.setG_configured (d : Drover) (r : Reg) (v : Word) : (d.setG r v).configured = d.configured := by unfold Drover.setG; split <;> rfl
@[simp] theorem Drover.setG_vec (d : Drover) (r : Reg) (v : Word) : (d.setG r v).vec = d.vec := by unfold Drover.setG; split <;> rfl
@[simp] theorem Drover.setG_fef (d : Drover) (r : Reg) (v : Word) : (d.setG r v).fef = d.fef := by unfold Drover.setG; split <;> rfl
@[simp] theorem Drover.setG_fee (d : Drover) (r : Reg) (v : Word) : (d.setG r v).fee = d.fee := by unfold Drover.setG; split <;> rfl
@[simp] theorem Drover.setG_fei (d : Drover) (r : Reg) (v : Word) : (d.setG r v).fei = d.fei := by unfold Drover.setG; split <;> rfl
@[simp] theorem Drover.setG_sms (d : Drover) (r : Reg) (v : Word) : (d.setG r v).sms = d.sms := by unfold Drover.setG; split <;> rfl
@[simp] theorem Drover.setG_reps (d : Drover) (r : Reg) (v : Word) : (d.setG r v).reps = d.reps := by unfold Drover.setG; split <;> rfl
@[simp] theorem Drover.setG_cwm (d : Drover) (r : Reg) (v : Word) : (d.setG r v).cwm = d.cwm := by unfold Drover.setG; split <;> rfl
@[simp] theorem Drover.setG_cnx (d : Drover) (r : Reg) (v : Word) : (d.setG r v).cnx = d.cnx := by unfold Drover.setG; split <;> rfl
@[simp] theorem Drover.setG_doneIds (d : Drover) (r : Reg) (v : Word) : (d.setG r v).doneIds = d.doneIds := by unfold Drover.setG; split <;> rfl
@[simp] theorem Drover.setG_streams (d : Drover) (r : Reg) (v : Word) : (d.setG r v).streams = d.streams := by unfold Drover.setG; split <;> rfl
@[simp] theorem Drover.setG_cst (d : Drover) (r : Reg) (v : Word) : (d.setG r v).cst = d.cst := by unfold Drover.setG; split <;> rfl
@[simp] theorem Drover.setG_capture (d : Drover) (r : Reg) (v : Word) : (d.setG r v).capture = d.capture := by unfold Drover.setG; split <;> rfl
@[simp] theorem Drover.setG_template (d : Drover) (r : Reg) (v : Word) : (d.setG r v).template = d.template := by unfold Drover.setG; split <;> rfl
@[simp] theorem Drover.setG_run (d : Drover) (r : Reg) (v : Word) : (d.setG r v).run = d.run := by unfold Drover.setG; split <;> rfl
@[simp] theorem Drover.setG_bks (d : Drover) (r : Reg) (v : Word) : (d.setG r v).bks = d.bks := by unfold Drover.setG; split <;> rfl
@[simp] theorem Drover.setG_tr (d : Drover) (r : Reg) (v : Word) : (d.setG r v).tr = d.tr := by unfold Drover.setG; split <;> rfl
@[simp] theorem Drover.setG_susp (d : Drover) (r : Reg) (v : Word) : (d.setG r v).susp = d.susp := by unfold Drover.setG; split <;> rfl
@[simp] theorem Drover.setG_pending (d : Drover) (r : Reg) (v : Word) : (d.setG r v).pending = d.pending := by unfold Drover.setG; split <;> rfl
@[simp] theorem Drover.setG_answers (d : Drover) (r : Reg) (v : Word) : (d.setG r v).answers = d.answers := by unfold Drover.setG; split <;> rfl
@[simp] theorem Drover.setG_dbgHalt (d : Drover) (r : Reg) (v : Word) : (d.setG r v).dbgHalt = d.dbgHalt := by unfold Drover.setG; split <;> rfl
@[simp] theorem Drover.setG_preempted (d : Drover) (r : Reg) (v : Word) : (d.setG r v).preempted = d.preempted := by unfold Drover.setG; split <;> rfl
@[simp] theorem Drover.setG_strips (d : Drover) (r : Reg) (v : Word) : (d.setG r v).strips = d.strips := by unfold Drover.setG; split <;> rfl
@[simp] theorem Drover.setG_strp (d : Drover) (r : Reg) (v : Word) : (d.setG r v).strp = d.strp := by unfold Drover.setG; split <;> rfl
@[simp] theorem Drover.setG_stro (d : Drover) (r : Reg) (v : Word) : (d.setG r v).stro = d.stro := by unfold Drover.setG; split <;> rfl
@[simp] theorem Drover.setG_inStrip (d : Drover) (r : Reg) (v : Word) : (d.setG r v).inStrip = d.inStrip := by unfold Drover.setG; split <;> rfl
@[simp] theorem Drover.setG_lanes (d : Drover) (r : Reg) (v : Word) : (d.setG r v).lanes = d.lanes := by unfold Drover.setG; split <;> rfl
@[simp] theorem Drover.setG_laneMask (d : Drover) (r : Reg) (v : Word) : (d.setG r v).laneMask = d.laneMask := by unfold Drover.setG; split <;> rfl
@[simp] theorem Drover.setG_occupied (d : Drover) (r : Reg) (v : Word) : (d.setG r v).occupied = d.occupied := by unfold Drover.setG; split <;> rfl
@[simp] theorem Drover.setG_stepping (d : Drover) (r : Reg) (v : Word) : (d.setG r v).stepping = d.stepping := by unfold Drover.setG; split <;> rfl
@[simp] theorem Drover.setG_stepped (d : Drover) (r : Reg) (v : Word) : (d.setG r v).stepped = d.stepped := by unfold Drover.setG; split <;> rfl
@[simp] theorem Drover.setG_skip1 (d : Drover) (r : Reg) (v : Word) : (d.setG r v).skip1 = d.skip1 := by unfold Drover.setG; split <;> rfl
@[simp] theorem Drover.setG_born (d : Drover) (r : Reg) (v : Word) : (d.setG r v).born = d.born := by unfold Drover.setG; split <;> rfl
@[simp] theorem Drover.setG_tileUse (d : Drover) (r : Reg) (v : Word) : (d.setG r v).tileUse = d.tileUse := by unfold Drover.setG; split <;> rfl
@[simp] theorem Drover.setG_ppix (d : Drover) (r : Reg) (v : Word) : (d.setG r v).ppix = d.ppix := by unfold Drover.setG; split <;> rfl
@[simp] theorem Drover.setG_hold (d : Drover) (r : Reg) (v : Word) : (d.setG r v).hold = d.hold := by unfold Drover.setG; split <;> rfl
@[simp] theorem Drover.setG_again (d : Drover) (r : Reg) (v : Word) : (d.setG r v).again = d.again := by unfold Drover.setG; split <;> rfl
@[simp] theorem Drover.setG_repBack (d : Drover) (r : Reg) (v : Word) : (d.setG r v).repBack = d.repBack := by unfold Drover.setG; split <;> rfl
@[simp] theorem Drover.setG_dead (d : Drover) (r : Reg) (v : Word) : (d.setG r v).dead = d.dead := by unfold Drover.setG; split <;> rfl
@[simp] theorem Drover.setG_spilled (d : Drover) (r : Reg) (v : Word) : (d.setG r v).spilled = d.spilled := by unfold Drover.setG; split <;> rfl
@[simp] theorem Drover.setG_ecc (d : Drover) (r : Reg) (v : Word) : (d.setG r v).ecc = d.ecc := by unfold Drover.setG; split <;> rfl

/-- A register reads as it was written; g0 reads 0 (R38, R39). -/
theorem Drover.getG_setG (d : Drover) (a r : Reg) (v : Word) :
    (d.setG a v).getG r = if r = 0 then 0 else if r = a then v else d.getG r := by
  unfold Drover.setG Drover.getG
  by_cases ha : a = 0 <;> by_cases hr : r = 0 <;> simp_all
  by_cases h : r = a
  · subst h; simp
  · have : a.toNat ≠ r.toNat := fun e => h (BitVec.eq_of_toNat_eq e.symm)
    simp [h, this]

/-! ### Drover.issued and Drover.retire -/

@[simp] theorem Drover.issued_flock (d : Drover) : d.issued.flock = d.flock := rfl
@[simp] theorem Drover.issued_ctx (d : Drover) : d.issued.ctx = d.ctx := rfl
@[simp] theorem Drover.issued_fcore (d : Drover) : d.issued.fcore = d.fcore := rfl
@[simp] theorem Drover.issued_index (d : Drover) : d.issued.index = d.index := rfl
@[simp] theorem Drover.issued_rowsAlloc (d : Drover) : d.issued.rowsAlloc = d.rowsAlloc := rfl
@[simp] theorem Drover.issued_accAlloc (d : Drover) : d.issued.accAlloc = d.accAlloc := rfl
@[simp] theorem Drover.issued_lgMin (d : Drover) : d.issued.lgMin = d.lgMin := rfl
@[simp] theorem Drover.issued_lgMax (d : Drover) : d.issued.lgMax = d.lgMax := rfl
@[simp] theorem Drover.issued_tileLo (d : Drover) : d.issued.tileLo = d.tileLo := rfl
@[simp] theorem Drover.issued_tileLen (d : Drover) : d.issued.tileLen = d.tileLen := rfl
@[simp] theorem Drover.issued_g (d : Drover) : d.issued.g = d.g := rfl
@[simp] theorem Drover.issued_pc (d : Drover) : d.issued.pc = d.pc := rfl
@[simp] theorem Drover.issued_state (d : Drover) : d.issued.state = d.state := rfl
@[simp] theorem Drover.issued_wait (d : Drover) : d.issued.wait = d.wait := rfl
@[simp] theorem Drover.issued_latch (d : Drover) : d.issued.latch = d.latch := rfl
@[simp] theorem Drover.issued_stall (d : Drover) : d.issued.stall = d.stall := rfl
@[simp] theorem Drover.issued_atHandler (d : Drover) : d.issued.atHandler = d.atHandler := rfl
@[simp] theorem Drover.issued_restart (d : Drover) : d.issued.restart = d.restart := rfl
@[simp] theorem Drover.issued_raised (d : Drover) : d.issued.raised = d.raised := rfl
@[simp] theorem Drover.issued_yieldUntil (d : Drover) : d.issued.yieldUntil = d.yieldUntil := rfl
@[simp] theorem Drover.issued_yieldFor (d : Drover) : d.issued.yieldFor = d.yieldFor := rfl
@[simp] theorem Drover.issued_tdone (d : Drover) : d.issued.tdone = d.tdone := rfl
@[simp] theorem Drover.issued_lgm (d : Drover) : d.issued.lgm = d.lgm := rfl
@[simp] theorem Drover.issued_gc (d : Drover) : d.issued.gc = d.gc := rfl
@[simp] theorem Drover.issued_granted (d : Drover) : d.issued.granted = d.granted := rfl
@[simp] theorem Drover.issued_parked (d : Drover) : d.issued.parked = d.parked := rfl
@[simp] theorem Drover.issued_request (d : Drover) : d.issued.request = d.request := rfl
@[simp] theorem Drover.issued_typed (d : Drover) : d.issued.typed = d.typed := rfl
@[simp] theorem Drover.issued_configured (d : Drover) : d.issued.configured = d.configured := rfl
@[simp] theorem Drover.issued_vec (d : Drover) : d.issued.vec = d.vec := rfl
@[simp] theorem Drover.issued_fef (d : Drover) : d.issued.fef = d.fef := rfl
@[simp] theorem Drover.issued_fee (d : Drover) : d.issued.fee = d.fee := rfl
@[simp] theorem Drover.issued_fei (d : Drover) : d.issued.fei = d.fei := rfl
@[simp] theorem Drover.issued_sms (d : Drover) : d.issued.sms = d.sms := rfl
@[simp] theorem Drover.issued_reps (d : Drover) : d.issued.reps = d.reps := rfl
@[simp] theorem Drover.issued_cwm (d : Drover) : d.issued.cwm = d.cwm := rfl
@[simp] theorem Drover.issued_cnx (d : Drover) : d.issued.cnx = d.cnx := rfl
@[simp] theorem Drover.issued_doneIds (d : Drover) : d.issued.doneIds = d.doneIds := rfl
@[simp] theorem Drover.issued_streams (d : Drover) : d.issued.streams = d.streams := rfl
@[simp] theorem Drover.issued_cst (d : Drover) : d.issued.cst = d.cst := rfl
@[simp] theorem Drover.issued_capture (d : Drover) : d.issued.capture = d.capture := rfl
@[simp] theorem Drover.issued_template (d : Drover) : d.issued.template = d.template := rfl
@[simp] theorem Drover.issued_run (d : Drover) : d.issued.run = d.run := rfl
@[simp] theorem Drover.issued_bks (d : Drover) : d.issued.bks = d.bks := rfl
@[simp] theorem Drover.issued_susp (d : Drover) : d.issued.susp = d.susp := rfl
@[simp] theorem Drover.issued_pending (d : Drover) : d.issued.pending = d.pending := rfl
@[simp] theorem Drover.issued_answers (d : Drover) : d.issued.answers = d.answers := rfl
@[simp] theorem Drover.issued_dbgHalt (d : Drover) : d.issued.dbgHalt = d.dbgHalt := rfl
@[simp] theorem Drover.issued_preempted (d : Drover) : d.issued.preempted = d.preempted := rfl
@[simp] theorem Drover.issued_strips (d : Drover) : d.issued.strips = d.strips := rfl
@[simp] theorem Drover.issued_strp (d : Drover) : d.issued.strp = d.strp := rfl
@[simp] theorem Drover.issued_stro (d : Drover) : d.issued.stro = d.stro := rfl
@[simp] theorem Drover.issued_inStrip (d : Drover) : d.issued.inStrip = d.inStrip := rfl
@[simp] theorem Drover.issued_lanes (d : Drover) : d.issued.lanes = d.lanes := rfl
@[simp] theorem Drover.issued_laneMask (d : Drover) : d.issued.laneMask = d.laneMask := rfl
@[simp] theorem Drover.issued_occupied (d : Drover) : d.issued.occupied = d.occupied := rfl
@[simp] theorem Drover.issued_stepping (d : Drover) : d.issued.stepping = d.stepping := rfl
@[simp] theorem Drover.issued_stepped (d : Drover) : d.issued.stepped = d.stepped := rfl
@[simp] theorem Drover.issued_skip1 (d : Drover) : d.issued.skip1 = d.skip1 := rfl
@[simp] theorem Drover.issued_born (d : Drover) : d.issued.born = d.born := rfl
@[simp] theorem Drover.issued_tileUse (d : Drover) : d.issued.tileUse = d.tileUse := rfl
@[simp] theorem Drover.issued_ppix (d : Drover) : d.issued.ppix = d.ppix := rfl
@[simp] theorem Drover.issued_hold (d : Drover) : d.issued.hold = d.hold := rfl
@[simp] theorem Drover.issued_again (d : Drover) : d.issued.again = d.again := rfl
@[simp] theorem Drover.issued_repBack (d : Drover) : d.issued.repBack = d.repBack := rfl
@[simp] theorem Drover.issued_dead (d : Drover) : d.issued.dead = d.dead := rfl
@[simp] theorem Drover.issued_spilled (d : Drover) : d.issued.spilled = d.spilled := rfl
@[simp] theorem Drover.issued_ecc (d : Drover) : d.issued.ecc = d.ecc := rfl
@[simp] theorem Drover.retire_flock (d : Drover) : d.retire.flock = d.flock := by
  unfold Drover.retire; dsimp only; split
  · split <;> rfl
  · rfl
@[simp] theorem Drover.retire_ctx (d : Drover) : d.retire.ctx = d.ctx := by
  unfold Drover.retire; dsimp only; split
  · split <;> rfl
  · rfl
@[simp] theorem Drover.retire_fcore (d : Drover) : d.retire.fcore = d.fcore := by
  unfold Drover.retire; dsimp only; split
  · split <;> rfl
  · rfl
@[simp] theorem Drover.retire_index (d : Drover) : d.retire.index = d.index := by
  unfold Drover.retire; dsimp only; split
  · split <;> rfl
  · rfl
@[simp] theorem Drover.retire_rowsAlloc (d : Drover) : d.retire.rowsAlloc = d.rowsAlloc := by
  unfold Drover.retire; dsimp only; split
  · split <;> rfl
  · rfl
@[simp] theorem Drover.retire_accAlloc (d : Drover) : d.retire.accAlloc = d.accAlloc := by
  unfold Drover.retire; dsimp only; split
  · split <;> rfl
  · rfl
@[simp] theorem Drover.retire_lgMin (d : Drover) : d.retire.lgMin = d.lgMin := by
  unfold Drover.retire; dsimp only; split
  · split <;> rfl
  · rfl
@[simp] theorem Drover.retire_lgMax (d : Drover) : d.retire.lgMax = d.lgMax := by
  unfold Drover.retire; dsimp only; split
  · split <;> rfl
  · rfl
@[simp] theorem Drover.retire_tileLo (d : Drover) : d.retire.tileLo = d.tileLo := by
  unfold Drover.retire; dsimp only; split
  · split <;> rfl
  · rfl
@[simp] theorem Drover.retire_tileLen (d : Drover) : d.retire.tileLen = d.tileLen := by
  unfold Drover.retire; dsimp only; split
  · split <;> rfl
  · rfl
@[simp] theorem Drover.retire_g (d : Drover) : d.retire.g = d.g := by
  unfold Drover.retire; dsimp only; split
  · split <;> rfl
  · rfl
@[simp] theorem Drover.retire_state (d : Drover) : d.retire.state = d.state := by
  unfold Drover.retire; dsimp only; split
  · split <;> rfl
  · rfl
@[simp] theorem Drover.retire_wait (d : Drover) : d.retire.wait = d.wait := by
  unfold Drover.retire; dsimp only; split
  · split <;> rfl
  · rfl
@[simp] theorem Drover.retire_latch (d : Drover) : d.retire.latch = d.latch := by
  unfold Drover.retire; dsimp only; split
  · split <;> rfl
  · rfl
@[simp] theorem Drover.retire_yieldUntil (d : Drover) : d.retire.yieldUntil = d.yieldUntil := by
  unfold Drover.retire; dsimp only; split
  · split <;> rfl
  · rfl
@[simp] theorem Drover.retire_yieldFor (d : Drover) : d.retire.yieldFor = d.yieldFor := by
  unfold Drover.retire; dsimp only; split
  · split <;> rfl
  · rfl
@[simp] theorem Drover.retire_tdone (d : Drover) : d.retire.tdone = d.tdone := by
  unfold Drover.retire; dsimp only; split
  · split <;> rfl
  · rfl
@[simp] theorem Drover.retire_lgm (d : Drover) : d.retire.lgm = d.lgm := by
  unfold Drover.retire; dsimp only; split
  · split <;> rfl
  · rfl
@[simp] theorem Drover.retire_gc (d : Drover) : d.retire.gc = d.gc := by
  unfold Drover.retire; dsimp only; split
  · split <;> rfl
  · rfl
@[simp] theorem Drover.retire_granted (d : Drover) : d.retire.granted = d.granted := by
  unfold Drover.retire; dsimp only; split
  · split <;> rfl
  · rfl
@[simp] theorem Drover.retire_parked (d : Drover) : d.retire.parked = d.parked := by
  unfold Drover.retire; dsimp only; split
  · split <;> rfl
  · rfl
@[simp] theorem Drover.retire_request (d : Drover) : d.retire.request = d.request := by
  unfold Drover.retire; dsimp only; split
  · split <;> rfl
  · rfl
@[simp] theorem Drover.retire_typed (d : Drover) : d.retire.typed = d.typed := by
  unfold Drover.retire; dsimp only; split
  · split <;> rfl
  · rfl
@[simp] theorem Drover.retire_configured (d : Drover) : d.retire.configured = d.configured := by
  unfold Drover.retire; dsimp only; split
  · split <;> rfl
  · rfl
@[simp] theorem Drover.retire_vec (d : Drover) : d.retire.vec = d.vec := by
  unfold Drover.retire; dsimp only; split
  · split <;> rfl
  · rfl
@[simp] theorem Drover.retire_fef (d : Drover) : d.retire.fef = d.fef := by
  unfold Drover.retire; dsimp only; split
  · split <;> rfl
  · rfl
@[simp] theorem Drover.retire_fee (d : Drover) : d.retire.fee = d.fee := by
  unfold Drover.retire; dsimp only; split
  · split <;> rfl
  · rfl
@[simp] theorem Drover.retire_fei (d : Drover) : d.retire.fei = d.fei := by
  unfold Drover.retire; dsimp only; split
  · split <;> rfl
  · rfl
@[simp] theorem Drover.retire_sms (d : Drover) : d.retire.sms = d.sms := by
  unfold Drover.retire; dsimp only; split
  · split <;> rfl
  · rfl
@[simp] theorem Drover.retire_cwm (d : Drover) : d.retire.cwm = d.cwm := by
  unfold Drover.retire; dsimp only; split
  · split <;> rfl
  · rfl
@[simp] theorem Drover.retire_cnx (d : Drover) : d.retire.cnx = d.cnx := by
  unfold Drover.retire; dsimp only; split
  · split <;> rfl
  · rfl
@[simp] theorem Drover.retire_doneIds (d : Drover) : d.retire.doneIds = d.doneIds := by
  unfold Drover.retire; dsimp only; split
  · split <;> rfl
  · rfl
@[simp] theorem Drover.retire_streams (d : Drover) : d.retire.streams = d.streams := by
  unfold Drover.retire; dsimp only; split
  · split <;> rfl
  · rfl
@[simp] theorem Drover.retire_cst (d : Drover) : d.retire.cst = d.cst := by
  unfold Drover.retire; dsimp only; split
  · split <;> rfl
  · rfl
@[simp] theorem Drover.retire_capture (d : Drover) : d.retire.capture = d.capture := by
  unfold Drover.retire; dsimp only; split
  · split <;> rfl
  · rfl
@[simp] theorem Drover.retire_template (d : Drover) : d.retire.template = d.template := by
  unfold Drover.retire; dsimp only; split
  · split <;> rfl
  · rfl
@[simp] theorem Drover.retire_run (d : Drover) : d.retire.run = d.run := by
  unfold Drover.retire; dsimp only; split
  · split <;> rfl
  · rfl
@[simp] theorem Drover.retire_bks (d : Drover) : d.retire.bks = d.bks := by
  unfold Drover.retire; dsimp only; split
  · split <;> rfl
  · rfl
@[simp] theorem Drover.retire_susp (d : Drover) : d.retire.susp = d.susp := by
  unfold Drover.retire; dsimp only; split
  · split <;> rfl
  · rfl
@[simp] theorem Drover.retire_pending (d : Drover) : d.retire.pending = d.pending := by
  unfold Drover.retire; dsimp only; split
  · split <;> rfl
  · rfl
@[simp] theorem Drover.retire_answers (d : Drover) : d.retire.answers = d.answers := by
  unfold Drover.retire; dsimp only; split
  · split <;> rfl
  · rfl
@[simp] theorem Drover.retire_dbgHalt (d : Drover) : d.retire.dbgHalt = d.dbgHalt := by
  unfold Drover.retire; dsimp only; split
  · split <;> rfl
  · rfl
@[simp] theorem Drover.retire_preempted (d : Drover) : d.retire.preempted = d.preempted := by
  unfold Drover.retire; dsimp only; split
  · split <;> rfl
  · rfl
@[simp] theorem Drover.retire_strips (d : Drover) : d.retire.strips = d.strips := by
  unfold Drover.retire; dsimp only; split
  · split <;> rfl
  · rfl
@[simp] theorem Drover.retire_strp (d : Drover) : d.retire.strp = d.strp := by
  unfold Drover.retire; dsimp only; split
  · split <;> rfl
  · rfl
@[simp] theorem Drover.retire_stro (d : Drover) : d.retire.stro = d.stro := by
  unfold Drover.retire; dsimp only; split
  · split <;> rfl
  · rfl
@[simp] theorem Drover.retire_inStrip (d : Drover) : d.retire.inStrip = d.inStrip := by
  unfold Drover.retire; dsimp only; split
  · split <;> rfl
  · rfl
@[simp] theorem Drover.retire_lanes (d : Drover) : d.retire.lanes = d.lanes := by
  unfold Drover.retire; dsimp only; split
  · split <;> rfl
  · rfl
@[simp] theorem Drover.retire_laneMask (d : Drover) : d.retire.laneMask = d.laneMask := by
  unfold Drover.retire; dsimp only; split
  · split <;> rfl
  · rfl
@[simp] theorem Drover.retire_occupied (d : Drover) : d.retire.occupied = d.occupied := by
  unfold Drover.retire; dsimp only; split
  · split <;> rfl
  · rfl
@[simp] theorem Drover.retire_stepping (d : Drover) : d.retire.stepping = d.stepping := by
  unfold Drover.retire; dsimp only; split
  · split <;> rfl
  · rfl
@[simp] theorem Drover.retire_born (d : Drover) : d.retire.born = d.born := by
  unfold Drover.retire; dsimp only; split
  · split <;> rfl
  · rfl
@[simp] theorem Drover.retire_ppix (d : Drover) : d.retire.ppix = d.ppix := by
  unfold Drover.retire; dsimp only; split
  · split <;> rfl
  · rfl
@[simp] theorem Drover.retire_hold (d : Drover) : d.retire.hold = d.hold := by
  unfold Drover.retire; dsimp only; split
  · split <;> rfl
  · rfl
@[simp] theorem Drover.retire_dead (d : Drover) : d.retire.dead = d.dead := by
  unfold Drover.retire; dsimp only; split
  · split <;> rfl
  · rfl
@[simp] theorem Drover.retire_spilled (d : Drover) : d.retire.spilled = d.spilled := by
  unfold Drover.retire; dsimp only; split
  · split <;> rfl
  · rfl
@[simp] theorem Drover.retire_ecc (d : Drover) : d.retire.ecc = d.ecc := by
  unfold Drover.retire; dsimp only; split
  · split <;> rfl
  · rfl

end Sys2Proof.Machine
end

