-- ==== Sys2Proof/Laws/Completion.lean ====
section
/-! SUPPORT. How an instruction ends, said once: completion past the instruction, with a g register written, by a jump, by a trap.
Later proofs cite these and unfold neither `retire` nor `enter`. -/
namespace Sys2Proof.Machine

/-- Retiring, as one update. -/
theorem Drover.retire_eq (d : Drover) : d.retire =
    { d.issued with
      stall := none, restart := 0, raised := false, atHandler := false, skip1 := false, stepped := d.stepping, again := false, repBack := false, tileUse := none
      reps := d.nextReps, pc := d.nextPc } := by
  unfold Drover.retire Drover.nextReps Drover.nextPc
  dsimp only [Drover.issued_reps, Drover.issued_pc]
  by_cases h : d.reps.go = true
  · by_cases h2 : d.reps.cnt ≤ 1
    · simp only [if_pos h, if_pos h2]
    · simp only [if_pos h, if_neg h2]
  · simp only [if_neg h]

/-- A retired drover stands at the next word. -/
theorem Drover.retire_pc (d : Drover) : d.retire.pc = d.nextPc := by rw [Drover.retire_eq]

theorem Drover.retire_reps (d : Drover) : d.retire.reps = d.nextReps := by rw [Drover.retire_eq]

theorem Drover.issued_esr (d : Drover) : d.issued.tr.esr = d.nextEsr := by
  unfold Drover.issued Drover.nextEsr
  cases d.viaEret <;> cases d.resume <;> rfl

theorem Drover.issued_tr (d : Drover) : { d.issued.tr with esr := 0 } = { d.tr with esr := 0 } := by
  unfold Drover.issued
  cases d.viaEret <;> cases d.resume <;> rfl

theorem Drover.retire_tr (d : Drover) : d.retire.tr = d.issued.tr := by rw [Drover.retire_eq]

theorem Drover.retire_esr (d : Drover) : d.retire.tr.esr = d.nextEsr := by rw [Drover.retire_tr, Drover.issued_esr]

/-- Completion changes nothing but the marks of the issue, REPS, ESR and the pc. -/
theorem Drover.retire_others (d : Drover) : d.retire.others = d.others := by
  rw [Drover.retire_eq]
  unfold Drover.others
  dsimp only
  rw [Drover.issued_tr]
  rfl

theorem Drover.getG_retire (d : Drover) (r : Reg) : d.retire.getG r = d.getG r := by simp [Drover.getG]

theorem Drover.nextPc_congr {d e : Drover} (hr : d.reps = e.reps) (hp : d.pc = e.pc) : d.nextPc = e.nextPc := by
  simp [Drover.nextPc, hr, hp]

/-- What `complete` leaves, for a drover that agrees with the executing one in what completion reads. -/
theorem State.completes_complete (s : State) (d : Drover) (hr : d.reps = s.cur.reps) (hp : d.pc = s.cur.pc)
    (he : d.nextEsr = s.cur.nextEsr) :
    Completes s (s.setCur d.retire) d d.getG s.cur.nextPc :=
  { only := by simp
    regs := fun r => by simp [Drover.getG_retire]
    at_ := by simp [Drover.retire_pc, Drover.nextPc_congr hr hp]
    reps := by simp [Drover.retire_reps, Drover.nextReps, hr]
    esr := by simp [Drover.retire_esr, he]
    rest := by simp [Drover.retire_others] }

theorem Drover.setG_nextEsr (d : Drover) (a : Reg) (v : Word) : (d.setG a v).nextEsr = d.nextEsr := by
  simp [Drover.nextEsr]

theorem Drover.setG_others (d : Drover) (a : Reg) (v : Word) : (d.setG a v).others = d.others := by
  unfold Drover.setG; split <;> rfl

theorem Completes.of_eq {s t : State} {d e : Drover} {g h : Reg → Word} {p q : Word} (c : Completes s t d g p)
    (hd : d.others = e.others) (hg : ∀ r, g r = h r) (hp : p = q) : Completes s t e h q :=
  { only := c.only, regs := fun r => (c.regs r).trans (hg r), at_ := c.at_.trans hp, reps := c.reps, esr := c.esr
    rest := c.rest.trans hd }

/-- COMPLETION WITH A VALUE (R39): `completeG` writes ga and nothing else. -/
theorem State.gives_completeG (s : State) (a : Reg) (v : Word) :
    ∃ t, s.completeG a v = .next t ∧ Completes s t s.cur (s.regsWith a v) s.cur.nextPc :=
  ⟨_, rfl, (s.completes_complete (s.cur.setG a v) (by simp) (by simp) (Drover.setG_nextEsr _ _ _)).of_eq
    (Drover.setG_others _ _ _) (fun r => by
      rw [Drover.getG_setG]; rfl) rfl⟩

/-- An instruction whose meaning completes with a value gives it. -/
theorem gives_of {i : Instr} {s : State} {a : Reg} {v w : Word} (h : exec i s = s.completeG a v) (e : v = w) : Gives i s a w := by
  unfold Gives; rw [h, e]; exact s.gives_completeG a w

end Sys2Proof.Machine
end

