-- ==== Sys2Proof/Laws/Grant.lean ====
section
/-! SUPPORT. What a grant point changes (R21 to R27, R170): lane groups, requests and parked rectangles of the drovers, and nothing
else. -/
namespace Sys2Proof.Machine

/-- `t` differs from `s` in grants only. -/
structure Grants (s t : State) : Prop where
  drovers : ∀ k, (t.drover k).ungranted = (s.drover k).ungranted
  rest : t = { s with drovers := t.drovers }

theorem Grants.refl (s : State) : Grants s s := ⟨fun _ => rfl, rfl⟩
theorem Grants.trans {s t u : State} (a : Grants s t) (b : Grants t u) : Grants s u :=
  ⟨fun k => (b.drovers k).trans (a.drovers k), by
    have h := congrArg (fun x : State => { x with drovers := u.drovers }) a.rest
    exact b.rest.trans h⟩
theorem Grants.sel {s t : State} (g : Grants s t) : t.sel = s.sel := (congrArg State.sel g.rest :)
theorem Grants.mem {s t : State} (g : Grants s t) : t.mem = s.mem := (congrArg State.mem g.rest :)

theorem Grants.set (s : State) (k : Nat) (d : Drover) (h : d.ungranted = (s.drover k).ungranted) : Grants s (s.setDrover k d) :=
  ⟨fun j => by
    by_cases e : j = k
    · subst e; simp [h]
    · rw [State.drover_setDrover_other _ _ _ _ e], rfl⟩

theorem Grants.lgm (s : State) (k : Nat) (m : BitVec 16) : Grants s (s.setDrover k { s.drover k with lgm := m }) := Grants.set s k _ rfl

theorem Drover.refill_ungranted (d : Drover) : d.refill.ungranted = d.ungranted := by
  unfold Drover.refill
  split
  · generalize d.vec.rect = v
    rfl
  · rfl

theorem Drover.grant_ungranted (d : Drover) (m : BitVec 16) : (d.grant m).ungranted = d.ungranted := by
  rw [← d.refill_ungranted]
  unfold Drover.grant
  generalize d.refill = e
  dsimp only
  split
  · rfl
  · split <;> rfl

theorem assocGet_map {α : Type} (f : Nat → α → α) (l : List (Nat × α)) (k : Nat) :
    assocGet (l.map (fun e => (e.1, f e.1 e.2))) k = (assocGet l k).map (f k) := by
  induction l with
  | nil => rfl
  | cons x r ih =>
    simp only [List.map_cons, assocGet]
    by_cases h : k = x.1
    · simp [h]
    · simp [h, ih]

/-- Spilling parked rectangles marks them, and changes nothing else (R24). -/
theorem State.spillParked_grants (s : State) (core but : Nat) (m : BitVec 16) : Grants s (s.spillParked core but m) := by
  refine ⟨fun k => ?_, rfl⟩
  let f := fun (k : Nat) (d : Drover) =>
    if k != but && coreOf k == core && d.granted && d.lgm == 0 && d.parked &&& m != 0 then { d with spilled := true } else d
  have e : (s.spillParked core but m).drovers = s.drovers.map (fun e => (e.1, f e.1 e.2)) := by
    unfold State.spillParked
    refine List.map_congr_left (fun e _ => ?_)
    dsimp only [f]; split <;> rfl
  have hf : ∀ d, (f k d).ungranted = d.ungranted := by
    intro d; dsimp only [f]; split <;> rfl
  unfold State.drover assocGetD
  rw [e, assocGet_map f]
  cases assocGet s.drovers k with
  | none => rfl
  | some d => exact hf d

theorem State.give_grants (s : State) (key : Nat) (m : BitVec 16) : Grants s (s.give key m) := by
  unfold State.give
  have h := s.spillParked_grants (coreOf key) key m
  exact h.trans (Grants.set _ key _ (Drover.grant_ungranted _ _))

theorem State.shareSurplus_grants (s : State) (key : Nat) (w : List Nat) : Grants s (s.shareSurplus key w) := by
  induction w generalizing s with
  | nil => exact Grants.refl s
  | cons k r ih =>
    unfold State.shareSurplus; dsimp only
    refine Grants.trans ?_ (ih _)
    split
    · exact Grants.lgm s key _
    · refine Grants.trans ?_ (State.give_grants _ k _)
      exact Grants.lgm s key _

theorem Grants.foldl {α : Type} (f : State → α → State) (h : ∀ s x, Grants s (f s x)) (l : List α) (s : State) : Grants s (l.foldl f s) := by
  induction l generalizing s with
  | nil => exact Grants.refl s
  | cons x r ih => exact (h s x).trans (ih _)

theorem State.reassign_grants (s : State) (key : Nat) : Grants s (s.reassign key) := by
  unfold State.reassign; dsimp only
  split
  · exact Grants.refl s
  · refine Grants.foldl _ (fun s k => ?_) _ s
    split
    · exact Grants.set s k _ rfl
    · exact Grants.refl s

theorem State.grantTo_grants (s : State) (key cap : Nat) : Grants s (s.grantTo key cap).1 := by
  have a := (s.shareSurplus_grants key (s.requestsOn (coreOf key) key)).trans (State.reassign_grants _ key)
  unfold State.grantTo
  generalize (s.shareSurplus key (s.requestsOn (coreOf key) key)).reassign key = u at a ⊢
  dsimp only
  split
  · split
    · exact a
    · exact a.trans (Grants.set u key _ rfl)
  · exact a.trans (State.give_grants u key _)

/-- A GRANT POINT (R21, R170). -/
theorem State.grantPoint_grants (s : State) (key : Nat) : Grants s (s.grantPoint key).1 := s.grantTo_grants key _

theorem State.regrant_grants (s : State) (key : Nat) : Grants s (s.regrant key) := by
  unfold State.regrant; split
  · exact s.grantPoint_grants key
  · exact Grants.refl s

theorem State.grantBooked_grants (s : State) (key : Nat) : Grants s (s.grantBooked key).1 := by
  unfold State.grantBooked
  split
  · split
    · exact s.grantPoint_grants key
    · exact State.give_grants s key _
  · exact s.grantPoint_grants key

end Sys2Proof.Machine
end

