-- ==== Sys2Proof/Laws/Traps.lean ====
section
/-! SUPPORT. What taking a trap does, said once (R145), and what a grant point leaves alone (R21 to R27, R170). -/
namespace Sys2Proof.Machine

theorem jumps_of {i : Instr} {s : State} {d : Drover} {g : Reg → Word} {p q : Word} (h : exec i s = s.finish (d.retireTo q))
    (hr : d.reps = s.cur.reps) (he : d.nextEsr = s.cur.nextEsr) (ho : d.others = s.cur.others) (hg : ∀ r, d.getG r = g r) (hq : q = p) :
    Jumps i s g p := by
  refine ⟨_, h, ?_⟩
  subst hq
  exact
    { only := by simp
      regs := fun r => by rw [State.cur_setCur, ← hg r, ← Drover.getG_retire d r]; rfl
      at_ := by simp [Drover.retireTo]
      reps := by simp [Drover.retireTo, Drover.retire_reps, Drover.nextReps, hr]
      esr := by simp [Drover.retireTo, Drover.retire_esr, he]
      rest := by
        rw [State.cur_setCur, ← ho, ← Drover.retire_others d]; rfl }

theorem State.takeTrap_handles (s : State) (t : Trap) (h : s.cur.handles) : s.takeTrap s.sel t = s.setCur (s.cur.enter t) := by
  have h2 : (s.drover s.sel).capture = none := h.2
  have h1 : (s.drover s.sel).tr.tvec ≠ 0 := h.1
  unfold State.takeTrap State.dropCapture
  simp only [h2, h1, if_false]
  rfl

theorem and3_eq_zero (w : Word) : w &&& 3 = 0 ↔ w.toNat % 4 = 0 := by
  have e : (w &&& 3).toNat = w.toNat % 4 := by rw [BitVec.toNat_and]; exact Nat.and_two_pow_sub_one_eq_mod _ 2
  rw [← e]
  exact ⟨fun h => by rw [h]; rfl, fun h => BitVec.eq_of_toNat_eq h⟩

theorem Drover.handler_eq_vector (d : Drover) (c : Nat) : d.handler c = d.vector c := by
  unfold Drover.handler Drover.vector
  by_cases h : d.tr.tvec.toNat % 4 = 0
  · rw [if_pos ((and3_eq_zero _).mpr h), if_pos h]; exact (BitVec.add_zero _).symm
  · rw [if_neg (fun x => h ((and3_eq_zero _).mp x)), if_neg h]; rfl

/-- What `enter` leaves, for a trap of the executing drover's instruction. -/
theorem State.enters_enter (s : State) (t : Trap) (h : s.cur.handles) (hc : t.cause ≠ cSTEP) (hr : t.rep = s.cur.reps.go) :
    Enters s (s.takeTrap s.sel t) t.cause t.flt t.va t.fel (s.cur.status t.partway t.chb) (t.epc &&& 0xFFFFFFFFFFFFFFFC) t.fpc := by
  rw [State.takeTrap_handles s t h]
  exact
    { only := by simp
      level := by simp [Drover.enter]
      flt_ := by simp [Drover.enter]
      fva_ := by simp [Drover.enter]
      fel_ := by simp [Drover.enter]
      esr_ := by simp [Drover.enter, Drover.trapEsr, Drover.status, hc, hr]
      epc_ := by simp [Drover.enter]
      fpc_ := by simp [Drover.enter]
      at_ := by simp [Drover.enter, Drover.handler_eq_vector]
      regs := fun r => by simp [Drover.enter, Drover.getG]
      repsKept := by simp [Drover.enter]
      rest := by simp [Drover.enter, Drover.untrapped, Drover.others] }

/-- A TRAP AT ISSUE (R104, R145). -/
theorem trapsWith_of {i : Instr} {s : State} {c : Nat} {va : Word} (h : exec i s = .next (s.takeTrap s.sel { s.cur.trapOf c with va := va }))
    (hh : s.cur.handles) (hc : c ≠ cSTEP) : TrapsWith i s c va := by
  refine ⟨_, h, ?_⟩
  have := s.enters_enter { s.cur.trapOf c with va := va } hh hc rfl
  simpa [Drover.trapOf, Trap.flt, Trap.fel] using this

theorem trapIssue_eq (s : State) (c : Nat) : s.trapIssue c = .next (s.takeTrap s.sel { s.cur.trapOf c with va := 0 }) := rfl

end Sys2Proof.Machine
end

