-- ==== Sys2Proof/Laws/Memory.lean ====
section
/-! SUPPORT. Bytes in HBM: what a write of bytes changes, that it keeps the canonical form, what a translation changes (R394), what a
load and a store of the executing drover do once their access lands. -/
namespace Sys2Proof.Machine

/-! ### Bytes -/

theorem State.putByte_byte_other (s : State) (k pa x : Nat) (b : Byte) (h : x ≠ pa) : (s.putByte k pa b).byte x = s.byte x :=
  Memory.get_set_other _ _ _ _ h

theorem State.putByte_view_other (s : State) (k pa x j : Nat) (b : Byte) (h : x ≠ pa) :
    (s.putByte k pa b).viewByte j x = s.viewByte j x := by
  unfold State.viewByte State.putByte
  dsimp only
  rw [Memory.get_set_other _ _ _ _ h]
  have e : assocGetD (if k = 0 then assocDel s.encTag pa else assocPut s.encTag pa k) 0 x = assocGetD s.encTag 0 x := by
    split
    · unfold assocGetD; rw [assocGet_del_other _ _ _ h]
    · exact assocGetD_put_other _ _ _ _ _ h
  rw [e]

theorem State.putByte_memOk (s : State) (k pa : Nat) (b : Byte) (h : s.memOk) : (s.putByte k pa b).memOk := by
  refine ⟨Memory.wf_set _ _ _ h.1, ?_⟩
  show rising (if k = 0 then _ else _) = true
  split
  · exact risingFrom_del _ 0 _ h.2
  · exact risingFrom_put _ 0 _ _ (Nat.zero_le _) h.2

theorem State.putByte_view_same (s : State) (k pa : Nat) (b : Byte) (h : s.memOk) : (s.putByte k pa b).viewByte k pa = b := by
  unfold State.viewByte State.putByte
  dsimp only
  have e : assocGetD (if k = 0 then assocDel s.encTag pa else assocPut s.encTag pa k) 0 pa = k := by
    split
    · unfold assocGetD; rw [assocGet_del_same _ 0 _ h.2]; simp_all
    · simp
  rw [e, if_pos rfl, Memory.get_set_same _ _ _ h.1]

theorem State.putBytes_only (l : List Byte) (s : State) (k pa : Nat) :
    s.putBytes k pa l = { s with mem := (s.putBytes k pa l).mem, encTag := (s.putBytes k pa l).encTag } := by
  induction l generalizing s pa with
  | nil => rfl
  | cons b r ih => exact ih (s.putByte k pa b) (pa + 1)

theorem State.putBytes_cur (l : List Byte) (s : State) (k pa : Nat) : (s.putBytes k pa l).cur = s.cur := by
  have h := State.putBytes_only l s k pa
  generalize s.putBytes k pa l = u at h
  rw [h]; rfl

theorem State.putBytes_memOk (l : List Byte) (s : State) (k pa : Nat) (h : s.memOk) : (s.putBytes k pa l).memOk := by
  induction l generalizing s pa with
  | nil => exact h
  | cons b r ih => exact ih _ _ (s.putByte_memOk k pa b h)

theorem State.putBytes_other (l : List Byte) (s : State) (k pa x : Nat) (h : x < pa ∨ pa + l.length ≤ x) :
    (s.putBytes k pa l).byte x = s.byte x ∧ ∀ j, (s.putBytes k pa l).viewByte j x = s.viewByte j x := by
  induction l generalizing s pa with
  | nil => exact ⟨rfl, fun _ => rfl⟩
  | cons b r ih =>
    simp only [List.length_cons] at h
    have hx : x ≠ pa := by omega
    have := ih (s.putByte k pa b) (pa + 1) (by omega)
    exact ⟨this.1.trans (s.putByte_byte_other k pa x b hx), fun j => (this.2 j).trans (s.putByte_view_other k pa x j b hx)⟩

theorem State.putBytes_view (l : List Byte) (s : State) (k pa j : Nat) (h : s.memOk) (hj : j < l.length) :
    (s.putBytes k pa l).viewByte k (pa + j) = l.getD j 0 := by
  induction l generalizing s pa j with
  | nil => simp at hj
  | cons b r ih =>
    cases j with
    | zero =>
      have := (State.putBytes_other r (s.putByte k pa b) k (pa + 1) pa (by omega)).2 k
      simp only [Nat.add_zero, List.getD_cons_zero]
      exact this.trans (s.putByte_view_same k pa b h)
    | succ j =>
      have := ih (s.putByte k pa b) (pa + 1) j (s.putByte_memOk k pa b h) (by simpa using hj)
      rw [show pa + (j + 1) = pa + 1 + j by omega, List.getD_cons_succ]
      exact this

@[simp] theorem State.viewBytes_length (s : State) (k pa n : Nat) : (s.viewBytes k pa n).length = n := by simp [State.viewBytes]

@[simp] theorem leBytes_length (n v : Nat) : (leBytes n v).length = n := by simp [leBytes]

theorem leBytes_getD (n v j : Nat) (h : j < n) : (leBytes n v).getD j 0 = BitVec.ofNat 8 (v / 256 ^ j) := by
  have : pow2 (8 * j) = 256 ^ j := by unfold pow2; rw [Nat.pow_mul]
  simp [leBytes, List.getD_eq_getElem?_getD, h, this]

theorem leNat_append (l m : List Byte) : leNat (l ++ m) = leNat l + 256 ^ l.length * leNat m := by
  induction l with
  | nil => simp [leNat]
  | cons b r ih => simp only [List.cons_append, leNat, ih, List.length_cons, Nat.pow_succ, Nat.mul_add, Nat.mul_assoc, Nat.add_assoc, Nat.mul_left_comm 256]

theorem State.leNat_viewBytes (s : State) (k pa n : Nat) : leNat (s.viewBytes k pa n) = s.number k pa n := by
  induction n with
  | zero => rfl
  | succ n ih =>
    have : s.viewBytes k pa (n + 1) = s.viewBytes k pa n ++ [s.viewByte k (pa + n)] := by
      simp [State.viewBytes, List.range_succ]
    rw [this, leNat_append, ih, State.viewBytes_length]
    simp only [leNat, State.number, Nat.mul_zero, Nat.add_zero]; rw [Nat.mul_comm]

/-- A write of a number's bytes at a place of memory. -/
theorem State.stored_putBytes (s : State) (k pa n v : Nat) (h : s.memOk) : Stored s (s.putBytes k pa (leBytes n v)) k pa n v :=
  { only := State.putBytes_only _ s k pa
    stored := fun j hj => by
      rw [State.putBytes_view _ s k pa j h (by simpa using hj), leBytes_getD n v j hj]
      simp
    others := fun x hx => State.putBytes_other _ s k pa x (by simpa using hx) }

/-! ### Translation (R394, R395) -/

/-- `t` is `s` but for memory, the keys beside it and the dies. -/
def SameButMemory (s t : State) : Prop := t = { s with mem := t.mem, encTag := t.encTag, dies := t.dies }

theorem SameButMemory.drover {s t : State} (h : SameButMemory s t) (k : Nat) : t.drover k = s.drover k := by
  unfold State.drover; rw [show t.drovers = s.drovers from (congrArg State.drovers h :)]
theorem SameButMemory.sel {s t : State} (h : SameButMemory s t) : t.sel = s.sel := (congrArg State.sel h :)
theorem SameButMemory.cur {s t : State} (h : SameButMemory s t) : t.cur = s.cur := by
  unfold State.cur; rw [h.sel, h.drover]

theorem State.useLeaf_same (s : State) (ag : Agent) (want : Want) (va : Nat) (l : LeafAt) : SameButMemory s (s.useLeaf ag want va l) := by
  unfold SameButMemory State.useLeaf; dsimp only
  split
  · rfl
  · unfold write8
    have h := State.putBytes_only (leBytes 8 (touched want l.pte).toNat) s 0 l.addr
    generalize s.putBytes 0 l.addr (leBytes 8 (touched want l.pte).toNat) = u at h ⊢
    rw [h]; rfl

theorem State.useLeaf_mem (s : State) (ag : Agent) (want : Want) (va : Nat) (l : LeafAt) :
    (s.useLeaf ag want va l).mem = (if touched want l.pte = l.pte then s else write8 s l.addr (touched want l.pte)).mem ∧
    (s.useLeaf ag want va l).encTag = (if touched want l.pte = l.pte then s else write8 s l.addr (touched want l.pte)).encTag := ⟨rfl, rfl⟩

/-- The entry a walk answers is the one in memory. -/
theorem walkFrom_read (fuel : Nat) (s : State) (va lvl base : Nat) (bad : Option (Nat × Nat)) (l : LeafAt) (h : walkFrom s va lvl base bad fuel = .ok l) :
    l.pte = read8 s l.addr := by
  induction fuel generalizing lvl base bad with
  | zero => cases h
  | succ k ih =>
    unfold walkFrom at h; dsimp only at h
    split at h
    · simp only [reduceCtorEq] at h
    · split at h
      · simp only [reduceCtorEq] at h
      · split at h
        · split at h
          · simp only [reduceCtorEq] at h
          · simp only [Except.ok.injEq] at h; subst h; rfl
        · split at h
          · simp only [reduceCtorEq] at h
          · exact ih _ _ _ h

theorem State.findLeaf_read (s : State) (ag : Agent) (want : Want) (a : Nat) (l : LeafAt) (hit : Bool)
    (h : s.findLeaf ag want a = .ok (l, hit)) : hit = true ∨ l.pte = read8 s l.addr := by
  have wk : ∀ x, s.walk ag a = .ok x → x.1.pte = read8 s x.1.addr := by
    intro x hx
    unfold State.walk at hx
    cases hw : walkFrom s a 0 (((s.context ag.ctx).map (·.root)).getD 0) none 5 with
    | error e => rw [hw] at hx; simp only [Except.map, reduceCtorEq] at hx
    | ok m => rw [hw] at hx; simp only [Except.map, Except.ok.injEq] at hx; rw [← hx]; exact walkFrom_read _ _ _ _ _ _ _ hw
  unfold State.findLeaf at h
  split at h
  · exact .inr (wk _ h)
  · dsimp only at h
    split at h
    · exact .inr (wk _ h)
    · split at h
      · split at h
        · simp only [reduceCtorEq] at h
        · split at h
          · simp only [reduceCtorEq] at h
          · simp only [Except.ok.injEq, Prod.mk.injEq] at h; exact .inr (by rw [← h.1])
      · simp only [Except.ok.injEq, Prod.mk.injEq] at h; exact .inl h.2.symm

theorem touched_or (want : Want) (p : Word) : touched want p = p ||| 0x200 ||| (if want.writes then 0x400 else 0) := rfl

/-- A translation changes at most one entry of memory, which takes A, and D before a write. -/
def TouchesOneEntry (s t : State) (want : Want) : Prop :=
  t.mem = s.mem ∨ ∃ e, (∀ x, (x < e ∨ e + 8 ≤ x) → t.byte x = s.byte x) ∧
    t.number 0 e 8 = (BitVec.ofNat 64 (s.number 0 e 8) ||| 0x200 ||| (if want.writes then 0x400 else 0)).toNat

theorem number_putBytes (s : State) (k pa n v : Nat) (h : s.memOk) :
    ∀ m ≤ n, (s.putBytes k pa (leBytes n v)).number k pa m = v % 256 ^ m := by
  intro m hm
  induction m with
  | zero => simp [State.number, Nat.mod_one]
  | succ m ih =>
    have := (s.stored_putBytes k pa n v h).stored m (by omega)
    rw [State.number, ih (by omega), this, Nat.pow_succ, Nat.mod_mul]
    rw [Nat.mul_comm]

theorem read8_eq (s : State) (pa : Nat) : read8 s pa = BitVec.ofNat 64 (s.number 0 pa 8) := by
  unfold read8; rw [State.leNat_viewBytes]

theorem State.useLeaf_touches (s : State) (ag : Agent) (want : Want) (va : Nat) (l : LeafAt) (h : s.memOk) (hl : l.pte = read8 s l.addr) :
    TouchesOneEntry s (s.useLeaf ag want va l) want ∧ (s.useLeaf ag want va l).memOk := by
  have hm := s.useLeaf_mem ag want va l
  by_cases hp : touched want l.pte = l.pte
  · rw [if_pos hp] at hm
    exact ⟨.inl hm.1, by unfold State.memOk; rw [hm.1, hm.2]; exact h⟩
  · rw [if_neg hp] at hm
    have hw := State.putBytes_memOk (leBytes 8 (touched want l.pte).toNat) s 0 l.addr h
    refine ⟨.inr ⟨l.addr, fun x hx => ?_, ?_⟩, by unfold State.memOk; rw [hm.1, hm.2]; exact hw⟩
    · unfold State.byte; rw [hm.1]
      exact (State.putBytes_other (leBytes 8 (touched want l.pte).toNat) s 0 l.addr x (by simpa using hx)).1
    · have e : ∀ n, (s.useLeaf ag want va l).number 0 l.addr n = (write8 s l.addr (touched want l.pte)).number 0 l.addr n := by
        intro n
        induction n with
        | zero => rfl
        | succ n ih => simp only [State.number, ih, State.viewByte, hm.1, hm.2]
      rw [e]; unfold write8
      rw [number_putBytes s 0 l.addr 8 _ h 8 (Nat.le_refl 8), touched_or, ← read8_eq, ← hl]
      exact Nat.mod_eq_of_lt (BitVec.isLt _)

theorem State.translate_spec (s s' : State) (ag : Agent) (want : Want) (va : Word) (p : Place) (hm : s.memOk)
    (h : s.translate ag want va = .ok (s', p)) : SameButMemory s s' ∧ TouchesOneEntry s s' want ∧ s'.memOk := by
  unfold State.translate at h; dsimp only at h
  split at h
  · simp only [reduceCtorEq] at h
  · rename_i l hit hf
    split at h
    · simp only [reduceCtorEq] at h
    · simp only [Except.ok.injEq, Prod.mk.injEq] at h
      cases hit with
      | true =>
        rw [if_pos rfl] at h; rw [← h.1]
        exact ⟨rfl, .inl rfl, hm⟩
      | false =>
        rw [if_neg (by simp)] at h; rw [← h.1]
        have hl := (s.findLeaf_read ag want _ l false hf).resolve_left (by simp)
        exact ⟨s.useLeaf_same ag want _ l, s.useLeaf_touches ag want _ l hm hl⟩

theorem State.watchCheck_own (s : State) (ag : Agent) (want : Want) (va n : Nat) (h : ag.own = true)
    (hs : (s.watchCheck ag want va n).2 = false) : (s.watchCheck ag want va n).1 = s := by
  unfold State.watchCheck at hs ⊢
  dsimp only at hs ⊢
  split
  · rfl
  · rename_i hf
    rw [if_neg hf] at hs
    simp only [h, if_true] at hs ⊢
    generalize watchHits _ _ _ _ _ _ _ _ = hits at hs ⊢
    split
    · rfl
    · rename_i hc; rw [if_neg hc] at hs; simp at hs

/-- An access of the drover's own that passes its checks has changed what its translation changes, and no more. -/
theorem State.locate_translate (s s' : State) (want : Want) (va : Word) (n : Nat) (p : Place)
    (h : s.locate (s.agentOf s.sel) want va n = .ok (s', p)) : s.translate (s.agentOf s.sel) want va = .ok (s', p) := by
  unfold State.locate at h
  split at h
  · simp only [reduceCtorEq] at h
  · split at h
    · simp only [reduceCtorEq] at h
    · split at h
      · simp only [reduceCtorEq] at h
      · rename_i s1 p1 ht
        dsimp only at h
        split at h
        · simp only [reduceCtorEq] at h
        · rename_i hw
          simp only [Except.ok.injEq, Prod.mk.injEq] at h
          have := State.watchCheck_own s1 (s.agentOf s.sel) want va.toNat n rfl (by simpa using hw)
          rw [this] at h
          rw [ht, h.1, h.2]

theorem State.locate_spec (s s' : State) (want : Want) (va : Word) (n : Nat) (p : Place) (hm : s.memOk)
    (h : s.locate (s.agentOf s.sel) want va n = .ok (s', p)) : SameButMemory s s' ∧ TouchesOneEntry s s' want ∧ s'.memOk :=
  s.translate_spec s' _ want va p hm (s.locate_translate s' want va n p h)

theorem State.translate_same (s s' : State) (ag : Agent) (want : Want) (va : Word) (p : Place)
    (h : s.translate ag want va = .ok (s', p)) : SameButMemory s s' := by
  unfold State.translate at h; dsimp only at h
  split at h
  · simp only [reduceCtorEq] at h
  · split at h
    · simp only [reduceCtorEq] at h
    · simp only [Except.ok.injEq, Prod.mk.injEq] at h
      rw [← h.1]
      split
      · rfl
      · exact s.useLeaf_same ag want _ _

theorem State.Lands.same {s s' : State} {want : Want} {va : Word} {n : Nat} {p : Place} (h : s.Lands want va n s' p) :
    SameButMemory s s' := s.translate_same s' _ want va p (s.locate_translate s' want va n p h.1)

/-! ### Loads and stores that land -/

theorem find_bad_none (s : State) (pa n : Nat) (q : Nat → Bool) (h : ∀ l ∈ linesOf pa n, s.lineBad l = false) :
    (linesOf pa n).find? (fun l => s.lineBad l && q l) = none := by
  rw [List.find?_eq_none]; intro l hl; simp [h l hl]

/-- Lines without a correctable error are left as they are. -/
theorem State.correct_sound (s : State) (ls : List Nat) (h : ∀ l ∈ ls, s.soft.contains l = false) : s.correct ls = s := by
  unfold State.correct
  have : s.soft.filter (fun l => ls.contains l) = [] := by
    rw [List.filter_eq_nil_iff]; intro l hl hc
    have := h l (by simpa using hc)
    simp [hl] at this
  rw [this]; rfl

/-- A LOAD THAT LANDS gives the bytes. -/
theorem State.loadAt_lands {s s' : State} {va : Word} {n : Nat} {p : Place} (h : s.Lands .read va n s' p) :
    s.loadAt (s.agentOf s.sel) va n = .ok s' (s'.viewBytes p.key p.pa n) := by
  unfold State.loadAt State.readPlace
  have hb : (linesOf p.pa n).find? (fun l => s'.lineBad l) = none := by
    rw [List.find?_eq_none]; intro l hl; simp [(h.2.2 l hl).1]
  simp only [h.1, h.2.1, hb, if_true, s'.correct_sound _ (fun l hl => (h.2.2 l hl).2)]

/-- A write of at most 8 bytes to sound lines of HBM. -/
theorem State.writePlace_sound (s : State) (ag : Agent) (p : Place) (va : Word) (l : List Byte) (hn : l.length ≤ 8)
    (hp : isHbm p.pa l.length = true) (hb : ∀ x ∈ linesOf p.pa l.length, s.Sound x) :
    s.writePlace ag p va l [] = .ok (s.putBytes p.key p.pa l) () := by
  have hw : (l.length == 64 && p.pa % 64 == 0) = false := by
    have : (l.length == 64) = false := by simp; omega
    simp [this]
  have hf : ∀ ls : List Nat, (∀ x ∈ ls, s.soft.contains x = false) →
      ls.foldl (fun s ln => if (List.contains [] ln || (l.length == 64 && p.pa % 64 == 0)) then s.clearPoison ln else s.correct [ln]) s = s := by
    intro ls; induction ls with
    | nil => intro _; rfl
    | cons x r ih =>
      intro h
      have hx := s.correct_sound [x] (fun y hy => by rw [List.mem_singleton.mp hy]; exact h x (by simp))
      rw [List.foldl_cons]
      simp only [hw, List.contains_nil, Bool.or_false, Bool.false_eq_true, if_false, hx] at ih ⊢
      exact ih (fun y hy => h y (by simp [hy]))
  unfold State.writePlace
  simp only [hp, if_true]
  have hfind := find_bad_none s p.pa l.length (fun ln => !(List.contains [] ln || (l.length == 64 && p.pa % 64 == 0))) (fun x hx => (hb x hx).1)
  simp only [hfind, hf _ (fun x hx => (hb x hx).2)]

/-- A STORE THAT LANDS writes the bytes. -/
theorem State.storeAt_lands {s s' : State} {va : Word} {l : List Byte} {p : Place} (h : s.Lands .write va l.length s' p) (hn : l.length ≤ 8) :
    s.storeAt (s.agentOf s.sel) va l = .ok (s'.putBytes p.key p.pa l) () := by
  unfold State.storeAt State.storeCover
  simp only [h.1, List.contains_nil]
  exact s'.writePlace_sound _ p va l hn h.2.1 h.2.2

/-- AN ATOMIC ACCESS THAT LANDS. -/
theorem State.amoAt_lands {s s' : State} {va : Word} {p : Place} (at_ : Option (Nat × Word × Word)) (f : Nat → Option Nat)
    (h : s.Lands (.amo (at_.map (·.1))) va 8 s' p) :
    s.amoAt (s.agentOf s.sel) va 8 at_ f =
      match f (s'.number p.key p.pa 8) with
      | none => .ok s' (s'.number p.key p.pa 8)
      | some v => .ok (s'.putBytes p.key p.pa (leBytes 8 v)) (s'.number p.key p.pa 8) := by
  have hh : isHost p.pa = false := by
    have := h.2.1; unfold isHbm at this; unfold isHost hbmSize at *; simp at this ⊢; omega
  have hb : (linesOf p.pa 8).find? (fun l => s'.lineBad l) = none := by
    rw [List.find?_eq_none]; intro l hl; simp [(h.2.2 l hl).1]
  unfold State.amoAt State.readPlace
  simp only [h.1, hh, h.2.1, hb, if_true, s'.correct_sound _ (fun l hl => (h.2.2 l hl).2), State.leNat_viewBytes]
  cases f (s'.number p.key p.pa 8) with
  | none => rfl
  | some v =>
    have := s'.writePlace_sound (s.agentOf s.sel) p va (leBytes 8 v) (by simp) (by simpa using h.2.1) (by simpa using h.2.2)
    simp only [this]
    rfl

end Sys2Proof.Machine
end

