-- ==== Sys2Proof/Laws/PerInstr.lean ====
section
/-! SUPPORT. Decoding inverts encoding, one lemma for each constructor of Instr (R94 to R106). -/
set_option linter.unusedSimpArgs false
namespace Sys2Proof

/-! ### The fields of a packed word -/

theorem extract_append_low {n m : Nat} (x : BitVec n) (y : BitVec m) : (x ++ y).extractLsb' 0 m = y := by
  apply BitVec.eq_of_getLsbD_eq; intro i h
  simp [BitVec.getLsbD_append, h]
theorem extract_append_high {n m k l : Nat} (x : BitVec n) (y : BitVec m) (h : m ≤ k) :
    (x ++ y).extractLsb' k l = x.extractLsb' (k - m) l := by
  apply BitVec.eq_of_getLsbD_eq; intro i hi
  simp only [BitVec.getLsbD_extractLsb', BitVec.getLsbD_append, hi, decide_true, Bool.true_and]
  rw [if_neg (by omega), show k + i - m = k - m + i by omega]
theorem extract_append_top {n m : Nat} (x : BitVec n) (y : BitVec m) : (x ++ y).extractLsb' m n = x := by
  rw [extract_append_high x y (Nat.le_refl m), Nat.sub_self]
  apply BitVec.eq_of_getLsbD_eq; intro i h
  simp [h]
theorem append_extracts {n m : Nat} (x : BitVec (n + m)) : x.extractLsb' m n ++ x.extractLsb' 0 m = x := by
  apply BitVec.eq_of_getLsbD_eq; intro i h
  rw [BitVec.getLsbD_append]
  split
  · simp; omega
  · rw [BitVec.getLsbD_extractLsb', show m + (i - m) = i by omega]; simp; omega

theorem fOp_pack (op : BitVec 6) (x : Bool) (a b : Reg) (h : BitVec 11) : fOp (pack op x a b h) = op := extract_append_low _ _
theorem fX_pack (op : BitVec 6) (x : Bool) (a b : Reg) (h : BitVec 11) : fX (pack op x a b h) = x := by
  unfold fX pack
  rw [extract_append_high _ _ (Nat.le_refl 6), Nat.sub_self, extract_append_low]; cases x <;> rfl
theorem fA_pack (op : BitVec 6) (x : Bool) (a b : Reg) (h : BitVec 11) : fA (pack op x a b h) = a := by
  unfold fA pack
  rw [extract_append_high _ _ (by decide), extract_append_high _ _ (by decide), extract_append_low]
theorem fB_pack (op : BitVec 6) (x : Bool) (a b : Reg) (h : BitVec 11) : fB (pack op x a b h) = b := by
  unfold fB pack
  rw [extract_append_high _ _ (by decide), extract_append_high _ _ (by decide), extract_append_high _ _ (by decide), extract_append_low]
theorem fHi_pack (op : BitVec 6) (x : Bool) (a b : Reg) (h : BitVec 11) : fHi (pack op x a b h) = h := by
  unfold fHi pack
  rw [extract_append_high _ _ (by decide), extract_append_high _ _ (by decide), extract_append_high _ _ (by decide)]
  exact extract_append_top _ _
theorem hiC_append (f : BitVec 4) (c : Reg) : hiC (f ++ c) = c := extract_append_low _ _
theorem hiFn_append (f : BitVec 4) (c : Reg) : hiFn (f ++ c) = f := extract_append_top _ _
theorem hiKind_append (f : BitVec 5) (c : BitVec 6) : hiKind (f ++ c) = f := extract_append_top _ _
theorem hiLow6_append (f : BitVec 5) (c : BitVec 6) : hiLow6 (f ++ c) = c := extract_append_low _ _
theorem hiFn3_append (f : BitVec 3) (c : BitVec 8) : hiFn3 (f ++ c) = f := extract_append_top _ _
theorem hiLow8_append (f : BitVec 3) (c : BitVec 8) : hiLow8 (f ++ c) = c := extract_append_low _ _
theorem high2_append (f : BitVec 2) (c : BitVec 5) : high2 (f ++ c) = f := extract_append_top _ _
theorem low5_append (f : BitVec 2) (c : BitVec 5) : low5 (f ++ c) = c := extract_append_low _ _
theorem high4_append (f : BitVec 4) (c : BitVec 3) : high4 (f ++ c) = f := extract_append_top _ _
theorem low3_append (f : BitVec 4) (c : BitVec 3) : low3 (f ++ c) = c := extract_append_low _ _
theorem hiC_append_two (f : BitVec 4) (g : BitVec 2) (c : BitVec 5) : hiC (f ++ (g ++ c)) = g ++ c := extract_append_low _ _
theorem hiFn_append_two (f : BitVec 4) (g : BitVec 2) (c : BitVec 5) : hiFn (f ++ (g ++ c)) = f := extract_append_top (n := 4) (m := 7) _ _
theorem hiC_two_append (f g : BitVec 2) (c : Reg) : hiC (f ++ g ++ c) = c := extract_append_low _ _
theorem hiFn_two_append (f g : BitVec 2) (c : Reg) : hiFn (f ++ g ++ c) = f ++ g := extract_append_top (n := 4) (m := 7) _ _
theorem fnLow_append (f n : BitVec 2) : fnLow (f ++ n) = n := extract_append_low _ _
theorem cb_split (f : BitVec 4) (n : BitVec 14) : cb (f ++ n.extractLsb' 7 7) (n.extractLsb' 0 7) = n := by
  unfold cb; rw [hiC_append]; exact append_extracts (n := 7) (m := 7) n
theorem imm18_split (n : BitVec 18) : imm18 (n.extractLsb' 7 11) (n.extractLsb' 0 7) = n := append_extracts (n := 11) (m := 7) n
theorem hiScope_append (f : BitVec 6) (k : BitVec 2) (s : BitVec 3) : hiScope (f ++ k ++ s) = s := extract_append_low _ _
theorem hiOrder_append (f : BitVec 6) (k : BitVec 2) (s : BitVec 3) : hiOrder (f ++ k ++ s) = k := by
  unfold hiOrder; rw [extract_append_high _ _ (Nat.le_refl 3), Nat.sub_self]; exact extract_append_low _ _
theorem hiRest_append (f : BitVec 6) (k : BitVec 2) (s : BitVec 3) : hiRest (f ++ k ++ s) = f := by
  unfold hiRest; rw [extract_append_high _ _ (by decide)]; exact extract_append_top _ _

theorem decode_of {w : BitVec 32} {r : Row} {i : Instr} (h : decodeRow w = .ok r) (e : r.instr w = i) : decode w = .ok i := by
  rw [← e]; unfold decode; rw [h]; rfl

/-! ### The majors -/

theorem row_sys (x : Bool) (a b : Reg) (h : BitVec 11) : decodeRow (pack 0#6 x a b h) = decodeSys (pack 0#6 x a b h) := by
  unfold decodeRow; rw [fOp_pack]; rfl
theorem row_int (x : Bool) (a b : Reg) (h : BitVec 11) : decodeRow (pack 1#6 x a b h) = decodeInt (pack 1#6 x a b h) := by
  unfold decodeRow; rw [fOp_pack]; rfl
theorem row_addi (x : Bool) (a b : Reg) (h : BitVec 11) : decodeRow (pack 2#6 x a b h) = decodeAddi (pack 2#6 x a b h) := by
  unfold decodeRow; rw [fOp_pack]; rfl
theorem row_andi (x : Bool) (a b : Reg) (h : BitVec 11) : decodeRow (pack 3#6 x a b h) = decodeAndi (pack 3#6 x a b h) := by
  unfold decodeRow; rw [fOp_pack]; rfl
theorem row_ori (x : Bool) (a b : Reg) (h : BitVec 11) : decodeRow (pack 4#6 x a b h) = decodeOri (pack 4#6 x a b h) := by
  unfold decodeRow; rw [fOp_pack]; rfl
theorem row_xori (x : Bool) (a b : Reg) (h : BitVec 11) : decodeRow (pack 5#6 x a b h) = decodeXori (pack 5#6 x a b h) := by
  unfold decodeRow; rw [fOp_pack]; rfl
theorem row_slti (x : Bool) (a b : Reg) (h : BitVec 11) : decodeRow (pack 6#6 x a b h) = decodeSlti (pack 6#6 x a b h) := by
  unfold decodeRow; rw [fOp_pack]; rfl
theorem row_sltiu (x : Bool) (a b : Reg) (h : BitVec 11) : decodeRow (pack 7#6 x a b h) = decodeSltiu (pack 7#6 x a b h) := by
  unfold decodeRow; rw [fOp_pack]; rfl
theorem row_shi (x : Bool) (a b : Reg) (h : BitVec 11) : decodeRow (pack 8#6 x a b h) = decodeShi (pack 8#6 x a b h) := by
  unfold decodeRow; rw [fOp_pack]; rfl
theorem row_li (x : Bool) (a b : Reg) (h : BitVec 11) : decodeRow (pack 9#6 x a b h) = decodeLi (pack 9#6 x a b h) := by
  unfold decodeRow; rw [fOp_pack]; rfl
theorem row_lih (x : Bool) (a b : Reg) (h : BitVec 11) : decodeRow (pack 10#6 x a b h) = decodeLih (pack 10#6 x a b h) := by
  unfold decodeRow; rw [fOp_pack]; rfl
theorem row_adpc (x : Bool) (a b : Reg) (h : BitVec 11) : decodeRow (pack 11#6 x a b h) = decodeAdpc (pack 11#6 x a b h) := by
  unfold decodeRow; rw [fOp_pack]; rfl
theorem row_jal (x : Bool) (a b : Reg) (h : BitVec 11) : decodeRow (pack 12#6 x a b h) = decodeJal (pack 12#6 x a b h) := by
  unfold decodeRow; rw [fOp_pack]; rfl
theorem row_jalr (x : Bool) (a b : Reg) (h : BitVec 11) : decodeRow (pack 13#6 x a b h) = decodeJalr (pack 13#6 x a b h) := by
  unfold decodeRow; rw [fOp_pack]; rfl
theorem row_beq (x : Bool) (a b : Reg) (h : BitVec 11) : decodeRow (pack 14#6 x a b h) = decodeBeq (pack 14#6 x a b h) := by
  unfold decodeRow; rw [fOp_pack]; rfl
theorem row_bne (x : Bool) (a b : Reg) (h : BitVec 11) : decodeRow (pack 15#6 x a b h) = decodeBne (pack 15#6 x a b h) := by
  unfold decodeRow; rw [fOp_pack]; rfl
theorem row_blt (x : Bool) (a b : Reg) (h : BitVec 11) : decodeRow (pack 16#6 x a b h) = decodeBlt (pack 16#6 x a b h) := by
  unfold decodeRow; rw [fOp_pack]; rfl
theorem row_bge (x : Bool) (a b : Reg) (h : BitVec 11) : decodeRow (pack 17#6 x a b h) = decodeBge (pack 17#6 x a b h) := by
  unfold decodeRow; rw [fOp_pack]; rfl
theorem row_bltu (x : Bool) (a b : Reg) (h : BitVec 11) : decodeRow (pack 18#6 x a b h) = decodeBltu (pack 18#6 x a b h) := by
  unfold decodeRow; rw [fOp_pack]; rfl
theorem row_bgeu (x : Bool) (a b : Reg) (h : BitVec 11) : decodeRow (pack 19#6 x a b h) = decodeBgeu (pack 19#6 x a b h) := by
  unfold decodeRow; rw [fOp_pack]; rfl
theorem row_ldb (x : Bool) (a b : Reg) (h : BitVec 11) : decodeRow (pack 20#6 x a b h) = decodeLdb (pack 20#6 x a b h) := by
  unfold decodeRow; rw [fOp_pack]; rfl
theorem row_ldh (x : Bool) (a b : Reg) (h : BitVec 11) : decodeRow (pack 21#6 x a b h) = decodeLdh (pack 21#6 x a b h) := by
  unfold decodeRow; rw [fOp_pack]; rfl
theorem row_ldw (x : Bool) (a b : Reg) (h : BitVec 11) : decodeRow (pack 22#6 x a b h) = decodeLdw (pack 22#6 x a b h) := by
  unfold decodeRow; rw [fOp_pack]; rfl
theorem row_ldd (x : Bool) (a b : Reg) (h : BitVec 11) : decodeRow (pack 23#6 x a b h) = decodeLdd (pack 23#6 x a b h) := by
  unfold decodeRow; rw [fOp_pack]; rfl
theorem row_stb (x : Bool) (a b : Reg) (h : BitVec 11) : decodeRow (pack 24#6 x a b h) = decodeStb (pack 24#6 x a b h) := by
  unfold decodeRow; rw [fOp_pack]; rfl
theorem row_sth (x : Bool) (a b : Reg) (h : BitVec 11) : decodeRow (pack 25#6 x a b h) = decodeSth (pack 25#6 x a b h) := by
  unfold decodeRow; rw [fOp_pack]; rfl
theorem row_stw (x : Bool) (a b : Reg) (h : BitVec 11) : decodeRow (pack 26#6 x a b h) = decodeStw (pack 26#6 x a b h) := by
  unfold decodeRow; rw [fOp_pack]; rfl
theorem row_std (x : Bool) (a b : Reg) (h : BitVec 11) : decodeRow (pack 27#6 x a b h) = decodeStd (pack 27#6 x a b h) := by
  unfold decodeRow; rw [fOp_pack]; rfl
theorem row_amo (x : Bool) (a b : Reg) (h : BitVec 11) : decodeRow (pack 28#6 x a b h) = decodeAmo (pack 28#6 x a b h) := by
  unfold decodeRow; rw [fOp_pack]; rfl
theorem row_fence (x : Bool) (a b : Reg) (h : BitVec 11) : decodeRow (pack 29#6 x a b h) = decodeFence (pack 29#6 x a b h) := by
  unfold decodeRow; rw [fOp_pack]; rfl
theorem row_vcfg (x : Bool) (a b : Reg) (h : BitVec 11) : decodeRow (pack 32#6 x a b h) = decodeVcfg (pack 32#6 x a b h) := by
  unfold decodeRow; rw [fOp_pack]; rfl
theorem row_via (x : Bool) (a b : Reg) (h : BitVec 11) : decodeRow (pack 33#6 x a b h) = decodeVia (pack 33#6 x a b h) := by
  unfold decodeRow; rw [fOp_pack]; rfl
theorem row_vias (x : Bool) (a b : Reg) (h : BitVec 11) : decodeRow (pack 34#6 x a b h) = decodeVias (pack 34#6 x a b h) := by
  unfold decodeRow; rw [fOp_pack]; rfl
theorem row_vib (x : Bool) (a b : Reg) (h : BitVec 11) : decodeRow (pack 35#6 x a b h) = decodeVib (pack 35#6 x a b h) := by
  unfold decodeRow; rw [fOp_pack]; rfl
theorem row_vibs (x : Bool) (a b : Reg) (h : BitVec 11) : decodeRow (pack 36#6 x a b h) = decodeVibs (pack 36#6 x a b h) := by
  unfold decodeRow; rw [fOp_pack]; rfl
theorem row_vfa (x : Bool) (a b : Reg) (h : BitVec 11) : decodeRow (pack 37#6 x a b h) = decodeVfa (pack 37#6 x a b h) := by
  unfold decodeRow; rw [fOp_pack]; rfl
theorem row_vfas (x : Bool) (a b : Reg) (h : BitVec 11) : decodeRow (pack 38#6 x a b h) = decodeVfas (pack 38#6 x a b h) := by
  unfold decodeRow; rw [fOp_pack]; rfl
theorem row_vfu (x : Bool) (a b : Reg) (h : BitVec 11) : decodeRow (pack 39#6 x a b h) = decodeVfu (pack 39#6 x a b h) := by
  unfold decodeRow; rw [fOp_pack]; rfl
theorem row_vcmp (x : Bool) (a b : Reg) (h : BitVec 11) : decodeRow (pack 40#6 x a b h) = decodeVcmp (pack 40#6 x a b h) := by
  unfold decodeRow; rw [fOp_pack]; rfl
theorem row_vcmps (x : Bool) (a b : Reg) (h : BitVec 11) : decodeRow (pack 41#6 x a b h) = decodeVcmps (pack 41#6 x a b h) := by
  unfold decodeRow; rw [fOp_pack]; rfl
theorem row_vfcmp (x : Bool) (a b : Reg) (h : BitVec 11) : decodeRow (pack 42#6 x a b h) = decodeVfcmp (pack 42#6 x a b h) := by
  unfold decodeRow; rw [fOp_pack]; rfl
theorem row_vcvt (x : Bool) (a b : Reg) (h : BitVec 11) : decodeRow (pack 43#6 x a b h) = decodeVcvt (pack 43#6 x a b h) := by
  unfold decodeRow; rw [fOp_pack]; rfl
theorem row_vprm (x : Bool) (a b : Reg) (h : BitVec 11) : decodeRow (pack 44#6 x a b h) = decodeVprm (pack 44#6 x a b h) := by
  unfold decodeRow; rw [fOp_pack]; rfl
theorem row_vred (x : Bool) (a b : Reg) (h : BitVec 11) : decodeRow (pack 45#6 x a b h) = decodeVred (pack 45#6 x a b h) := by
  unfold decodeRow; rw [fOp_pack]; rfl
theorem row_pred (x : Bool) (a b : Reg) (h : BitVec 11) : decodeRow (pack 46#6 x a b h) = decodePred (pack 46#6 x a b h) := by
  unfold decodeRow; rw [fOp_pack]; rfl
theorem row_vimm (x : Bool) (a b : Reg) (h : BitVec 11) : decodeRow (pack 47#6 x a b h) = decodeVimm (pack 47#6 x a b h) := by
  unfold decodeRow; rw [fOp_pack]; rfl
theorem row_vld (x : Bool) (a b : Reg) (h : BitVec 11) : decodeRow (pack 48#6 x a b h) = decodeVld (pack 48#6 x a b h) := by
  unfold decodeRow; rw [fOp_pack]; rfl
theorem row_vst (x : Bool) (a b : Reg) (h : BitVec 11) : decodeRow (pack 49#6 x a b h) = decodeVst (pack 49#6 x a b h) := by
  unfold decodeRow; rw [fOp_pack]; rfl
theorem row_vamo (x : Bool) (a b : Reg) (h : BitVec 11) : decodeRow (pack 50#6 x a b h) = decodeVamo (pack 50#6 x a b h) := by
  unfold decodeRow; rw [fOp_pack]; rfl
theorem row_tile (x : Bool) (a b : Reg) (h : BitVec 11) : decodeRow (pack 51#6 x a b h) = decodeTile (pack 51#6 x a b h) := by
  unfold decodeRow; rw [fOp_pack]; rfl
theorem row_copy (x : Bool) (a b : Reg) (h : BitVec 11) : decodeRow (pack 52#6 x a b h) = decodeCopy (pack 52#6 x a b h) := by
  unfold decodeRow; rw [fOp_pack]; rfl
theorem row_strm (x : Bool) (a b : Reg) (h : BitVec 11) : decodeRow (pack 53#6 x a b h) = decodeStrm (pack 53#6 x a b h) := by
  unfold decodeRow; rw [fOp_pack]; rfl
theorem row_scl (x : Bool) (a b : Reg) (h : BitVec 11) : decodeRow (pack 54#6 x a b h) = decodeScl (pack 54#6 x a b h) := by
  unfold decodeRow; rw [fOp_pack]; rfl
theorem row_mtx (x : Bool) (a b : Reg) (h : BitVec 11) : decodeRow (pack 55#6 x a b h) = decodeMtx (pack 55#6 x a b h) := by
  unfold decodeRow; rw [fOp_pack]; rfl
theorem row_smx (x : Bool) (a b : Reg) (h : BitVec 11) : decodeRow (pack 56#6 x a b h) = decodeSmx (pack 56#6 x a b h) := by
  unfold decodeRow; rw [fOp_pack]; rfl
theorem row_chn (x : Bool) (a b : Reg) (h : BitVec 11) : decodeRow (pack 57#6 x a b h) = decodeChn (pack 57#6 x a b h) := by
  unfold decodeRow; rw [fOp_pack]; rfl
theorem row_que (x : Bool) (a b : Reg) (h : BitVec 11) : decodeRow (pack 58#6 x a b h) = decodeQue (pack 58#6 x a b h) := by
  unfold decodeRow; rw [fOp_pack]; rfl
theorem row_bkg (x : Bool) (a b : Reg) (h : BitVec 11) : decodeRow (pack 59#6 x a b h) = decodeBkg (pack 59#6 x a b h) := by
  unfold decodeRow; rw [fOp_pack]; rfl
theorem row_srs (x : Bool) (a b : Reg) (h : BitVec 11) : decodeRow (pack 60#6 x a b h) = decodeSrs (pack 60#6 x a b h) := by
  unfold decodeRow; rw [fOp_pack]; rfl
theorem row_tsk (x : Bool) (a b : Reg) (h : BitVec 11) : decodeRow (pack 61#6 x a b h) = decodeTsk (pack 61#6 x a b h) := by
  unfold decodeRow; rw [fOp_pack]; rfl

/-! ### The constructors -/

namespace Laws.RoundTrip

/-- What the lemma of a constructor says: the word of the instruction, if it has one, decodes to it. -/
def Statement (i : Instr) : Prop := ∀ w, encode i = some w → decode w = .ok i

/-- An event has no word. -/
theorem event {i : Instr} (h : encode i = none) : Statement i := by
  intro w e; rw [h] at e; exact nomatch e

theorem fn_cases (n : BitVec 2) : n = 0#2 ∨ n = 1#2 ∨ n = 2#2 ∨ n = 3#2 := by revert n; decide

theorem add (a : Reg) (b : Reg) (c : Reg) : Statement (.add a b c) := by
  intro w h
  obtain rfl : pack 1#6 false a b (0#4 ++ c) = w := Option.some.inj h
  refine decode_of (r := .add) ?_ ?_
  · rw [row_int]; unfold decodeInt; simp only [fX_pack, fHi_pack, hiFn_append, hiC_append]; rfl
  · show Instr.add _ _ _ = _
    simp only [fA_pack, fB_pack, fHi_pack, hiC_append]

theorem sub (a : Reg) (b : Reg) (c : Reg) : Statement (.sub a b c) := by
  intro w h
  obtain rfl : pack 1#6 false a b (1#4 ++ c) = w := Option.some.inj h
  refine decode_of (r := .sub) ?_ ?_
  · rw [row_int]; unfold decodeInt; simp only [fX_pack, fHi_pack, hiFn_append, hiC_append]; rfl
  · show Instr.sub _ _ _ = _
    simp only [fA_pack, fB_pack, fHi_pack, hiC_append]

theorem mul (a : Reg) (b : Reg) (c : Reg) : Statement (.mul a b c) := by
  intro w h
  obtain rfl : pack 1#6 false a b (2#4 ++ c) = w := Option.some.inj h
  refine decode_of (r := .mul) ?_ ?_
  · rw [row_int]; unfold decodeInt; simp only [fX_pack, fHi_pack, hiFn_append, hiC_append]; rfl
  · show Instr.mul _ _ _ = _
    simp only [fA_pack, fB_pack, fHi_pack, hiC_append]

theorem mulh (a : Reg) (b : Reg) (c : Reg) : Statement (.mulh a b c) := by
  intro w h
  obtain rfl : pack 1#6 false a b (3#4 ++ c) = w := Option.some.inj h
  refine decode_of (r := .mulh) ?_ ?_
  · rw [row_int]; unfold decodeInt; simp only [fX_pack, fHi_pack, hiFn_append, hiC_append]; rfl
  · show Instr.mulh _ _ _ = _
    simp only [fA_pack, fB_pack, fHi_pack, hiC_append]

theorem mulhu (a : Reg) (b : Reg) (c : Reg) : Statement (.mulhu a b c) := by
  intro w h
  obtain rfl : pack 1#6 false a b (4#4 ++ c) = w := Option.some.inj h
  refine decode_of (r := .mulhu) ?_ ?_
  · rw [row_int]; unfold decodeInt; simp only [fX_pack, fHi_pack, hiFn_append, hiC_append]; rfl
  · show Instr.mulhu _ _ _ = _
    simp only [fA_pack, fB_pack, fHi_pack, hiC_append]

theorem mulhsu (a : Reg) (b : Reg) (c : Reg) : Statement (.mulhsu a b c) := by
  intro w h
  obtain rfl : pack 1#6 false a b (5#4 ++ c) = w := Option.some.inj h
  refine decode_of (r := .mulhsu) ?_ ?_
  · rw [row_int]; unfold decodeInt; simp only [fX_pack, fHi_pack, hiFn_append, hiC_append]; rfl
  · show Instr.mulhsu _ _ _ = _
    simp only [fA_pack, fB_pack, fHi_pack, hiC_append]

theorem div (a : Reg) (b : Reg) (c : Reg) : Statement (.div a b c) := by
  intro w h
  obtain rfl : pack 1#6 false a b (6#4 ++ c) = w := Option.some.inj h
  refine decode_of (r := .div) ?_ ?_
  · rw [row_int]; unfold decodeInt; simp only [fX_pack, fHi_pack, hiFn_append, hiC_append]; rfl
  · show Instr.div _ _ _ = _
    simp only [fA_pack, fB_pack, fHi_pack, hiC_append]

theorem divu (a : Reg) (b : Reg) (c : Reg) : Statement (.divu a b c) := by
  intro w h
  obtain rfl : pack 1#6 false a b (7#4 ++ c) = w := Option.some.inj h
  refine decode_of (r := .divu) ?_ ?_
  · rw [row_int]; unfold decodeInt; simp only [fX_pack, fHi_pack, hiFn_append, hiC_append]; rfl
  · show Instr.divu _ _ _ = _
    simp only [fA_pack, fB_pack, fHi_pack, hiC_append]

theorem rem (a : Reg) (b : Reg) (c : Reg) : Statement (.rem a b c) := by
  intro w h
  obtain rfl : pack 1#6 false a b (8#4 ++ c) = w := Option.some.inj h
  refine decode_of (r := .rem) ?_ ?_
  · rw [row_int]; unfold decodeInt; simp only [fX_pack, fHi_pack, hiFn_append, hiC_append]; rfl
  · show Instr.rem _ _ _ = _
    simp only [fA_pack, fB_pack, fHi_pack, hiC_append]

theorem remu (a : Reg) (b : Reg) (c : Reg) : Statement (.remu a b c) := by
  intro w h
  obtain rfl : pack 1#6 false a b (9#4 ++ c) = w := Option.some.inj h
  refine decode_of (r := .remu) ?_ ?_
  · rw [row_int]; unfold decodeInt; simp only [fX_pack, fHi_pack, hiFn_append, hiC_append]; rfl
  · show Instr.remu _ _ _ = _
    simp only [fA_pack, fB_pack, fHi_pack, hiC_append]

theorem and (a : Reg) (b : Reg) (c : Reg) : Statement (.and a b c) := by
  intro w h
  obtain rfl : pack 1#6 false a b (10#4 ++ c) = w := Option.some.inj h
  refine decode_of (r := .and) ?_ ?_
  · rw [row_int]; unfold decodeInt; simp only [fX_pack, fHi_pack, hiFn_append, hiC_append]; rfl
  · show Instr.and _ _ _ = _
    simp only [fA_pack, fB_pack, fHi_pack, hiC_append]

theorem or (a : Reg) (b : Reg) (c : Reg) : Statement (.or a b c) := by
  intro w h
  obtain rfl : pack 1#6 false a b (11#4 ++ c) = w := Option.some.inj h
  refine decode_of (r := .or) ?_ ?_
  · rw [row_int]; unfold decodeInt; simp only [fX_pack, fHi_pack, hiFn_append, hiC_append]; rfl
  · show Instr.or _ _ _ = _
    simp only [fA_pack, fB_pack, fHi_pack, hiC_append]

theorem xor (a : Reg) (b : Reg) (c : Reg) : Statement (.xor a b c) := by
  intro w h
  obtain rfl : pack 1#6 false a b (12#4 ++ c) = w := Option.some.inj h
  refine decode_of (r := .xor) ?_ ?_
  · rw [row_int]; unfold decodeInt; simp only [fX_pack, fHi_pack, hiFn_append, hiC_append]; rfl
  · show Instr.xor _ _ _ = _
    simp only [fA_pack, fB_pack, fHi_pack, hiC_append]

theorem andn (a : Reg) (b : Reg) (c : Reg) : Statement (.andn a b c) := by
  intro w h
  obtain rfl : pack 1#6 false a b (13#4 ++ c) = w := Option.some.inj h
  refine decode_of (r := .andn) ?_ ?_
  · rw [row_int]; unfold decodeInt; simp only [fX_pack, fHi_pack, hiFn_append, hiC_append]; rfl
  · show Instr.andn _ _ _ = _
    simp only [fA_pack, fB_pack, fHi_pack, hiC_append]

theorem orn (a : Reg) (b : Reg) (c : Reg) : Statement (.orn a b c) := by
  intro w h
  obtain rfl : pack 1#6 false a b (14#4 ++ c) = w := Option.some.inj h
  refine decode_of (r := .orn) ?_ ?_
  · rw [row_int]; unfold decodeInt; simp only [fX_pack, fHi_pack, hiFn_append, hiC_append]; rfl
  · show Instr.orn _ _ _ = _
    simp only [fA_pack, fB_pack, fHi_pack, hiC_append]

theorem shl (a : Reg) (b : Reg) (c : Reg) : Statement (.shl a b c) := by
  intro w h
  obtain rfl : pack 1#6 false a b (15#4 ++ c) = w := Option.some.inj h
  refine decode_of (r := .shl) ?_ ?_
  · rw [row_int]; unfold decodeInt; simp only [fX_pack, fHi_pack, hiFn_append, hiC_append]; rfl
  · show Instr.shl _ _ _ = _
    simp only [fA_pack, fB_pack, fHi_pack, hiC_append]

theorem shr (a : Reg) (b : Reg) (c : Reg) : Statement (.shr a b c) := by
  intro w h
  obtain rfl : pack 1#6 true a b (0#4 ++ c) = w := Option.some.inj h
  refine decode_of (r := .shr) ?_ ?_
  · rw [row_int]; unfold decodeInt; simp only [fX_pack, fHi_pack, hiFn_append, hiC_append]; rfl
  · show Instr.shr _ _ _ = _
    simp only [fA_pack, fB_pack, fHi_pack, hiC_append]

theorem sra (a : Reg) (b : Reg) (c : Reg) : Statement (.sra a b c) := by
  intro w h
  obtain rfl : pack 1#6 true a b (1#4 ++ c) = w := Option.some.inj h
  refine decode_of (r := .sra) ?_ ?_
  · rw [row_int]; unfold decodeInt; simp only [fX_pack, fHi_pack, hiFn_append, hiC_append]; rfl
  · show Instr.sra _ _ _ = _
    simp only [fA_pack, fB_pack, fHi_pack, hiC_append]

theorem ror (a : Reg) (b : Reg) (c : Reg) : Statement (.ror a b c) := by
  intro w h
  obtain rfl : pack 1#6 true a b (2#4 ++ c) = w := Option.some.inj h
  refine decode_of (r := .ror) ?_ ?_
  · rw [row_int]; unfold decodeInt; simp only [fX_pack, fHi_pack, hiFn_append, hiC_append]; rfl
  · show Instr.ror _ _ _ = _
    simp only [fA_pack, fB_pack, fHi_pack, hiC_append]

theorem slt (a : Reg) (b : Reg) (c : Reg) : Statement (.slt a b c) := by
  intro w h
  obtain rfl : pack 1#6 true a b (3#4 ++ c) = w := Option.some.inj h
  refine decode_of (r := .slt) ?_ ?_
  · rw [row_int]; unfold decodeInt; simp only [fX_pack, fHi_pack, hiFn_append, hiC_append]; rfl
  · show Instr.slt _ _ _ = _
    simp only [fA_pack, fB_pack, fHi_pack, hiC_append]

theorem sltu (a : Reg) (b : Reg) (c : Reg) : Statement (.sltu a b c) := by
  intro w h
  obtain rfl : pack 1#6 true a b (4#4 ++ c) = w := Option.some.inj h
  refine decode_of (r := .sltu) ?_ ?_
  · rw [row_int]; unfold decodeInt; simp only [fX_pack, fHi_pack, hiFn_append, hiC_append]; rfl
  · show Instr.sltu _ _ _ = _
    simp only [fA_pack, fB_pack, fHi_pack, hiC_append]

theorem min (a : Reg) (b : Reg) (c : Reg) : Statement (.min a b c) := by
  intro w h
  obtain rfl : pack 1#6 true a b (5#4 ++ c) = w := Option.some.inj h
  refine decode_of (r := .min) ?_ ?_
  · rw [row_int]; unfold decodeInt; simp only [fX_pack, fHi_pack, hiFn_append, hiC_append]; rfl
  · show Instr.min _ _ _ = _
    simp only [fA_pack, fB_pack, fHi_pack, hiC_append]

theorem max (a : Reg) (b : Reg) (c : Reg) : Statement (.max a b c) := by
  intro w h
  obtain rfl : pack 1#6 true a b (6#4 ++ c) = w := Option.some.inj h
  refine decode_of (r := .max) ?_ ?_
  · rw [row_int]; unfold decodeInt; simp only [fX_pack, fHi_pack, hiFn_append, hiC_append]; rfl
  · show Instr.max _ _ _ = _
    simp only [fA_pack, fB_pack, fHi_pack, hiC_append]

theorem minu (a : Reg) (b : Reg) (c : Reg) : Statement (.minu a b c) := by
  intro w h
  obtain rfl : pack 1#6 true a b (7#4 ++ c) = w := Option.some.inj h
  refine decode_of (r := .minu) ?_ ?_
  · rw [row_int]; unfold decodeInt; simp only [fX_pack, fHi_pack, hiFn_append, hiC_append]; rfl
  · show Instr.minu _ _ _ = _
    simp only [fA_pack, fB_pack, fHi_pack, hiC_append]

theorem maxu (a : Reg) (b : Reg) (c : Reg) : Statement (.maxu a b c) := by
  intro w h
  obtain rfl : pack 1#6 true a b (8#4 ++ c) = w := Option.some.inj h
  refine decode_of (r := .maxu) ?_ ?_
  · rw [row_int]; unfold decodeInt; simp only [fX_pack, fHi_pack, hiFn_append, hiC_append]; rfl
  · show Instr.maxu _ _ _ = _
    simp only [fA_pack, fB_pack, fHi_pack, hiC_append]

theorem clz (a : Reg) (b : Reg) : Statement (.clz a b) := by
  intro w h
  obtain rfl : pack 1#6 true a b (9#4 ++ 0#7) = w := Option.some.inj h
  refine decode_of (r := .clz) ?_ ?_
  · rw [row_int]; unfold decodeInt; simp only [fX_pack, fHi_pack, hiFn_append, hiC_append]; rfl
  · show Instr.clz _ _ = _
    simp only [fA_pack, fB_pack]

theorem ctz (a : Reg) (b : Reg) : Statement (.ctz a b) := by
  intro w h
  obtain rfl : pack 1#6 true a b (10#4 ++ 0#7) = w := Option.some.inj h
  refine decode_of (r := .ctz) ?_ ?_
  · rw [row_int]; unfold decodeInt; simp only [fX_pack, fHi_pack, hiFn_append, hiC_append]; rfl
  · show Instr.ctz _ _ = _
    simp only [fA_pack, fB_pack]

theorem popc (a : Reg) (b : Reg) : Statement (.popc a b) := by
  intro w h
  obtain rfl : pack 1#6 true a b (11#4 ++ 0#7) = w := Option.some.inj h
  refine decode_of (r := .popc) ?_ ?_
  · rw [row_int]; unfold decodeInt; simp only [fX_pack, fHi_pack, hiFn_append, hiC_append]; rfl
  · show Instr.popc _ _ = _
    simp only [fA_pack, fB_pack]

theorem exts (a : Reg) (b : Reg) (c : Reg) : Statement (.exts a b c) := by
  intro w h
  obtain rfl : pack 1#6 true a b (12#4 ++ c) = w := Option.some.inj h
  refine decode_of (r := .exts) ?_ ?_
  · rw [row_int]; unfold decodeInt; simp only [fX_pack, fHi_pack, hiFn_append, hiC_append]; rfl
  · show Instr.exts _ _ _ = _
    simp only [fA_pack, fB_pack, fHi_pack, hiC_append]

theorem extz (a : Reg) (b : Reg) (c : Reg) : Statement (.extz a b c) := by
  intro w h
  obtain rfl : pack 1#6 true a b (13#4 ++ c) = w := Option.some.inj h
  refine decode_of (r := .extz) ?_ ?_
  · rw [row_int]; unfold decodeInt; simp only [fX_pack, fHi_pack, hiFn_append, hiC_append]; rfl
  · show Instr.extz _ _ _ = _
    simp only [fA_pack, fB_pack, fHi_pack, hiC_append]

theorem bswp (a : Reg) (b : Reg) : Statement (.bswp a b) := by
  intro w h
  obtain rfl : pack 1#6 true a b (14#4 ++ 0#7) = w := Option.some.inj h
  refine decode_of (r := .bswp) ?_ ?_
  · rw [row_int]; unfold decodeInt; simp only [fX_pack, fHi_pack, hiFn_append, hiC_append]; rfl
  · show Instr.bswp _ _ = _
    simp only [fA_pack, fB_pack]

theorem selnz (a : Reg) (b : Reg) (c : Reg) : Statement (.selnz a b c) := by
  intro w h
  obtain rfl : pack 1#6 true a b (15#4 ++ c) = w := Option.some.inj h
  refine decode_of (r := .selnz) ?_ ?_
  · rw [row_int]; unfold decodeInt; simp only [fX_pack, fHi_pack, hiFn_append, hiC_append]; rfl
  · show Instr.selnz _ _ _ = _
    simp only [fA_pack, fB_pack, fHi_pack, hiC_append]

theorem addi (a : Reg) (b : Reg) (i : BitVec 11) : Statement (.addi a b i) := by
  intro w h
  obtain rfl : pack 2#6 false a b i = w := Option.some.inj h
  refine decode_of (r := .addi) ?_ ?_
  · rw [row_addi]; unfold decodeAddi; simp only [fX_pack]; rfl
  · show Instr.addi _ _ _ = _
    simp only [fA_pack, fB_pack, fHi_pack]

theorem andi (a : Reg) (b : Reg) (i : BitVec 11) : Statement (.andi a b i) := by
  intro w h
  obtain rfl : pack 3#6 false a b i = w := Option.some.inj h
  refine decode_of (r := .andi) ?_ ?_
  · rw [row_andi]; unfold decodeAndi; simp only [fX_pack]; rfl
  · show Instr.andi _ _ _ = _
    simp only [fA_pack, fB_pack, fHi_pack]

theorem ori (a : Reg) (b : Reg) (i : BitVec 11) : Statement (.ori a b i) := by
  intro w h
  obtain rfl : pack 4#6 false a b i = w := Option.some.inj h
  refine decode_of (r := .ori) ?_ ?_
  · rw [row_ori]; unfold decodeOri; simp only [fX_pack]; rfl
  · show Instr.ori _ _ _ = _
    simp only [fA_pack, fB_pack, fHi_pack]

theorem xori (a : Reg) (b : Reg) (i : BitVec 11) : Statement (.xori a b i) := by
  intro w h
  obtain rfl : pack 5#6 false a b i = w := Option.some.inj h
  refine decode_of (r := .xori) ?_ ?_
  · rw [row_xori]; unfold decodeXori; simp only [fX_pack]; rfl
  · show Instr.xori _ _ _ = _
    simp only [fA_pack, fB_pack, fHi_pack]

theorem slti (a : Reg) (b : Reg) (i : BitVec 11) : Statement (.slti a b i) := by
  intro w h
  obtain rfl : pack 6#6 false a b i = w := Option.some.inj h
  refine decode_of (r := .slti) ?_ ?_
  · rw [row_slti]; unfold decodeSlti; simp only [fX_pack]; rfl
  · show Instr.slti _ _ _ = _
    simp only [fA_pack, fB_pack, fHi_pack]

theorem sltiu (a : Reg) (b : Reg) (i : BitVec 11) : Statement (.sltiu a b i) := by
  intro w h
  obtain rfl : pack 7#6 false a b i = w := Option.some.inj h
  refine decode_of (r := .sltiu) ?_ ?_
  · rw [row_sltiu]; unfold decodeSltiu; simp only [fX_pack]; rfl
  · show Instr.sltiu _ _ _ = _
    simp only [fA_pack, fB_pack, fHi_pack]

theorem shli (a : Reg) (b : Reg) (s : BitVec 6) : Statement (.shli a b s) := by
  intro w h
  obtain rfl : pack 8#6 false a b (0#5 ++ s) = w := Option.some.inj h
  refine decode_of (r := .shli) ?_ ?_
  · rw [row_shi]; unfold decodeShi; simp only [fX_pack, fHi_pack, hiKind_append]; rfl
  · show Instr.shli _ _ _ = _
    simp only [fA_pack, fB_pack, fHi_pack, hiLow6_append]

theorem shri (a : Reg) (b : Reg) (s : BitVec 6) : Statement (.shri a b s) := by
  intro w h
  obtain rfl : pack 8#6 false a b (1#5 ++ s) = w := Option.some.inj h
  refine decode_of (r := .shri) ?_ ?_
  · rw [row_shi]; unfold decodeShi; simp only [fX_pack, fHi_pack, hiKind_append]; rfl
  · show Instr.shri _ _ _ = _
    simp only [fA_pack, fB_pack, fHi_pack, hiLow6_append]

theorem srai (a : Reg) (b : Reg) (s : BitVec 6) : Statement (.srai a b s) := by
  intro w h
  obtain rfl : pack 8#6 false a b (2#5 ++ s) = w := Option.some.inj h
  refine decode_of (r := .srai) ?_ ?_
  · rw [row_shi]; unfold decodeShi; simp only [fX_pack, fHi_pack, hiKind_append]; rfl
  · show Instr.srai _ _ _ = _
    simp only [fA_pack, fB_pack, fHi_pack, hiLow6_append]

theorem li (a : Reg) (i : BitVec 18) : Statement (.li a i) := by
  intro w h
  obtain rfl : pack 9#6 false a (i.extractLsb' 0 7) (i.extractLsb' 7 11) = w := Option.some.inj h
  refine decode_of (r := .li) ?_ ?_
  · rw [row_li]; unfold decodeLi; simp only [fX_pack]; rfl
  · show Instr.li _ _ = _
    simp only [fA_pack, fB_pack, fHi_pack, imm18_split]

theorem lih (a : Reg) (i : BitVec 18) : Statement (.lih a i) := by
  intro w h
  obtain rfl : pack 10#6 false a (i.extractLsb' 0 7) (i.extractLsb' 7 11) = w := Option.some.inj h
  refine decode_of (r := .lih) ?_ ?_
  · rw [row_lih]; unfold decodeLih; simp only [fX_pack]; rfl
  · show Instr.lih _ _ = _
    simp only [fA_pack, fB_pack, fHi_pack, imm18_split]

theorem adpc (a : Reg) (i : BitVec 18) : Statement (.adpc a i) := by
  intro w h
  obtain rfl : pack 11#6 false a (i.extractLsb' 0 7) (i.extractLsb' 7 11) = w := Option.some.inj h
  refine decode_of (r := .adpc) ?_ ?_
  · rw [row_adpc]; unfold decodeAdpc; simp only [fX_pack]; rfl
  · show Instr.adpc _ _ = _
    simp only [fA_pack, fB_pack, fHi_pack, imm18_split]

theorem jal (a : Reg) (i : BitVec 18) : Statement (.jal a i) := by
  intro w h
  obtain rfl : pack 12#6 false a (i.extractLsb' 0 7) (i.extractLsb' 7 11) = w := Option.some.inj h
  refine decode_of (r := .jal) ?_ ?_
  · rw [row_jal]; unfold decodeJal; simp only [fX_pack]; rfl
  · show Instr.jal _ _ = _
    simp only [fA_pack, fB_pack, fHi_pack, imm18_split]

theorem jalr (a : Reg) (b : Reg) (i : BitVec 11) : Statement (.jalr a b i) := by
  intro w h
  obtain rfl : pack 13#6 false a b i = w := Option.some.inj h
  refine decode_of (r := .jalr) ?_ ?_
  · rw [row_jalr]; unfold decodeJalr; simp only [fX_pack]; rfl
  · show Instr.jalr _ _ _ = _
    simp only [fA_pack, fB_pack, fHi_pack]

theorem beq (a : Reg) (b : Reg) (i : BitVec 11) : Statement (.beq a b i) := by
  intro w h
  obtain rfl : pack 14#6 false a b i = w := Option.some.inj h
  refine decode_of (r := .beq) ?_ ?_
  · rw [row_beq]; unfold decodeBeq; simp only [fX_pack]; rfl
  · show Instr.beq _ _ _ = _
    simp only [fA_pack, fB_pack, fHi_pack]

theorem bne (a : Reg) (b : Reg) (i : BitVec 11) : Statement (.bne a b i) := by
  intro w h
  obtain rfl : pack 15#6 false a b i = w := Option.some.inj h
  refine decode_of (r := .bne) ?_ ?_
  · rw [row_bne]; unfold decodeBne; simp only [fX_pack]; rfl
  · show Instr.bne _ _ _ = _
    simp only [fA_pack, fB_pack, fHi_pack]

theorem blt (a : Reg) (b : Reg) (i : BitVec 11) : Statement (.blt a b i) := by
  intro w h
  obtain rfl : pack 16#6 false a b i = w := Option.some.inj h
  refine decode_of (r := .blt) ?_ ?_
  · rw [row_blt]; unfold decodeBlt; simp only [fX_pack]; rfl
  · show Instr.blt _ _ _ = _
    simp only [fA_pack, fB_pack, fHi_pack]

theorem bge (a : Reg) (b : Reg) (i : BitVec 11) : Statement (.bge a b i) := by
  intro w h
  obtain rfl : pack 17#6 false a b i = w := Option.some.inj h
  refine decode_of (r := .bge) ?_ ?_
  · rw [row_bge]; unfold decodeBge; simp only [fX_pack]; rfl
  · show Instr.bge _ _ _ = _
    simp only [fA_pack, fB_pack, fHi_pack]

theorem bltu (a : Reg) (b : Reg) (i : BitVec 11) : Statement (.bltu a b i) := by
  intro w h
  obtain rfl : pack 18#6 false a b i = w := Option.some.inj h
  refine decode_of (r := .bltu) ?_ ?_
  · rw [row_bltu]; unfold decodeBltu; simp only [fX_pack]; rfl
  · show Instr.bltu _ _ _ = _
    simp only [fA_pack, fB_pack, fHi_pack]

theorem bgeu (a : Reg) (b : Reg) (i : BitVec 11) : Statement (.bgeu a b i) := by
  intro w h
  obtain rfl : pack 19#6 false a b i = w := Option.some.inj h
  refine decode_of (r := .bgeu) ?_ ?_
  · rw [row_bgeu]; unfold decodeBgeu; simp only [fX_pack]; rfl
  · show Instr.bgeu _ _ _ = _
    simp only [fA_pack, fB_pack, fHi_pack]

theorem ldb (a : Reg) (b : Reg) (i : BitVec 11) : Statement (.ldb a b i) := by
  intro w h
  obtain rfl : pack 20#6 false a b i = w := Option.some.inj h
  refine decode_of (r := .ldb) ?_ ?_
  · rw [row_ldb]; unfold decodeLdb; simp only [fX_pack]; rfl
  · show Instr.ldb _ _ _ = _
    simp only [fA_pack, fB_pack, fHi_pack]

theorem ldbz (a : Reg) (b : Reg) (i : BitVec 11) : Statement (.ldbz a b i) := by
  intro w h
  obtain rfl : pack 20#6 true a b i = w := Option.some.inj h
  refine decode_of (r := .ldbz) ?_ ?_
  · rw [row_ldb]; unfold decodeLdb; simp only [fX_pack]; rfl
  · show Instr.ldbz _ _ _ = _
    simp only [fA_pack, fB_pack, fHi_pack]

theorem ldh (a : Reg) (b : Reg) (i : BitVec 11) : Statement (.ldh a b i) := by
  intro w h
  obtain rfl : pack 21#6 false a b i = w := Option.some.inj h
  refine decode_of (r := .ldh) ?_ ?_
  · rw [row_ldh]; unfold decodeLdh; simp only [fX_pack]; rfl
  · show Instr.ldh _ _ _ = _
    simp only [fA_pack, fB_pack, fHi_pack]

theorem ldhz (a : Reg) (b : Reg) (i : BitVec 11) : Statement (.ldhz a b i) := by
  intro w h
  obtain rfl : pack 21#6 true a b i = w := Option.some.inj h
  refine decode_of (r := .ldhz) ?_ ?_
  · rw [row_ldh]; unfold decodeLdh; simp only [fX_pack]; rfl
  · show Instr.ldhz _ _ _ = _
    simp only [fA_pack, fB_pack, fHi_pack]

theorem ldw (a : Reg) (b : Reg) (i : BitVec 11) : Statement (.ldw a b i) := by
  intro w h
  obtain rfl : pack 22#6 false a b i = w := Option.some.inj h
  refine decode_of (r := .ldw) ?_ ?_
  · rw [row_ldw]; unfold decodeLdw; simp only [fX_pack]; rfl
  · show Instr.ldw _ _ _ = _
    simp only [fA_pack, fB_pack, fHi_pack]

theorem ldwz (a : Reg) (b : Reg) (i : BitVec 11) : Statement (.ldwz a b i) := by
  intro w h
  obtain rfl : pack 22#6 true a b i = w := Option.some.inj h
  refine decode_of (r := .ldwz) ?_ ?_
  · rw [row_ldw]; unfold decodeLdw; simp only [fX_pack]; rfl
  · show Instr.ldwz _ _ _ = _
    simp only [fA_pack, fB_pack, fHi_pack]

theorem ldd (a : Reg) (b : Reg) (i : BitVec 11) : Statement (.ldd a b i) := by
  intro w h
  obtain rfl : pack 23#6 false a b i = w := Option.some.inj h
  refine decode_of (r := .ldd) ?_ ?_
  · rw [row_ldd]; unfold decodeLdd; simp only [fX_pack]; rfl
  · show Instr.ldd _ _ _ = _
    simp only [fA_pack, fB_pack, fHi_pack]

theorem stb (a : Reg) (b : Reg) (i : BitVec 11) : Statement (.stb a b i) := by
  intro w h
  obtain rfl : pack 24#6 false a b i = w := Option.some.inj h
  refine decode_of (r := .stb) ?_ ?_
  · rw [row_stb]; unfold decodeStb; simp only [fX_pack]; rfl
  · show Instr.stb _ _ _ = _
    simp only [fA_pack, fB_pack, fHi_pack]

theorem sth (a : Reg) (b : Reg) (i : BitVec 11) : Statement (.sth a b i) := by
  intro w h
  obtain rfl : pack 25#6 false a b i = w := Option.some.inj h
  refine decode_of (r := .sth) ?_ ?_
  · rw [row_sth]; unfold decodeSth; simp only [fX_pack]; rfl
  · show Instr.sth _ _ _ = _
    simp only [fA_pack, fB_pack, fHi_pack]

theorem stw (a : Reg) (b : Reg) (i : BitVec 11) : Statement (.stw a b i) := by
  intro w h
  obtain rfl : pack 26#6 false a b i = w := Option.some.inj h
  refine decode_of (r := .stw) ?_ ?_
  · rw [row_stw]; unfold decodeStw; simp only [fX_pack]; rfl
  · show Instr.stw _ _ _ = _
    simp only [fA_pack, fB_pack, fHi_pack]

theorem std (a : Reg) (b : Reg) (i : BitVec 11) : Statement (.std a b i) := by
  intro w h
  obtain rfl : pack 27#6 false a b i = w := Option.some.inj h
  refine decode_of (r := .std) ?_ ?_
  · rw [row_std]; unfold decodeStd; simp only [fX_pack]; rfl
  · show Instr.std _ _ _ = _
    simp only [fA_pack, fB_pack, fHi_pack]

theorem amoswp (a : Reg) (b : Reg) (c : Reg) (o : Bool) : Statement (.amoswp a b c o) := by
  intro w h
  obtain rfl : pack 28#6 o a b (0#4 ++ c) = w := Option.some.inj h
  refine decode_of (r := .amoswp) ?_ ?_
  · rw [row_amo]; unfold decodeAmo; simp only [fHi_pack, hiFn_append]; rfl
  · show Instr.amoswp _ _ _ _ = _
    simp only [fA_pack, fB_pack, fX_pack, fHi_pack, hiC_append]

theorem amoadd (a : Reg) (b : Reg) (c : Reg) (o : Bool) : Statement (.amoadd a b c o) := by
  intro w h
  obtain rfl : pack 28#6 o a b (1#4 ++ c) = w := Option.some.inj h
  refine decode_of (r := .amoadd) ?_ ?_
  · rw [row_amo]; unfold decodeAmo; simp only [fHi_pack, hiFn_append]; rfl
  · show Instr.amoadd _ _ _ _ = _
    simp only [fA_pack, fB_pack, fX_pack, fHi_pack, hiC_append]

theorem amoand (a : Reg) (b : Reg) (c : Reg) (o : Bool) : Statement (.amoand a b c o) := by
  intro w h
  obtain rfl : pack 28#6 o a b (2#4 ++ c) = w := Option.some.inj h
  refine decode_of (r := .amoand) ?_ ?_
  · rw [row_amo]; unfold decodeAmo; simp only [fHi_pack, hiFn_append]; rfl
  · show Instr.amoand _ _ _ _ = _
    simp only [fA_pack, fB_pack, fX_pack, fHi_pack, hiC_append]

theorem amoor (a : Reg) (b : Reg) (c : Reg) (o : Bool) : Statement (.amoor a b c o) := by
  intro w h
  obtain rfl : pack 28#6 o a b (3#4 ++ c) = w := Option.some.inj h
  refine decode_of (r := .amoor) ?_ ?_
  · rw [row_amo]; unfold decodeAmo; simp only [fHi_pack, hiFn_append]; rfl
  · show Instr.amoor _ _ _ _ = _
    simp only [fA_pack, fB_pack, fX_pack, fHi_pack, hiC_append]

theorem amoxor (a : Reg) (b : Reg) (c : Reg) (o : Bool) : Statement (.amoxor a b c o) := by
  intro w h
  obtain rfl : pack 28#6 o a b (4#4 ++ c) = w := Option.some.inj h
  refine decode_of (r := .amoxor) ?_ ?_
  · rw [row_amo]; unfold decodeAmo; simp only [fHi_pack, hiFn_append]; rfl
  · show Instr.amoxor _ _ _ _ = _
    simp only [fA_pack, fB_pack, fX_pack, fHi_pack, hiC_append]

theorem amomin (a : Reg) (b : Reg) (c : Reg) (o : Bool) : Statement (.amomin a b c o) := by
  intro w h
  obtain rfl : pack 28#6 o a b (5#4 ++ c) = w := Option.some.inj h
  refine decode_of (r := .amomin) ?_ ?_
  · rw [row_amo]; unfold decodeAmo; simp only [fHi_pack, hiFn_append]; rfl
  · show Instr.amomin _ _ _ _ = _
    simp only [fA_pack, fB_pack, fX_pack, fHi_pack, hiC_append]

theorem amomax (a : Reg) (b : Reg) (c : Reg) (o : Bool) : Statement (.amomax a b c o) := by
  intro w h
  obtain rfl : pack 28#6 o a b (6#4 ++ c) = w := Option.some.inj h
  refine decode_of (r := .amomax) ?_ ?_
  · rw [row_amo]; unfold decodeAmo; simp only [fHi_pack, hiFn_append]; rfl
  · show Instr.amomax _ _ _ _ = _
    simp only [fA_pack, fB_pack, fX_pack, fHi_pack, hiC_append]

theorem amominu (a : Reg) (b : Reg) (c : Reg) (o : Bool) : Statement (.amominu a b c o) := by
  intro w h
  obtain rfl : pack 28#6 o a b (7#4 ++ c) = w := Option.some.inj h
  refine decode_of (r := .amominu) ?_ ?_
  · rw [row_amo]; unfold decodeAmo; simp only [fHi_pack, hiFn_append]; rfl
  · show Instr.amominu _ _ _ _ = _
    simp only [fA_pack, fB_pack, fX_pack, fHi_pack, hiC_append]

theorem amomaxu (a : Reg) (b : Reg) (c : Reg) (o : Bool) : Statement (.amomaxu a b c o) := by
  intro w h
  obtain rfl : pack 28#6 o a b (8#4 ++ c) = w := Option.some.inj h
  refine decode_of (r := .amomaxu) ?_ ?_
  · rw [row_amo]; unfold decodeAmo; simp only [fHi_pack, hiFn_append]; rfl
  · show Instr.amomaxu _ _ _ _ = _
    simp only [fA_pack, fB_pack, fX_pack, fHi_pack, hiC_append]

theorem amocas (a : Reg) (b : Reg) (c : Reg) (o : Bool) : Statement (.amocas a b c o) := by
  intro w h
  obtain rfl : pack 28#6 o a b (9#4 ++ c) = w := Option.some.inj h
  refine decode_of (r := .amocas) ?_ ?_
  · rw [row_amo]; unfold decodeAmo; simp only [fHi_pack, hiFn_append]; rfl
  · show Instr.amocas _ _ _ _ = _
    simp only [fA_pack, fB_pack, fX_pack, fHi_pack, hiC_append]

theorem fence (k : BitVec 2) (s : BitVec 3) : Statement (.fence k s) := by
  intro w h
  obtain rfl : pack 29#6 false 0 0 (0#6 ++ k ++ s) = w := Option.some.inj h
  refine decode_of (r := .fence) ?_ ?_
  · rw [row_fence]; unfold decodeFence; simp only [fX_pack, fA_pack, fB_pack, fHi_pack, hiRest_append]; rfl
  · show Instr.fence _ _ = _
    simp only [fHi_pack, hiOrder_append, hiScope_append]

theorem nop  : Statement (.nop) := by
  intro w h
  obtain rfl : pack 0#6 false 0 0 (1#4 ++ 0#7) = w := Option.some.inj h
  refine decode_of (r := .nop) ?_ ?_
  · rw [row_sys]; unfold decodeSys; simp only [fX_pack, fA_pack, fB_pack, fHi_pack, hiFn_append, hiC_append]; rfl
  · rfl

theorem trap (n : BitVec 14) : Statement (.trap n) := by
  intro w h
  obtain rfl : pack 0#6 false 0 (n.extractLsb' 0 7) (2#4 ++ n.extractLsb' 7 7) = w := Option.some.inj h
  refine decode_of (r := .trap) ?_ ?_
  · rw [row_sys]; unfold decodeSys; simp only [fX_pack, fA_pack, fB_pack, fHi_pack, hiFn_append, hiC_append]; rfl
  · show Instr.trap _ = _
    simp only [fB_pack, fHi_pack, cb_split]

theorem eret  : Statement (.eret) := by
  intro w h
  obtain rfl : pack 0#6 false 0 0 (3#4 ++ 0#7) = w := Option.some.inj h
  refine decode_of (r := .eret) ?_ ?_
  · rw [row_sys]; unfold decodeSys; simp only [fX_pack, fA_pack, fB_pack, fHi_pack, hiFn_append, hiC_append]; rfl
  · rfl

theorem brk (n : BitVec 14) : Statement (.brk n) := by
  intro w h
  obtain rfl : pack 0#6 false 0 (n.extractLsb' 0 7) (4#4 ++ n.extractLsb' 7 7) = w := Option.some.inj h
  refine decode_of (r := .brk) ?_ ?_
  · rw [row_sys]; unfold decodeSys; simp only [fX_pack, fA_pack, fB_pack, fHi_pack, hiFn_append, hiC_append]; rfl
  · show Instr.brk _ = _
    simp only [fB_pack, fHi_pack, cb_split]

theorem svc (n : BitVec 14) : Statement (.svc n) := by
  intro w h
  obtain rfl : pack 0#6 false 0 (n.extractLsb' 0 7) (5#4 ++ n.extractLsb' 7 7) = w := Option.some.inj h
  refine decode_of (r := .svc) ?_ ?_
  · rw [row_sys]; unfold decodeSys; simp only [fX_pack, fA_pack, fB_pack, fHi_pack, hiFn_append, hiC_append]; rfl
  · show Instr.svc _ = _
    simp only [fB_pack, fHi_pack, cb_split]

theorem wait (b : Reg) : Statement (.wait b) := by
  intro w h
  obtain rfl : pack 0#6 false 0 b (6#4 ++ 0#7) = w := Option.some.inj h
  refine decode_of (r := .wait) ?_ ?_
  · rw [row_sys]; unfold decodeSys; simp only [fX_pack, fA_pack, fB_pack, fHi_pack, hiFn_append, hiC_append]; rfl
  · show Instr.wait _ = _
    simp only [fB_pack]

theorem yield  : Statement (.yield) := by
  intro w h
  obtain rfl : pack 0#6 false 0 0 (7#4 ++ 0#7) = w := Option.some.inj h
  refine decode_of (r := .yield) ?_ ?_
  · rw [row_sys]; unfold decodeSys; simp only [fX_pack, fA_pack, fB_pack, fHi_pack, hiFn_append, hiC_append]; rfl
  · rfl

theorem srd (a : Reg) (s : BitVec 14) : Statement (.srd a s) := by
  intro w h
  obtain rfl : pack 0#6 false a (s.extractLsb' 0 7) (8#4 ++ s.extractLsb' 7 7) = w := Option.some.inj h
  refine decode_of (r := .srd) ?_ ?_
  · rw [row_sys]; unfold decodeSys; simp only [fX_pack, fA_pack, fB_pack, fHi_pack, hiFn_append, hiC_append]; rfl
  · show Instr.srd _ _ = _
    simp only [fA_pack, fB_pack, fHi_pack, cb_split]

theorem swr (a : Reg) (s : BitVec 14) : Statement (.swr a s) := by
  intro w h
  obtain rfl : pack 0#6 false a (s.extractLsb' 0 7) (9#4 ++ s.extractLsb' 7 7) = w := Option.some.inj h
  refine decode_of (r := .swr) ?_ ?_
  · rw [row_sys]; unfold decodeSys; simp only [fX_pack, fA_pack, fB_pack, fHi_pack, hiFn_append, hiC_append]; rfl
  · show Instr.swr _ _ = _
    simp only [fA_pack, fB_pack, fHi_pack, cb_split]

theorem winb (b : Reg) : Statement (.winb b) := by
  intro w h
  obtain rfl : pack 0#6 false 0 b (10#4 ++ 0#7) = w := Option.some.inj h
  refine decode_of (r := .winb) ?_ ?_
  · rw [row_sys]; unfold decodeSys; simp only [fX_pack, fA_pack, fB_pack, fHi_pack, hiFn_append, hiC_append]; rfl
  · show Instr.winb _ = _
    simp only [fB_pack]

theorem rep (b : Reg) (c : Reg) (f : BitVec 3) : Statement (.rep b c f) := by
  intro w h
  obtain rfl : pack 0#6 false (0#4 ++ f) b (11#4 ++ c) = w := Option.some.inj h
  refine decode_of (r := .rep) ?_ ?_
  · rw [row_sys]; unfold decodeSys; simp only [fX_pack, fA_pack, fB_pack, fHi_pack, hiFn_append, hiC_append, high4_append]; rfl
  · show Instr.rep _ _ _ = _
    simp only [fA_pack, fB_pack, fHi_pack, hiC_append, low3_append]

theorem exit  : Statement (.exit) := by
  intro w h
  obtain rfl : pack 0#6 false 0 0 (12#4 ++ 0#7) = w := Option.some.inj h
  refine decode_of (r := .exit) ?_ ?_
  · rw [row_sys]; unfold decodeSys; simp only [fX_pack, fA_pack, fB_pack, fHi_pack, hiFn_append, hiC_append]; rfl
  · rfl

theorem setvl (a : Reg) (b : Reg) : Statement (.setvl a b) := by
  intro w h
  obtain rfl : pack 32#6 false a b (0#4 ++ 0#7) = w := Option.some.inj h
  refine decode_of (r := .setvl) ?_ ?_
  · rw [row_vcfg]; unfold decodeVcfg; simp only [fX_pack, fB_pack, fHi_pack, hiFn_append, hiC_append]; rfl
  · show Instr.setvl _ _ = _
    simp only [fA_pack, fB_pack]

theorem setvty (a : Reg) (b : Reg) : Statement (.setvty a b) := by
  intro w h
  obtain rfl : pack 32#6 false a b (1#4 ++ 0#7) = w := Option.some.inj h
  refine decode_of (r := .setvty) ?_ ?_
  · rw [row_vcfg]; unfold decodeVcfg; simp only [fX_pack, fB_pack, fHi_pack, hiFn_append, hiC_append]; rfl
  · show Instr.setvty _ _ = _
    simp only [fA_pack, fB_pack]

theorem settl (a : Reg) (b : Reg) : Statement (.settl a b) := by
  intro w h
  obtain rfl : pack 32#6 false a b (2#4 ++ 0#7) = w := Option.some.inj h
  refine decode_of (r := .settl) ?_ ?_
  · rw [row_vcfg]; unfold decodeVcfg; simp only [fX_pack, fB_pack, fHi_pack, hiFn_append, hiC_append]; rfl
  · show Instr.settl _ _ = _
    simp only [fA_pack, fB_pack]

theorem getg (a : Reg) : Statement (.getg a) := by
  intro w h
  obtain rfl : pack 32#6 false a 0 (3#4 ++ 0#7) = w := Option.some.inj h
  refine decode_of (r := .getg) ?_ ?_
  · rw [row_vcfg]; unfold decodeVcfg; simp only [fX_pack, fB_pack, fHi_pack, hiFn_append, hiC_append]; rfl
  · show Instr.getg _ = _
    simp only [fA_pack]

theorem vadd (a : Reg) (b : Reg) (c : Reg) (m : Bool) : Statement (.vadd a b c m) := by
  intro w h
  obtain rfl : pack 33#6 m a b (0#4 ++ c) = w := Option.some.inj h
  refine decode_of (r := .vadd) ?_ ?_
  · rw [row_via]; unfold decodeVia; simp only [fHi_pack, hiFn_append]; rfl
  · show Instr.vadd _ _ _ _ = _
    simp only [fA_pack, fB_pack, fX_pack, fHi_pack, hiC_append]

theorem vsub (a : Reg) (b : Reg) (c : Reg) (m : Bool) : Statement (.vsub a b c m) := by
  intro w h
  obtain rfl : pack 33#6 m a b (1#4 ++ c) = w := Option.some.inj h
  refine decode_of (r := .vsub) ?_ ?_
  · rw [row_via]; unfold decodeVia; simp only [fHi_pack, hiFn_append]; rfl
  · show Instr.vsub _ _ _ _ = _
    simp only [fA_pack, fB_pack, fX_pack, fHi_pack, hiC_append]

theorem vrsub (a : Reg) (b : Reg) (c : Reg) (m : Bool) : Statement (.vrsub a b c m) := by
  intro w h
  obtain rfl : pack 33#6 m a b (2#4 ++ c) = w := Option.some.inj h
  refine decode_of (r := .vrsub) ?_ ?_
  · rw [row_via]; unfold decodeVia; simp only [fHi_pack, hiFn_append]; rfl
  · show Instr.vrsub _ _ _ _ = _
    simp only [fA_pack, fB_pack, fX_pack, fHi_pack, hiC_append]

theorem vmul (a : Reg) (b : Reg) (c : Reg) (m : Bool) : Statement (.vmul a b c m) := by
  intro w h
  obtain rfl : pack 33#6 m a b (3#4 ++ c) = w := Option.some.inj h
  refine decode_of (r := .vmul) ?_ ?_
  · rw [row_via]; unfold decodeVia; simp only [fHi_pack, hiFn_append]; rfl
  · show Instr.vmul _ _ _ _ = _
    simp only [fA_pack, fB_pack, fX_pack, fHi_pack, hiC_append]

theorem vmulh (a : Reg) (b : Reg) (c : Reg) (m : Bool) : Statement (.vmulh a b c m) := by
  intro w h
  obtain rfl : pack 33#6 m a b (4#4 ++ c) = w := Option.some.inj h
  refine decode_of (r := .vmulh) ?_ ?_
  · rw [row_via]; unfold decodeVia; simp only [fHi_pack, hiFn_append]; rfl
  · show Instr.vmulh _ _ _ _ = _
    simp only [fA_pack, fB_pack, fX_pack, fHi_pack, hiC_append]

theorem vmulhu (a : Reg) (b : Reg) (c : Reg) (m : Bool) : Statement (.vmulhu a b c m) := by
  intro w h
  obtain rfl : pack 33#6 m a b (5#4 ++ c) = w := Option.some.inj h
  refine decode_of (r := .vmulhu) ?_ ?_
  · rw [row_via]; unfold decodeVia; simp only [fHi_pack, hiFn_append]; rfl
  · show Instr.vmulhu _ _ _ _ = _
    simp only [fA_pack, fB_pack, fX_pack, fHi_pack, hiC_append]

theorem vmacc (a : Reg) (b : Reg) (c : Reg) (m : Bool) : Statement (.vmacc a b c m) := by
  intro w h
  obtain rfl : pack 33#6 m a b (6#4 ++ c) = w := Option.some.inj h
  refine decode_of (r := .vmacc) ?_ ?_
  · rw [row_via]; unfold decodeVia; simp only [fHi_pack, hiFn_append]; rfl
  · show Instr.vmacc _ _ _ _ = _
    simp only [fA_pack, fB_pack, fX_pack, fHi_pack, hiC_append]

theorem vnmsac (a : Reg) (b : Reg) (c : Reg) (m : Bool) : Statement (.vnmsac a b c m) := by
  intro w h
  obtain rfl : pack 33#6 m a b (7#4 ++ c) = w := Option.some.inj h
  refine decode_of (r := .vnmsac) ?_ ?_
  · rw [row_via]; unfold decodeVia; simp only [fHi_pack, hiFn_append]; rfl
  · show Instr.vnmsac _ _ _ _ = _
    simp only [fA_pack, fB_pack, fX_pack, fHi_pack, hiC_append]

theorem vdiv (a : Reg) (b : Reg) (c : Reg) (m : Bool) : Statement (.vdiv a b c m) := by
  intro w h
  obtain rfl : pack 33#6 m a b (8#4 ++ c) = w := Option.some.inj h
  refine decode_of (r := .vdiv) ?_ ?_
  · rw [row_via]; unfold decodeVia; simp only [fHi_pack, hiFn_append]; rfl
  · show Instr.vdiv _ _ _ _ = _
    simp only [fA_pack, fB_pack, fX_pack, fHi_pack, hiC_append]

theorem vdivu (a : Reg) (b : Reg) (c : Reg) (m : Bool) : Statement (.vdivu a b c m) := by
  intro w h
  obtain rfl : pack 33#6 m a b (9#4 ++ c) = w := Option.some.inj h
  refine decode_of (r := .vdivu) ?_ ?_
  · rw [row_via]; unfold decodeVia; simp only [fHi_pack, hiFn_append]; rfl
  · show Instr.vdivu _ _ _ _ = _
    simp only [fA_pack, fB_pack, fX_pack, fHi_pack, hiC_append]

theorem vrem (a : Reg) (b : Reg) (c : Reg) (m : Bool) : Statement (.vrem a b c m) := by
  intro w h
  obtain rfl : pack 33#6 m a b (10#4 ++ c) = w := Option.some.inj h
  refine decode_of (r := .vrem) ?_ ?_
  · rw [row_via]; unfold decodeVia; simp only [fHi_pack, hiFn_append]; rfl
  · show Instr.vrem _ _ _ _ = _
    simp only [fA_pack, fB_pack, fX_pack, fHi_pack, hiC_append]

theorem vremu (a : Reg) (b : Reg) (c : Reg) (m : Bool) : Statement (.vremu a b c m) := by
  intro w h
  obtain rfl : pack 33#6 m a b (11#4 ++ c) = w := Option.some.inj h
  refine decode_of (r := .vremu) ?_ ?_
  · rw [row_via]; unfold decodeVia; simp only [fHi_pack, hiFn_append]; rfl
  · show Instr.vremu _ _ _ _ = _
    simp only [fA_pack, fB_pack, fX_pack, fHi_pack, hiC_append]

theorem vsadd (a : Reg) (b : Reg) (c : Reg) (m : Bool) : Statement (.vsadd a b c m) := by
  intro w h
  obtain rfl : pack 33#6 m a b (12#4 ++ c) = w := Option.some.inj h
  refine decode_of (r := .vsadd) ?_ ?_
  · rw [row_via]; unfold decodeVia; simp only [fHi_pack, hiFn_append]; rfl
  · show Instr.vsadd _ _ _ _ = _
    simp only [fA_pack, fB_pack, fX_pack, fHi_pack, hiC_append]

theorem vssub (a : Reg) (b : Reg) (c : Reg) (m : Bool) : Statement (.vssub a b c m) := by
  intro w h
  obtain rfl : pack 33#6 m a b (13#4 ++ c) = w := Option.some.inj h
  refine decode_of (r := .vssub) ?_ ?_
  · rw [row_via]; unfold decodeVia; simp only [fHi_pack, hiFn_append]; rfl
  · show Instr.vssub _ _ _ _ = _
    simp only [fA_pack, fB_pack, fX_pack, fHi_pack, hiC_append]

theorem vabsd (a : Reg) (b : Reg) (c : Reg) (m : Bool) : Statement (.vabsd a b c m) := by
  intro w h
  obtain rfl : pack 33#6 m a b (14#4 ++ c) = w := Option.some.inj h
  refine decode_of (r := .vabsd) ?_ ?_
  · rw [row_via]; unfold decodeVia; simp only [fHi_pack, hiFn_append]; rfl
  · show Instr.vabsd _ _ _ _ = _
    simp only [fA_pack, fB_pack, fX_pack, fHi_pack, hiC_append]

theorem vaddS (a : Reg) (b : Reg) (c : Reg) (m : Bool) : Statement (.vaddS a b c m) := by
  intro w h
  obtain rfl : pack 34#6 m a b (0#4 ++ c) = w := Option.some.inj h
  refine decode_of (r := .vaddS) ?_ ?_
  · rw [row_vias]; unfold decodeVias; simp only [fHi_pack, hiFn_append]; rfl
  · show Instr.vaddS _ _ _ _ = _
    simp only [fA_pack, fB_pack, fX_pack, fHi_pack, hiC_append]

theorem vsubS (a : Reg) (b : Reg) (c : Reg) (m : Bool) : Statement (.vsubS a b c m) := by
  intro w h
  obtain rfl : pack 34#6 m a b (1#4 ++ c) = w := Option.some.inj h
  refine decode_of (r := .vsubS) ?_ ?_
  · rw [row_vias]; unfold decodeVias; simp only [fHi_pack, hiFn_append]; rfl
  · show Instr.vsubS _ _ _ _ = _
    simp only [fA_pack, fB_pack, fX_pack, fHi_pack, hiC_append]

theorem vrsubS (a : Reg) (b : Reg) (c : Reg) (m : Bool) : Statement (.vrsubS a b c m) := by
  intro w h
  obtain rfl : pack 34#6 m a b (2#4 ++ c) = w := Option.some.inj h
  refine decode_of (r := .vrsubS) ?_ ?_
  · rw [row_vias]; unfold decodeVias; simp only [fHi_pack, hiFn_append]; rfl
  · show Instr.vrsubS _ _ _ _ = _
    simp only [fA_pack, fB_pack, fX_pack, fHi_pack, hiC_append]

theorem vmulS (a : Reg) (b : Reg) (c : Reg) (m : Bool) : Statement (.vmulS a b c m) := by
  intro w h
  obtain rfl : pack 34#6 m a b (3#4 ++ c) = w := Option.some.inj h
  refine decode_of (r := .vmulS) ?_ ?_
  · rw [row_vias]; unfold decodeVias; simp only [fHi_pack, hiFn_append]; rfl
  · show Instr.vmulS _ _ _ _ = _
    simp only [fA_pack, fB_pack, fX_pack, fHi_pack, hiC_append]

theorem vmulhS (a : Reg) (b : Reg) (c : Reg) (m : Bool) : Statement (.vmulhS a b c m) := by
  intro w h
  obtain rfl : pack 34#6 m a b (4#4 ++ c) = w := Option.some.inj h
  refine decode_of (r := .vmulhS) ?_ ?_
  · rw [row_vias]; unfold decodeVias; simp only [fHi_pack, hiFn_append]; rfl
  · show Instr.vmulhS _ _ _ _ = _
    simp only [fA_pack, fB_pack, fX_pack, fHi_pack, hiC_append]

theorem vmulhuS (a : Reg) (b : Reg) (c : Reg) (m : Bool) : Statement (.vmulhuS a b c m) := by
  intro w h
  obtain rfl : pack 34#6 m a b (5#4 ++ c) = w := Option.some.inj h
  refine decode_of (r := .vmulhuS) ?_ ?_
  · rw [row_vias]; unfold decodeVias; simp only [fHi_pack, hiFn_append]; rfl
  · show Instr.vmulhuS _ _ _ _ = _
    simp only [fA_pack, fB_pack, fX_pack, fHi_pack, hiC_append]

theorem vmaccS (a : Reg) (b : Reg) (c : Reg) (m : Bool) : Statement (.vmaccS a b c m) := by
  intro w h
  obtain rfl : pack 34#6 m a b (6#4 ++ c) = w := Option.some.inj h
  refine decode_of (r := .vmaccS) ?_ ?_
  · rw [row_vias]; unfold decodeVias; simp only [fHi_pack, hiFn_append]; rfl
  · show Instr.vmaccS _ _ _ _ = _
    simp only [fA_pack, fB_pack, fX_pack, fHi_pack, hiC_append]

theorem vnmsacS (a : Reg) (b : Reg) (c : Reg) (m : Bool) : Statement (.vnmsacS a b c m) := by
  intro w h
  obtain rfl : pack 34#6 m a b (7#4 ++ c) = w := Option.some.inj h
  refine decode_of (r := .vnmsacS) ?_ ?_
  · rw [row_vias]; unfold decodeVias; simp only [fHi_pack, hiFn_append]; rfl
  · show Instr.vnmsacS _ _ _ _ = _
    simp only [fA_pack, fB_pack, fX_pack, fHi_pack, hiC_append]

theorem vdivS (a : Reg) (b : Reg) (c : Reg) (m : Bool) : Statement (.vdivS a b c m) := by
  intro w h
  obtain rfl : pack 34#6 m a b (8#4 ++ c) = w := Option.some.inj h
  refine decode_of (r := .vdivS) ?_ ?_
  · rw [row_vias]; unfold decodeVias; simp only [fHi_pack, hiFn_append]; rfl
  · show Instr.vdivS _ _ _ _ = _
    simp only [fA_pack, fB_pack, fX_pack, fHi_pack, hiC_append]

theorem vdivuS (a : Reg) (b : Reg) (c : Reg) (m : Bool) : Statement (.vdivuS a b c m) := by
  intro w h
  obtain rfl : pack 34#6 m a b (9#4 ++ c) = w := Option.some.inj h
  refine decode_of (r := .vdivuS) ?_ ?_
  · rw [row_vias]; unfold decodeVias; simp only [fHi_pack, hiFn_append]; rfl
  · show Instr.vdivuS _ _ _ _ = _
    simp only [fA_pack, fB_pack, fX_pack, fHi_pack, hiC_append]

theorem vremS (a : Reg) (b : Reg) (c : Reg) (m : Bool) : Statement (.vremS a b c m) := by
  intro w h
  obtain rfl : pack 34#6 m a b (10#4 ++ c) = w := Option.some.inj h
  refine decode_of (r := .vremS) ?_ ?_
  · rw [row_vias]; unfold decodeVias; simp only [fHi_pack, hiFn_append]; rfl
  · show Instr.vremS _ _ _ _ = _
    simp only [fA_pack, fB_pack, fX_pack, fHi_pack, hiC_append]

theorem vremuS (a : Reg) (b : Reg) (c : Reg) (m : Bool) : Statement (.vremuS a b c m) := by
  intro w h
  obtain rfl : pack 34#6 m a b (11#4 ++ c) = w := Option.some.inj h
  refine decode_of (r := .vremuS) ?_ ?_
  · rw [row_vias]; unfold decodeVias; simp only [fHi_pack, hiFn_append]; rfl
  · show Instr.vremuS _ _ _ _ = _
    simp only [fA_pack, fB_pack, fX_pack, fHi_pack, hiC_append]

theorem vsaddS (a : Reg) (b : Reg) (c : Reg) (m : Bool) : Statement (.vsaddS a b c m) := by
  intro w h
  obtain rfl : pack 34#6 m a b (12#4 ++ c) = w := Option.some.inj h
  refine decode_of (r := .vsaddS) ?_ ?_
  · rw [row_vias]; unfold decodeVias; simp only [fHi_pack, hiFn_append]; rfl
  · show Instr.vsaddS _ _ _ _ = _
    simp only [fA_pack, fB_pack, fX_pack, fHi_pack, hiC_append]

theorem vssubS (a : Reg) (b : Reg) (c : Reg) (m : Bool) : Statement (.vssubS a b c m) := by
  intro w h
  obtain rfl : pack 34#6 m a b (13#4 ++ c) = w := Option.some.inj h
  refine decode_of (r := .vssubS) ?_ ?_
  · rw [row_vias]; unfold decodeVias; simp only [fHi_pack, hiFn_append]; rfl
  · show Instr.vssubS _ _ _ _ = _
    simp only [fA_pack, fB_pack, fX_pack, fHi_pack, hiC_append]

theorem vabsdS (a : Reg) (b : Reg) (c : Reg) (m : Bool) : Statement (.vabsdS a b c m) := by
  intro w h
  obtain rfl : pack 34#6 m a b (14#4 ++ c) = w := Option.some.inj h
  refine decode_of (r := .vabsdS) ?_ ?_
  · rw [row_vias]; unfold decodeVias; simp only [fHi_pack, hiFn_append]; rfl
  · show Instr.vabsdS _ _ _ _ = _
    simp only [fA_pack, fB_pack, fX_pack, fHi_pack, hiC_append]

theorem vand (a : Reg) (b : Reg) (c : Reg) (m : Bool) : Statement (.vand a b c m) := by
  intro w h
  obtain rfl : pack 35#6 m a b (0#4 ++ c) = w := Option.some.inj h
  refine decode_of (r := .vand) ?_ ?_
  · rw [row_vib]; unfold decodeVib; simp only [fX_pack, fB_pack, fHi_pack, hiFn_append]; rfl
  · show Instr.vand _ _ _ _ = _
    simp only [fA_pack, fB_pack, fX_pack, fHi_pack, hiC_append]

theorem vor (a : Reg) (b : Reg) (c : Reg) (m : Bool) : Statement (.vor a b c m) := by
  intro w h
  obtain rfl : pack 35#6 m a b (1#4 ++ c) = w := Option.some.inj h
  refine decode_of (r := .vor) ?_ ?_
  · rw [row_vib]; unfold decodeVib; simp only [fX_pack, fB_pack, fHi_pack, hiFn_append]; rfl
  · show Instr.vor _ _ _ _ = _
    simp only [fA_pack, fB_pack, fX_pack, fHi_pack, hiC_append]

theorem vxor (a : Reg) (b : Reg) (c : Reg) (m : Bool) : Statement (.vxor a b c m) := by
  intro w h
  obtain rfl : pack 35#6 m a b (2#4 ++ c) = w := Option.some.inj h
  refine decode_of (r := .vxor) ?_ ?_
  · rw [row_vib]; unfold decodeVib; simp only [fX_pack, fB_pack, fHi_pack, hiFn_append]; rfl
  · show Instr.vxor _ _ _ _ = _
    simp only [fA_pack, fB_pack, fX_pack, fHi_pack, hiC_append]

theorem vandn (a : Reg) (b : Reg) (c : Reg) (m : Bool) : Statement (.vandn a b c m) := by
  intro w h
  obtain rfl : pack 35#6 m a b (3#4 ++ c) = w := Option.some.inj h
  refine decode_of (r := .vandn) ?_ ?_
  · rw [row_vib]; unfold decodeVib; simp only [fX_pack, fB_pack, fHi_pack, hiFn_append]; rfl
  · show Instr.vandn _ _ _ _ = _
    simp only [fA_pack, fB_pack, fX_pack, fHi_pack, hiC_append]

theorem vshl (a : Reg) (b : Reg) (c : Reg) (m : Bool) : Statement (.vshl a b c m) := by
  intro w h
  obtain rfl : pack 35#6 m a b (4#4 ++ c) = w := Option.some.inj h
  refine decode_of (r := .vshl) ?_ ?_
  · rw [row_vib]; unfold decodeVib; simp only [fX_pack, fB_pack, fHi_pack, hiFn_append]; rfl
  · show Instr.vshl _ _ _ _ = _
    simp only [fA_pack, fB_pack, fX_pack, fHi_pack, hiC_append]

theorem vshr (a : Reg) (b : Reg) (c : Reg) (m : Bool) : Statement (.vshr a b c m) := by
  intro w h
  obtain rfl : pack 35#6 m a b (5#4 ++ c) = w := Option.some.inj h
  refine decode_of (r := .vshr) ?_ ?_
  · rw [row_vib]; unfold decodeVib; simp only [fX_pack, fB_pack, fHi_pack, hiFn_append]; rfl
  · show Instr.vshr _ _ _ _ = _
    simp only [fA_pack, fB_pack, fX_pack, fHi_pack, hiC_append]

theorem vsra (a : Reg) (b : Reg) (c : Reg) (m : Bool) : Statement (.vsra a b c m) := by
  intro w h
  obtain rfl : pack 35#6 m a b (6#4 ++ c) = w := Option.some.inj h
  refine decode_of (r := .vsra) ?_ ?_
  · rw [row_vib]; unfold decodeVib; simp only [fX_pack, fB_pack, fHi_pack, hiFn_append]; rfl
  · show Instr.vsra _ _ _ _ = _
    simp only [fA_pack, fB_pack, fX_pack, fHi_pack, hiC_append]

theorem vmin (a : Reg) (b : Reg) (c : Reg) (m : Bool) : Statement (.vmin a b c m) := by
  intro w h
  obtain rfl : pack 35#6 m a b (7#4 ++ c) = w := Option.some.inj h
  refine decode_of (r := .vmin) ?_ ?_
  · rw [row_vib]; unfold decodeVib; simp only [fX_pack, fB_pack, fHi_pack, hiFn_append]; rfl
  · show Instr.vmin _ _ _ _ = _
    simp only [fA_pack, fB_pack, fX_pack, fHi_pack, hiC_append]

theorem vmax (a : Reg) (b : Reg) (c : Reg) (m : Bool) : Statement (.vmax a b c m) := by
  intro w h
  obtain rfl : pack 35#6 m a b (8#4 ++ c) = w := Option.some.inj h
  refine decode_of (r := .vmax) ?_ ?_
  · rw [row_vib]; unfold decodeVib; simp only [fX_pack, fB_pack, fHi_pack, hiFn_append]; rfl
  · show Instr.vmax _ _ _ _ = _
    simp only [fA_pack, fB_pack, fX_pack, fHi_pack, hiC_append]

theorem vminu (a : Reg) (b : Reg) (c : Reg) (m : Bool) : Statement (.vminu a b c m) := by
  intro w h
  obtain rfl : pack 35#6 m a b (9#4 ++ c) = w := Option.some.inj h
  refine decode_of (r := .vminu) ?_ ?_
  · rw [row_vib]; unfold decodeVib; simp only [fX_pack, fB_pack, fHi_pack, hiFn_append]; rfl
  · show Instr.vminu _ _ _ _ = _
    simp only [fA_pack, fB_pack, fX_pack, fHi_pack, hiC_append]

theorem vmaxu (a : Reg) (b : Reg) (c : Reg) (m : Bool) : Statement (.vmaxu a b c m) := by
  intro w h
  obtain rfl : pack 35#6 m a b (10#4 ++ c) = w := Option.some.inj h
  refine decode_of (r := .vmaxu) ?_ ?_
  · rw [row_vib]; unfold decodeVib; simp only [fX_pack, fB_pack, fHi_pack, hiFn_append]; rfl
  · show Instr.vmaxu _ _ _ _ = _
    simp only [fA_pack, fB_pack, fX_pack, fHi_pack, hiC_append]

theorem vsel (a : Reg) (b : Reg) (c : Reg) : Statement (.vsel a b c) := by
  intro w h
  obtain rfl : pack 35#6 false a b (11#4 ++ c) = w := Option.some.inj h
  refine decode_of (r := .vsel) ?_ ?_
  · rw [row_vib]; unfold decodeVib; simp only [fX_pack, fB_pack, fHi_pack, hiFn_append]; rfl
  · show Instr.vsel _ _ _ = _
    simp only [fA_pack, fB_pack, fHi_pack, hiC_append]

theorem vmov (a : Reg) (c : Reg) (m : Bool) : Statement (.vmov a c m) := by
  intro w h
  obtain rfl : pack 35#6 m a 0 (12#4 ++ c) = w := Option.some.inj h
  refine decode_of (r := .vmov) ?_ ?_
  · rw [row_vib]; unfold decodeVib; simp only [fX_pack, fB_pack, fHi_pack, hiFn_append]; rfl
  · show Instr.vmov _ _ _ = _
    simp only [fA_pack, fX_pack, fHi_pack, hiC_append]

theorem vandS (a : Reg) (b : Reg) (c : Reg) (m : Bool) : Statement (.vandS a b c m) := by
  intro w h
  obtain rfl : pack 36#6 m a b (0#4 ++ c) = w := Option.some.inj h
  refine decode_of (r := .vandS) ?_ ?_
  · rw [row_vibs]; unfold decodeVibs; simp only [fX_pack, fB_pack, fHi_pack, hiFn_append]; rfl
  · show Instr.vandS _ _ _ _ = _
    simp only [fA_pack, fB_pack, fX_pack, fHi_pack, hiC_append]

theorem vorS (a : Reg) (b : Reg) (c : Reg) (m : Bool) : Statement (.vorS a b c m) := by
  intro w h
  obtain rfl : pack 36#6 m a b (1#4 ++ c) = w := Option.some.inj h
  refine decode_of (r := .vorS) ?_ ?_
  · rw [row_vibs]; unfold decodeVibs; simp only [fX_pack, fB_pack, fHi_pack, hiFn_append]; rfl
  · show Instr.vorS _ _ _ _ = _
    simp only [fA_pack, fB_pack, fX_pack, fHi_pack, hiC_append]

theorem vxorS (a : Reg) (b : Reg) (c : Reg) (m : Bool) : Statement (.vxorS a b c m) := by
  intro w h
  obtain rfl : pack 36#6 m a b (2#4 ++ c) = w := Option.some.inj h
  refine decode_of (r := .vxorS) ?_ ?_
  · rw [row_vibs]; unfold decodeVibs; simp only [fX_pack, fB_pack, fHi_pack, hiFn_append]; rfl
  · show Instr.vxorS _ _ _ _ = _
    simp only [fA_pack, fB_pack, fX_pack, fHi_pack, hiC_append]

theorem vandnS (a : Reg) (b : Reg) (c : Reg) (m : Bool) : Statement (.vandnS a b c m) := by
  intro w h
  obtain rfl : pack 36#6 m a b (3#4 ++ c) = w := Option.some.inj h
  refine decode_of (r := .vandnS) ?_ ?_
  · rw [row_vibs]; unfold decodeVibs; simp only [fX_pack, fB_pack, fHi_pack, hiFn_append]; rfl
  · show Instr.vandnS _ _ _ _ = _
    simp only [fA_pack, fB_pack, fX_pack, fHi_pack, hiC_append]

theorem vshlS (a : Reg) (b : Reg) (c : Reg) (m : Bool) : Statement (.vshlS a b c m) := by
  intro w h
  obtain rfl : pack 36#6 m a b (4#4 ++ c) = w := Option.some.inj h
  refine decode_of (r := .vshlS) ?_ ?_
  · rw [row_vibs]; unfold decodeVibs; simp only [fX_pack, fB_pack, fHi_pack, hiFn_append]; rfl
  · show Instr.vshlS _ _ _ _ = _
    simp only [fA_pack, fB_pack, fX_pack, fHi_pack, hiC_append]

theorem vshrS (a : Reg) (b : Reg) (c : Reg) (m : Bool) : Statement (.vshrS a b c m) := by
  intro w h
  obtain rfl : pack 36#6 m a b (5#4 ++ c) = w := Option.some.inj h
  refine decode_of (r := .vshrS) ?_ ?_
  · rw [row_vibs]; unfold decodeVibs; simp only [fX_pack, fB_pack, fHi_pack, hiFn_append]; rfl
  · show Instr.vshrS _ _ _ _ = _
    simp only [fA_pack, fB_pack, fX_pack, fHi_pack, hiC_append]

theorem vsraS (a : Reg) (b : Reg) (c : Reg) (m : Bool) : Statement (.vsraS a b c m) := by
  intro w h
  obtain rfl : pack 36#6 m a b (6#4 ++ c) = w := Option.some.inj h
  refine decode_of (r := .vsraS) ?_ ?_
  · rw [row_vibs]; unfold decodeVibs; simp only [fX_pack, fB_pack, fHi_pack, hiFn_append]; rfl
  · show Instr.vsraS _ _ _ _ = _
    simp only [fA_pack, fB_pack, fX_pack, fHi_pack, hiC_append]

theorem vminS (a : Reg) (b : Reg) (c : Reg) (m : Bool) : Statement (.vminS a b c m) := by
  intro w h
  obtain rfl : pack 36#6 m a b (7#4 ++ c) = w := Option.some.inj h
  refine decode_of (r := .vminS) ?_ ?_
  · rw [row_vibs]; unfold decodeVibs; simp only [fX_pack, fB_pack, fHi_pack, hiFn_append]; rfl
  · show Instr.vminS _ _ _ _ = _
    simp only [fA_pack, fB_pack, fX_pack, fHi_pack, hiC_append]

theorem vmaxS (a : Reg) (b : Reg) (c : Reg) (m : Bool) : Statement (.vmaxS a b c m) := by
  intro w h
  obtain rfl : pack 36#6 m a b (8#4 ++ c) = w := Option.some.inj h
  refine decode_of (r := .vmaxS) ?_ ?_
  · rw [row_vibs]; unfold decodeVibs; simp only [fX_pack, fB_pack, fHi_pack, hiFn_append]; rfl
  · show Instr.vmaxS _ _ _ _ = _
    simp only [fA_pack, fB_pack, fX_pack, fHi_pack, hiC_append]

theorem vminuS (a : Reg) (b : Reg) (c : Reg) (m : Bool) : Statement (.vminuS a b c m) := by
  intro w h
  obtain rfl : pack 36#6 m a b (9#4 ++ c) = w := Option.some.inj h
  refine decode_of (r := .vminuS) ?_ ?_
  · rw [row_vibs]; unfold decodeVibs; simp only [fX_pack, fB_pack, fHi_pack, hiFn_append]; rfl
  · show Instr.vminuS _ _ _ _ = _
    simp only [fA_pack, fB_pack, fX_pack, fHi_pack, hiC_append]

theorem vmaxuS (a : Reg) (b : Reg) (c : Reg) (m : Bool) : Statement (.vmaxuS a b c m) := by
  intro w h
  obtain rfl : pack 36#6 m a b (10#4 ++ c) = w := Option.some.inj h
  refine decode_of (r := .vmaxuS) ?_ ?_
  · rw [row_vibs]; unfold decodeVibs; simp only [fX_pack, fB_pack, fHi_pack, hiFn_append]; rfl
  · show Instr.vmaxuS _ _ _ _ = _
    simp only [fA_pack, fB_pack, fX_pack, fHi_pack, hiC_append]

theorem vselS (a : Reg) (b : Reg) (c : Reg) : Statement (.vselS a b c) := by
  intro w h
  obtain rfl : pack 36#6 false a b (11#4 ++ c) = w := Option.some.inj h
  refine decode_of (r := .vselS) ?_ ?_
  · rw [row_vibs]; unfold decodeVibs; simp only [fX_pack, fB_pack, fHi_pack, hiFn_append]; rfl
  · show Instr.vselS _ _ _ = _
    simp only [fA_pack, fB_pack, fHi_pack, hiC_append]

theorem vmovS (a : Reg) (c : Reg) (m : Bool) : Statement (.vmovS a c m) := by
  intro w h
  obtain rfl : pack 36#6 m a 0 (12#4 ++ c) = w := Option.some.inj h
  refine decode_of (r := .vmovS) ?_ ?_
  · rw [row_vibs]; unfold decodeVibs; simp only [fX_pack, fB_pack, fHi_pack, hiFn_append]; rfl
  · show Instr.vmovS _ _ _ = _
    simp only [fA_pack, fX_pack, fHi_pack, hiC_append]

theorem vaddi (a : Reg) (b : Reg) (i : BitVec 8) (m : Bool) : Statement (.vaddi a b i m) := by
  intro w h
  obtain rfl : pack 47#6 m a b (0#3 ++ i) = w := Option.some.inj h
  refine decode_of (r := .vaddi) ?_ ?_
  · rw [row_vimm]; unfold decodeVimm; simp only [fB_pack, fHi_pack, hiFn3_append]; rfl
  · show Instr.vaddi _ _ _ _ = _
    simp only [fA_pack, fB_pack, fX_pack, fHi_pack, hiLow8_append]

theorem vmuli (a : Reg) (b : Reg) (i : BitVec 8) (m : Bool) : Statement (.vmuli a b i m) := by
  intro w h
  obtain rfl : pack 47#6 m a b (1#3 ++ i) = w := Option.some.inj h
  refine decode_of (r := .vmuli) ?_ ?_
  · rw [row_vimm]; unfold decodeVimm; simp only [fB_pack, fHi_pack, hiFn3_append]; rfl
  · show Instr.vmuli _ _ _ _ = _
    simp only [fA_pack, fB_pack, fX_pack, fHi_pack, hiLow8_append]

theorem vshli (a : Reg) (b : Reg) (i : BitVec 8) (m : Bool) : Statement (.vshli a b i m) := by
  intro w h
  obtain rfl : pack 47#6 m a b (2#3 ++ i) = w := Option.some.inj h
  refine decode_of (r := .vshli) ?_ ?_
  · rw [row_vimm]; unfold decodeVimm; simp only [fB_pack, fHi_pack, hiFn3_append]; rfl
  · show Instr.vshli _ _ _ _ = _
    simp only [fA_pack, fB_pack, fX_pack, fHi_pack, hiLow8_append]

theorem vshri (a : Reg) (b : Reg) (i : BitVec 8) (m : Bool) : Statement (.vshri a b i m) := by
  intro w h
  obtain rfl : pack 47#6 m a b (3#3 ++ i) = w := Option.some.inj h
  refine decode_of (r := .vshri) ?_ ?_
  · rw [row_vimm]; unfold decodeVimm; simp only [fB_pack, fHi_pack, hiFn3_append]; rfl
  · show Instr.vshri _ _ _ _ = _
    simp only [fA_pack, fB_pack, fX_pack, fHi_pack, hiLow8_append]

theorem vsrai (a : Reg) (b : Reg) (i : BitVec 8) (m : Bool) : Statement (.vsrai a b i m) := by
  intro w h
  obtain rfl : pack 47#6 m a b (4#3 ++ i) = w := Option.some.inj h
  refine decode_of (r := .vsrai) ?_ ?_
  · rw [row_vimm]; unfold decodeVimm; simp only [fB_pack, fHi_pack, hiFn3_append]; rfl
  · show Instr.vsrai _ _ _ _ = _
    simp only [fA_pack, fB_pack, fX_pack, fHi_pack, hiLow8_append]

theorem vandi (a : Reg) (b : Reg) (i : BitVec 8) (m : Bool) : Statement (.vandi a b i m) := by
  intro w h
  obtain rfl : pack 47#6 m a b (5#3 ++ i) = w := Option.some.inj h
  refine decode_of (r := .vandi) ?_ ?_
  · rw [row_vimm]; unfold decodeVimm; simp only [fB_pack, fHi_pack, hiFn3_append]; rfl
  · show Instr.vandi _ _ _ _ = _
    simp only [fA_pack, fB_pack, fX_pack, fHi_pack, hiLow8_append]

theorem vori (a : Reg) (b : Reg) (i : BitVec 8) (m : Bool) : Statement (.vori a b i m) := by
  intro w h
  obtain rfl : pack 47#6 m a b (6#3 ++ i) = w := Option.some.inj h
  refine decode_of (r := .vori) ?_ ?_
  · rw [row_vimm]; unfold decodeVimm; simp only [fB_pack, fHi_pack, hiFn3_append]; rfl
  · show Instr.vori _ _ _ _ = _
    simp only [fA_pack, fB_pack, fX_pack, fHi_pack, hiLow8_append]

theorem vli (a : Reg) (i : BitVec 8) (m : Bool) : Statement (.vli a i m) := by
  intro w h
  obtain rfl : pack 47#6 m a 0 (7#3 ++ i) = w := Option.some.inj h
  refine decode_of (r := .vli) ?_ ?_
  · rw [row_vimm]; unfold decodeVimm; simp only [fB_pack, fHi_pack, hiFn3_append]; rfl
  · show Instr.vli _ _ _ = _
    simp only [fA_pack, fX_pack, fHi_pack, hiLow8_append]

theorem vfadd (a : Reg) (b : Reg) (c : Reg) (m : Bool) : Statement (.vfadd a b c m) := by
  intro w h
  obtain rfl : pack 37#6 m a b (0#4 ++ c) = w := Option.some.inj h
  refine decode_of (r := .vfadd) ?_ ?_
  · rw [row_vfa]; unfold decodeVfa; simp only [fHi_pack, hiFn_append]; rfl
  · show Instr.vfadd _ _ _ _ = _
    simp only [fA_pack, fB_pack, fX_pack, fHi_pack, hiC_append]

theorem vfsub (a : Reg) (b : Reg) (c : Reg) (m : Bool) : Statement (.vfsub a b c m) := by
  intro w h
  obtain rfl : pack 37#6 m a b (1#4 ++ c) = w := Option.some.inj h
  refine decode_of (r := .vfsub) ?_ ?_
  · rw [row_vfa]; unfold decodeVfa; simp only [fHi_pack, hiFn_append]; rfl
  · show Instr.vfsub _ _ _ _ = _
    simp only [fA_pack, fB_pack, fX_pack, fHi_pack, hiC_append]

theorem vfmul (a : Reg) (b : Reg) (c : Reg) (m : Bool) : Statement (.vfmul a b c m) := by
  intro w h
  obtain rfl : pack 37#6 m a b (2#4 ++ c) = w := Option.some.inj h
  refine decode_of (r := .vfmul) ?_ ?_
  · rw [row_vfa]; unfold decodeVfa; simp only [fHi_pack, hiFn_append]; rfl
  · show Instr.vfmul _ _ _ _ = _
    simp only [fA_pack, fB_pack, fX_pack, fHi_pack, hiC_append]

theorem vfma (a : Reg) (b : Reg) (c : Reg) (m : Bool) : Statement (.vfma a b c m) := by
  intro w h
  obtain rfl : pack 37#6 m a b (3#4 ++ c) = w := Option.some.inj h
  refine decode_of (r := .vfma) ?_ ?_
  · rw [row_vfa]; unfold decodeVfa; simp only [fHi_pack, hiFn_append]; rfl
  · show Instr.vfma _ _ _ _ = _
    simp only [fA_pack, fB_pack, fX_pack, fHi_pack, hiC_append]

theorem vfms (a : Reg) (b : Reg) (c : Reg) (m : Bool) : Statement (.vfms a b c m) := by
  intro w h
  obtain rfl : pack 37#6 m a b (4#4 ++ c) = w := Option.some.inj h
  refine decode_of (r := .vfms) ?_ ?_
  · rw [row_vfa]; unfold decodeVfa; simp only [fHi_pack, hiFn_append]; rfl
  · show Instr.vfms _ _ _ _ = _
    simp only [fA_pack, fB_pack, fX_pack, fHi_pack, hiC_append]

theorem vfnma (a : Reg) (b : Reg) (c : Reg) (m : Bool) : Statement (.vfnma a b c m) := by
  intro w h
  obtain rfl : pack 37#6 m a b (5#4 ++ c) = w := Option.some.inj h
  refine decode_of (r := .vfnma) ?_ ?_
  · rw [row_vfa]; unfold decodeVfa; simp only [fHi_pack, hiFn_append]; rfl
  · show Instr.vfnma _ _ _ _ = _
    simp only [fA_pack, fB_pack, fX_pack, fHi_pack, hiC_append]

theorem vfdiv (a : Reg) (b : Reg) (c : Reg) (m : Bool) : Statement (.vfdiv a b c m) := by
  intro w h
  obtain rfl : pack 37#6 m a b (6#4 ++ c) = w := Option.some.inj h
  refine decode_of (r := .vfdiv) ?_ ?_
  · rw [row_vfa]; unfold decodeVfa; simp only [fHi_pack, hiFn_append]; rfl
  · show Instr.vfdiv _ _ _ _ = _
    simp only [fA_pack, fB_pack, fX_pack, fHi_pack, hiC_append]

theorem vfmin (a : Reg) (b : Reg) (c : Reg) (m : Bool) : Statement (.vfmin a b c m) := by
  intro w h
  obtain rfl : pack 37#6 m a b (7#4 ++ c) = w := Option.some.inj h
  refine decode_of (r := .vfmin) ?_ ?_
  · rw [row_vfa]; unfold decodeVfa; simp only [fHi_pack, hiFn_append]; rfl
  · show Instr.vfmin _ _ _ _ = _
    simp only [fA_pack, fB_pack, fX_pack, fHi_pack, hiC_append]

theorem vfmax (a : Reg) (b : Reg) (c : Reg) (m : Bool) : Statement (.vfmax a b c m) := by
  intro w h
  obtain rfl : pack 37#6 m a b (8#4 ++ c) = w := Option.some.inj h
  refine decode_of (r := .vfmax) ?_ ?_
  · rw [row_vfa]; unfold decodeVfa; simp only [fHi_pack, hiFn_append]; rfl
  · show Instr.vfmax _ _ _ _ = _
    simp only [fA_pack, fB_pack, fX_pack, fHi_pack, hiC_append]

theorem vfsgn (a : Reg) (b : Reg) (c : Reg) (m : Bool) : Statement (.vfsgn a b c m) := by
  intro w h
  obtain rfl : pack 37#6 m a b (9#4 ++ c) = w := Option.some.inj h
  refine decode_of (r := .vfsgn) ?_ ?_
  · rw [row_vfa]; unfold decodeVfa; simp only [fHi_pack, hiFn_append]; rfl
  · show Instr.vfsgn _ _ _ _ = _
    simp only [fA_pack, fB_pack, fX_pack, fHi_pack, hiC_append]

theorem vfaddS (a : Reg) (b : Reg) (c : Reg) (m : Bool) : Statement (.vfaddS a b c m) := by
  intro w h
  obtain rfl : pack 38#6 m a b (0#4 ++ c) = w := Option.some.inj h
  refine decode_of (r := .vfaddS) ?_ ?_
  · rw [row_vfas]; unfold decodeVfas; simp only [fHi_pack, hiFn_append]; rfl
  · show Instr.vfaddS _ _ _ _ = _
    simp only [fA_pack, fB_pack, fX_pack, fHi_pack, hiC_append]

theorem vfsubS (a : Reg) (b : Reg) (c : Reg) (m : Bool) : Statement (.vfsubS a b c m) := by
  intro w h
  obtain rfl : pack 38#6 m a b (1#4 ++ c) = w := Option.some.inj h
  refine decode_of (r := .vfsubS) ?_ ?_
  · rw [row_vfas]; unfold decodeVfas; simp only [fHi_pack, hiFn_append]; rfl
  · show Instr.vfsubS _ _ _ _ = _
    simp only [fA_pack, fB_pack, fX_pack, fHi_pack, hiC_append]

theorem vfmulS (a : Reg) (b : Reg) (c : Reg) (m : Bool) : Statement (.vfmulS a b c m) := by
  intro w h
  obtain rfl : pack 38#6 m a b (2#4 ++ c) = w := Option.some.inj h
  refine decode_of (r := .vfmulS) ?_ ?_
  · rw [row_vfas]; unfold decodeVfas; simp only [fHi_pack, hiFn_append]; rfl
  · show Instr.vfmulS _ _ _ _ = _
    simp only [fA_pack, fB_pack, fX_pack, fHi_pack, hiC_append]

theorem vfmaS (a : Reg) (b : Reg) (c : Reg) (m : Bool) : Statement (.vfmaS a b c m) := by
  intro w h
  obtain rfl : pack 38#6 m a b (3#4 ++ c) = w := Option.some.inj h
  refine decode_of (r := .vfmaS) ?_ ?_
  · rw [row_vfas]; unfold decodeVfas; simp only [fHi_pack, hiFn_append]; rfl
  · show Instr.vfmaS _ _ _ _ = _
    simp only [fA_pack, fB_pack, fX_pack, fHi_pack, hiC_append]

theorem vfmsS (a : Reg) (b : Reg) (c : Reg) (m : Bool) : Statement (.vfmsS a b c m) := by
  intro w h
  obtain rfl : pack 38#6 m a b (4#4 ++ c) = w := Option.some.inj h
  refine decode_of (r := .vfmsS) ?_ ?_
  · rw [row_vfas]; unfold decodeVfas; simp only [fHi_pack, hiFn_append]; rfl
  · show Instr.vfmsS _ _ _ _ = _
    simp only [fA_pack, fB_pack, fX_pack, fHi_pack, hiC_append]

theorem vfnmaS (a : Reg) (b : Reg) (c : Reg) (m : Bool) : Statement (.vfnmaS a b c m) := by
  intro w h
  obtain rfl : pack 38#6 m a b (5#4 ++ c) = w := Option.some.inj h
  refine decode_of (r := .vfnmaS) ?_ ?_
  · rw [row_vfas]; unfold decodeVfas; simp only [fHi_pack, hiFn_append]; rfl
  · show Instr.vfnmaS _ _ _ _ = _
    simp only [fA_pack, fB_pack, fX_pack, fHi_pack, hiC_append]

theorem vfdivS (a : Reg) (b : Reg) (c : Reg) (m : Bool) : Statement (.vfdivS a b c m) := by
  intro w h
  obtain rfl : pack 38#6 m a b (6#4 ++ c) = w := Option.some.inj h
  refine decode_of (r := .vfdivS) ?_ ?_
  · rw [row_vfas]; unfold decodeVfas; simp only [fHi_pack, hiFn_append]; rfl
  · show Instr.vfdivS _ _ _ _ = _
    simp only [fA_pack, fB_pack, fX_pack, fHi_pack, hiC_append]

theorem vfminS (a : Reg) (b : Reg) (c : Reg) (m : Bool) : Statement (.vfminS a b c m) := by
  intro w h
  obtain rfl : pack 38#6 m a b (7#4 ++ c) = w := Option.some.inj h
  refine decode_of (r := .vfminS) ?_ ?_
  · rw [row_vfas]; unfold decodeVfas; simp only [fHi_pack, hiFn_append]; rfl
  · show Instr.vfminS _ _ _ _ = _
    simp only [fA_pack, fB_pack, fX_pack, fHi_pack, hiC_append]

theorem vfmaxS (a : Reg) (b : Reg) (c : Reg) (m : Bool) : Statement (.vfmaxS a b c m) := by
  intro w h
  obtain rfl : pack 38#6 m a b (8#4 ++ c) = w := Option.some.inj h
  refine decode_of (r := .vfmaxS) ?_ ?_
  · rw [row_vfas]; unfold decodeVfas; simp only [fHi_pack, hiFn_append]; rfl
  · show Instr.vfmaxS _ _ _ _ = _
    simp only [fA_pack, fB_pack, fX_pack, fHi_pack, hiC_append]

theorem vfsgnS (a : Reg) (b : Reg) (c : Reg) (m : Bool) : Statement (.vfsgnS a b c m) := by
  intro w h
  obtain rfl : pack 38#6 m a b (9#4 ++ c) = w := Option.some.inj h
  refine decode_of (r := .vfsgnS) ?_ ?_
  · rw [row_vfas]; unfold decodeVfas; simp only [fHi_pack, hiFn_append]; rfl
  · show Instr.vfsgnS _ _ _ _ = _
    simp only [fA_pack, fB_pack, fX_pack, fHi_pack, hiC_append]

theorem vfsqrt (a : Reg) (b : Reg) (m : Bool) : Statement (.vfsqrt a b m) := by
  intro w h
  obtain rfl : pack 39#6 m a b (0#4 ++ 0#7) = w := Option.some.inj h
  refine decode_of (r := .vfsqrt) ?_ ?_
  · rw [row_vfu]; unfold decodeVfu; simp only [fHi_pack, hiFn_append, hiC_append]; rfl
  · show Instr.vfsqrt _ _ _ = _
    simp only [fA_pack, fB_pack, fX_pack]

theorem vfrcp (a : Reg) (b : Reg) (m : Bool) : Statement (.vfrcp a b m) := by
  intro w h
  obtain rfl : pack 39#6 m a b (1#4 ++ 0#7) = w := Option.some.inj h
  refine decode_of (r := .vfrcp) ?_ ?_
  · rw [row_vfu]; unfold decodeVfu; simp only [fHi_pack, hiFn_append, hiC_append]; rfl
  · show Instr.vfrcp _ _ _ = _
    simp only [fA_pack, fB_pack, fX_pack]

theorem vfrsq (a : Reg) (b : Reg) (m : Bool) : Statement (.vfrsq a b m) := by
  intro w h
  obtain rfl : pack 39#6 m a b (2#4 ++ 0#7) = w := Option.some.inj h
  refine decode_of (r := .vfrsq) ?_ ?_
  · rw [row_vfu]; unfold decodeVfu; simp only [fHi_pack, hiFn_append, hiC_append]; rfl
  · show Instr.vfrsq _ _ _ = _
    simp only [fA_pack, fB_pack, fX_pack]

theorem vfexp2 (a : Reg) (b : Reg) (m : Bool) : Statement (.vfexp2 a b m) := by
  intro w h
  obtain rfl : pack 39#6 m a b (3#4 ++ 0#7) = w := Option.some.inj h
  refine decode_of (r := .vfexp2) ?_ ?_
  · rw [row_vfu]; unfold decodeVfu; simp only [fHi_pack, hiFn_append, hiC_append]; rfl
  · show Instr.vfexp2 _ _ _ = _
    simp only [fA_pack, fB_pack, fX_pack]

theorem vflog2 (a : Reg) (b : Reg) (m : Bool) : Statement (.vflog2 a b m) := by
  intro w h
  obtain rfl : pack 39#6 m a b (4#4 ++ 0#7) = w := Option.some.inj h
  refine decode_of (r := .vflog2) ?_ ?_
  · rw [row_vfu]; unfold decodeVfu; simp only [fHi_pack, hiFn_append, hiC_append]; rfl
  · show Instr.vflog2 _ _ _ = _
    simp only [fA_pack, fB_pack, fX_pack]

theorem vfsin (a : Reg) (b : Reg) (m : Bool) : Statement (.vfsin a b m) := by
  intro w h
  obtain rfl : pack 39#6 m a b (5#4 ++ 0#7) = w := Option.some.inj h
  refine decode_of (r := .vfsin) ?_ ?_
  · rw [row_vfu]; unfold decodeVfu; simp only [fHi_pack, hiFn_append, hiC_append]; rfl
  · show Instr.vfsin _ _ _ = _
    simp only [fA_pack, fB_pack, fX_pack]

theorem vfcos (a : Reg) (b : Reg) (m : Bool) : Statement (.vfcos a b m) := by
  intro w h
  obtain rfl : pack 39#6 m a b (6#4 ++ 0#7) = w := Option.some.inj h
  refine decode_of (r := .vfcos) ?_ ?_
  · rw [row_vfu]; unfold decodeVfu; simp only [fHi_pack, hiFn_append, hiC_append]; rfl
  · show Instr.vfcos _ _ _ = _
    simp only [fA_pack, fB_pack, fX_pack]

theorem vftanh (a : Reg) (b : Reg) (m : Bool) : Statement (.vftanh a b m) := by
  intro w h
  obtain rfl : pack 39#6 m a b (7#4 ++ 0#7) = w := Option.some.inj h
  refine decode_of (r := .vftanh) ?_ ?_
  · rw [row_vfu]; unfold decodeVfu; simp only [fHi_pack, hiFn_append, hiC_append]; rfl
  · show Instr.vftanh _ _ _ = _
    simp only [fA_pack, fB_pack, fX_pack]

theorem vfsigm (a : Reg) (b : Reg) (m : Bool) : Statement (.vfsigm a b m) := by
  intro w h
  obtain rfl : pack 39#6 m a b (8#4 ++ 0#7) = w := Option.some.inj h
  refine decode_of (r := .vfsigm) ?_ ?_
  · rw [row_vfu]; unfold decodeVfu; simp only [fHi_pack, hiFn_append, hiC_append]; rfl
  · show Instr.vfsigm _ _ _ = _
    simp only [fA_pack, fB_pack, fX_pack]

theorem vfabs (a : Reg) (b : Reg) (m : Bool) : Statement (.vfabs a b m) := by
  intro w h
  obtain rfl : pack 39#6 m a b (9#4 ++ 0#7) = w := Option.some.inj h
  refine decode_of (r := .vfabs) ?_ ?_
  · rw [row_vfu]; unfold decodeVfu; simp only [fHi_pack, hiFn_append, hiC_append]; rfl
  · show Instr.vfabs _ _ _ = _
    simp only [fA_pack, fB_pack, fX_pack]

theorem vfneg (a : Reg) (b : Reg) (m : Bool) : Statement (.vfneg a b m) := by
  intro w h
  obtain rfl : pack 39#6 m a b (10#4 ++ 0#7) = w := Option.some.inj h
  refine decode_of (r := .vfneg) ?_ ?_
  · rw [row_vfu]; unfold decodeVfu; simp only [fHi_pack, hiFn_append, hiC_append]; rfl
  · show Instr.vfneg _ _ _ = _
    simp only [fA_pack, fB_pack, fX_pack]

theorem vfclass (a : Reg) (b : Reg) (m : Bool) : Statement (.vfclass a b m) := by
  intro w h
  obtain rfl : pack 39#6 m a b (11#4 ++ 0#7) = w := Option.some.inj h
  refine decode_of (r := .vfclass) ?_ ?_
  · rw [row_vfu]; unfold decodeVfu; simp only [fHi_pack, hiFn_append, hiC_append]; rfl
  · show Instr.vfclass _ _ _ = _
    simp only [fA_pack, fB_pack, fX_pack]

theorem vfrnd (a : Reg) (b : Reg) (m : Bool) : Statement (.vfrnd a b m) := by
  intro w h
  obtain rfl : pack 39#6 m a b (12#4 ++ 0#7) = w := Option.some.inj h
  refine decode_of (r := .vfrnd) ?_ ?_
  · rw [row_vfu]; unfold decodeVfu; simp only [fHi_pack, hiFn_append, hiC_append]; rfl
  · show Instr.vfrnd _ _ _ = _
    simp only [fA_pack, fB_pack, fX_pack]

theorem vcmpEq (a : Reg) (b : Reg) (c : Reg) (m : Bool) : Statement (.vcmpEq a b c m) := by
  intro w h
  obtain rfl : pack 40#6 m a b (0#4 ++ c) = w := Option.some.inj h
  refine decode_of (r := .vcmpEq) ?_ ?_
  · rw [row_vcmp]; unfold decodeVcmp; simp only [fHi_pack, hiFn_append]; rfl
  · show Instr.vcmpEq _ _ _ _ = _
    simp only [fA_pack, fB_pack, fX_pack, fHi_pack, hiC_append]

theorem vcmpNe (a : Reg) (b : Reg) (c : Reg) (m : Bool) : Statement (.vcmpNe a b c m) := by
  intro w h
  obtain rfl : pack 40#6 m a b (1#4 ++ c) = w := Option.some.inj h
  refine decode_of (r := .vcmpNe) ?_ ?_
  · rw [row_vcmp]; unfold decodeVcmp; simp only [fHi_pack, hiFn_append]; rfl
  · show Instr.vcmpNe _ _ _ _ = _
    simp only [fA_pack, fB_pack, fX_pack, fHi_pack, hiC_append]

theorem vcmpLt (a : Reg) (b : Reg) (c : Reg) (m : Bool) : Statement (.vcmpLt a b c m) := by
  intro w h
  obtain rfl : pack 40#6 m a b (2#4 ++ c) = w := Option.some.inj h
  refine decode_of (r := .vcmpLt) ?_ ?_
  · rw [row_vcmp]; unfold decodeVcmp; simp only [fHi_pack, hiFn_append]; rfl
  · show Instr.vcmpLt _ _ _ _ = _
    simp only [fA_pack, fB_pack, fX_pack, fHi_pack, hiC_append]

theorem vcmpGe (a : Reg) (b : Reg) (c : Reg) (m : Bool) : Statement (.vcmpGe a b c m) := by
  intro w h
  obtain rfl : pack 40#6 m a b (3#4 ++ c) = w := Option.some.inj h
  refine decode_of (r := .vcmpGe) ?_ ?_
  · rw [row_vcmp]; unfold decodeVcmp; simp only [fHi_pack, hiFn_append]; rfl
  · show Instr.vcmpGe _ _ _ _ = _
    simp only [fA_pack, fB_pack, fX_pack, fHi_pack, hiC_append]

theorem vcmpLtu (a : Reg) (b : Reg) (c : Reg) (m : Bool) : Statement (.vcmpLtu a b c m) := by
  intro w h
  obtain rfl : pack 40#6 m a b (4#4 ++ c) = w := Option.some.inj h
  refine decode_of (r := .vcmpLtu) ?_ ?_
  · rw [row_vcmp]; unfold decodeVcmp; simp only [fHi_pack, hiFn_append]; rfl
  · show Instr.vcmpLtu _ _ _ _ = _
    simp only [fA_pack, fB_pack, fX_pack, fHi_pack, hiC_append]

theorem vcmpGeu (a : Reg) (b : Reg) (c : Reg) (m : Bool) : Statement (.vcmpGeu a b c m) := by
  intro w h
  obtain rfl : pack 40#6 m a b (5#4 ++ c) = w := Option.some.inj h
  refine decode_of (r := .vcmpGeu) ?_ ?_
  · rw [row_vcmp]; unfold decodeVcmp; simp only [fHi_pack, hiFn_append]; rfl
  · show Instr.vcmpGeu _ _ _ _ = _
    simp only [fA_pack, fB_pack, fX_pack, fHi_pack, hiC_append]

theorem vcmpEqS (a : Reg) (b : Reg) (c : Reg) (m : Bool) : Statement (.vcmpEqS a b c m) := by
  intro w h
  obtain rfl : pack 41#6 m a b (0#4 ++ c) = w := Option.some.inj h
  refine decode_of (r := .vcmpEqS) ?_ ?_
  · rw [row_vcmps]; unfold decodeVcmps; simp only [fHi_pack, hiFn_append]; rfl
  · show Instr.vcmpEqS _ _ _ _ = _
    simp only [fA_pack, fB_pack, fX_pack, fHi_pack, hiC_append]

theorem vcmpNeS (a : Reg) (b : Reg) (c : Reg) (m : Bool) : Statement (.vcmpNeS a b c m) := by
  intro w h
  obtain rfl : pack 41#6 m a b (1#4 ++ c) = w := Option.some.inj h
  refine decode_of (r := .vcmpNeS) ?_ ?_
  · rw [row_vcmps]; unfold decodeVcmps; simp only [fHi_pack, hiFn_append]; rfl
  · show Instr.vcmpNeS _ _ _ _ = _
    simp only [fA_pack, fB_pack, fX_pack, fHi_pack, hiC_append]

theorem vcmpLtS (a : Reg) (b : Reg) (c : Reg) (m : Bool) : Statement (.vcmpLtS a b c m) := by
  intro w h
  obtain rfl : pack 41#6 m a b (2#4 ++ c) = w := Option.some.inj h
  refine decode_of (r := .vcmpLtS) ?_ ?_
  · rw [row_vcmps]; unfold decodeVcmps; simp only [fHi_pack, hiFn_append]; rfl
  · show Instr.vcmpLtS _ _ _ _ = _
    simp only [fA_pack, fB_pack, fX_pack, fHi_pack, hiC_append]

theorem vcmpGeS (a : Reg) (b : Reg) (c : Reg) (m : Bool) : Statement (.vcmpGeS a b c m) := by
  intro w h
  obtain rfl : pack 41#6 m a b (3#4 ++ c) = w := Option.some.inj h
  refine decode_of (r := .vcmpGeS) ?_ ?_
  · rw [row_vcmps]; unfold decodeVcmps; simp only [fHi_pack, hiFn_append]; rfl
  · show Instr.vcmpGeS _ _ _ _ = _
    simp only [fA_pack, fB_pack, fX_pack, fHi_pack, hiC_append]

theorem vcmpLtuS (a : Reg) (b : Reg) (c : Reg) (m : Bool) : Statement (.vcmpLtuS a b c m) := by
  intro w h
  obtain rfl : pack 41#6 m a b (4#4 ++ c) = w := Option.some.inj h
  refine decode_of (r := .vcmpLtuS) ?_ ?_
  · rw [row_vcmps]; unfold decodeVcmps; simp only [fHi_pack, hiFn_append]; rfl
  · show Instr.vcmpLtuS _ _ _ _ = _
    simp only [fA_pack, fB_pack, fX_pack, fHi_pack, hiC_append]

theorem vcmpGeuS (a : Reg) (b : Reg) (c : Reg) (m : Bool) : Statement (.vcmpGeuS a b c m) := by
  intro w h
  obtain rfl : pack 41#6 m a b (5#4 ++ c) = w := Option.some.inj h
  refine decode_of (r := .vcmpGeuS) ?_ ?_
  · rw [row_vcmps]; unfold decodeVcmps; simp only [fHi_pack, hiFn_append]; rfl
  · show Instr.vcmpGeuS _ _ _ _ = _
    simp only [fA_pack, fB_pack, fX_pack, fHi_pack, hiC_append]

theorem vfcmpEq (a : Reg) (b : Reg) (c : Reg) (m : Bool) : Statement (.vfcmpEq a b c m) := by
  intro w h
  obtain rfl : pack 42#6 m a b (0#4 ++ c) = w := Option.some.inj h
  refine decode_of (r := .vfcmpEq) ?_ ?_
  · rw [row_vfcmp]; unfold decodeVfcmp; simp only [fHi_pack, hiFn_append]; rfl
  · show Instr.vfcmpEq _ _ _ _ = _
    simp only [fA_pack, fB_pack, fX_pack, fHi_pack, hiC_append]

theorem vfcmpNe (a : Reg) (b : Reg) (c : Reg) (m : Bool) : Statement (.vfcmpNe a b c m) := by
  intro w h
  obtain rfl : pack 42#6 m a b (1#4 ++ c) = w := Option.some.inj h
  refine decode_of (r := .vfcmpNe) ?_ ?_
  · rw [row_vfcmp]; unfold decodeVfcmp; simp only [fHi_pack, hiFn_append]; rfl
  · show Instr.vfcmpNe _ _ _ _ = _
    simp only [fA_pack, fB_pack, fX_pack, fHi_pack, hiC_append]

theorem vfcmpLt (a : Reg) (b : Reg) (c : Reg) (m : Bool) : Statement (.vfcmpLt a b c m) := by
  intro w h
  obtain rfl : pack 42#6 m a b (2#4 ++ c) = w := Option.some.inj h
  refine decode_of (r := .vfcmpLt) ?_ ?_
  · rw [row_vfcmp]; unfold decodeVfcmp; simp only [fHi_pack, hiFn_append]; rfl
  · show Instr.vfcmpLt _ _ _ _ = _
    simp only [fA_pack, fB_pack, fX_pack, fHi_pack, hiC_append]

theorem vfcmpLe (a : Reg) (b : Reg) (c : Reg) (m : Bool) : Statement (.vfcmpLe a b c m) := by
  intro w h
  obtain rfl : pack 42#6 m a b (3#4 ++ c) = w := Option.some.inj h
  refine decode_of (r := .vfcmpLe) ?_ ?_
  · rw [row_vfcmp]; unfold decodeVfcmp; simp only [fHi_pack, hiFn_append]; rfl
  · show Instr.vfcmpLe _ _ _ _ = _
    simp only [fA_pack, fB_pack, fX_pack, fHi_pack, hiC_append]

theorem vfcmpUn (a : Reg) (b : Reg) (c : Reg) (m : Bool) : Statement (.vfcmpUn a b c m) := by
  intro w h
  obtain rfl : pack 42#6 m a b (4#4 ++ c) = w := Option.some.inj h
  refine decode_of (r := .vfcmpUn) ?_ ?_
  · rw [row_vfcmp]; unfold decodeVfcmp; simp only [fHi_pack, hiFn_append]; rfl
  · show Instr.vfcmpUn _ _ _ _ = _
    simp only [fA_pack, fB_pack, fX_pack, fHi_pack, hiC_append]

theorem vfcmpOr (a : Reg) (b : Reg) (c : Reg) (m : Bool) : Statement (.vfcmpOr a b c m) := by
  intro w h
  obtain rfl : pack 42#6 m a b (5#4 ++ c) = w := Option.some.inj h
  refine decode_of (r := .vfcmpOr) ?_ ?_
  · rw [row_vfcmp]; unfold decodeVfcmp; simp only [fHi_pack, hiFn_append]; rfl
  · show Instr.vfcmpOr _ _ _ _ = _
    simp only [fA_pack, fB_pack, fX_pack, fHi_pack, hiC_append]

theorem vcvt (a : Reg) (b : Reg) (c : BitVec 5) (m : Bool) : Statement (.vcvt a b c m) := by
  intro w h
  obtain rfl : pack 43#6 m a b (0#4 ++ (0#2 ++ c)) = w := Option.some.inj h
  refine decode_of (r := .vcvt) ?_ ?_
  · rw [row_vcvt]; unfold decodeVcvt; simp only [fHi_pack, hiFn_append_two, hiC_append_two, high2_append]; rfl
  · show Instr.vcvt _ _ _ _ = _
    simp only [fA_pack, fB_pack, fX_pack, fHi_pack, hiC_append_two, low5_append]

theorem vcvtk (a : Reg) (b : Reg) (c : BitVec 5) (m : Bool) : Statement (.vcvtk a b c m) := by
  intro w h
  obtain rfl : pack 43#6 m a b (1#4 ++ (0#2 ++ c)) = w := Option.some.inj h
  refine decode_of (r := .vcvtk) ?_ ?_
  · rw [row_vcvt]; unfold decodeVcvt; simp only [fHi_pack, hiFn_append_two, hiC_append_two, high2_append]; rfl
  · show Instr.vcvtk _ _ _ _ = _
    simp only [fA_pack, fB_pack, fX_pack, fHi_pack, hiC_append_two, low5_append]

theorem vwid (a : Reg) (b : Reg) (m : Bool) : Statement (.vwid a b m) := by
  intro w h
  obtain rfl : pack 43#6 m a b (2#4 ++ 0#7) = w := Option.some.inj h
  refine decode_of (r := .vwid) ?_ ?_
  · rw [row_vcvt]; unfold decodeVcvt; simp only [fHi_pack, hiFn_append, hiC_append]; rfl
  · show Instr.vwid _ _ _ = _
    simp only [fA_pack, fB_pack, fX_pack]

theorem vnar (a : Reg) (b : Reg) (m : Bool) : Statement (.vnar a b m) := by
  intro w h
  obtain rfl : pack 43#6 m a b (3#4 ++ 0#7) = w := Option.some.inj h
  refine decode_of (r := .vnar) ?_ ?_
  · rw [row_vcvt]; unfold decodeVcvt; simp only [fHi_pack, hiFn_append, hiC_append]; rfl
  · show Instr.vnar _ _ _ = _
    simp only [fA_pack, fB_pack, fX_pack]

theorem vxchS (a : Reg) (b : Reg) (c : Reg) (m : Bool) : Statement (.vxchS a b c m) := by
  intro w h
  obtain rfl : pack 44#6 m a b (0#4 ++ c) = w := Option.some.inj h
  refine decode_of (r := .vxchS) ?_ ?_
  · rw [row_vprm]; unfold decodeVprm; simp only [fX_pack, fB_pack, fHi_pack, hiFn_append, hiC_append]; rfl
  · show Instr.vxchS _ _ _ _ = _
    simp only [fA_pack, fB_pack, fX_pack, fHi_pack, hiC_append]

theorem vxch (a : Reg) (b : Reg) (c : Reg) (m : Bool) : Statement (.vxch a b c m) := by
  intro w h
  obtain rfl : pack 44#6 m a b (1#4 ++ c) = w := Option.some.inj h
  refine decode_of (r := .vxch) ?_ ?_
  · rw [row_vprm]; unfold decodeVprm; simp only [fX_pack, fB_pack, fHi_pack, hiFn_append, hiC_append]; rfl
  · show Instr.vxch _ _ _ _ = _
    simp only [fA_pack, fB_pack, fX_pack, fHi_pack, hiC_append]

theorem vslup (a : Reg) (b : Reg) (c : Reg) (m : Bool) : Statement (.vslup a b c m) := by
  intro w h
  obtain rfl : pack 44#6 m a b (2#4 ++ c) = w := Option.some.inj h
  refine decode_of (r := .vslup) ?_ ?_
  · rw [row_vprm]; unfold decodeVprm; simp only [fX_pack, fB_pack, fHi_pack, hiFn_append, hiC_append]; rfl
  · show Instr.vslup _ _ _ _ = _
    simp only [fA_pack, fB_pack, fX_pack, fHi_pack, hiC_append]

theorem vsldn (a : Reg) (b : Reg) (c : Reg) (m : Bool) : Statement (.vsldn a b c m) := by
  intro w h
  obtain rfl : pack 44#6 m a b (3#4 ++ c) = w := Option.some.inj h
  refine decode_of (r := .vsldn) ?_ ?_
  · rw [row_vprm]; unfold decodeVprm; simp only [fX_pack, fB_pack, fHi_pack, hiFn_append, hiC_append]; rfl
  · show Instr.vsldn _ _ _ _ = _
    simp only [fA_pack, fB_pack, fX_pack, fHi_pack, hiC_append]

theorem vperm (a : Reg) (b : Reg) (c : Reg) (m : Bool) : Statement (.vperm a b c m) := by
  intro w h
  obtain rfl : pack 44#6 m a b (4#4 ++ c) = w := Option.some.inj h
  refine decode_of (r := .vperm) ?_ ?_
  · rw [row_vprm]; unfold decodeVprm; simp only [fX_pack, fB_pack, fHi_pack, hiFn_append, hiC_append]; rfl
  · show Instr.vperm _ _ _ _ = _
    simp only [fA_pack, fB_pack, fX_pack, fHi_pack, hiC_append]

theorem vbcast (a : Reg) (b : Reg) (c : Reg) (m : Bool) : Statement (.vbcast a b c m) := by
  intro w h
  obtain rfl : pack 44#6 m a b (5#4 ++ c) = w := Option.some.inj h
  refine decode_of (r := .vbcast) ?_ ?_
  · rw [row_vprm]; unfold decodeVprm; simp only [fX_pack, fB_pack, fHi_pack, hiFn_append, hiC_append]; rfl
  · show Instr.vbcast _ _ _ _ = _
    simp only [fA_pack, fB_pack, fX_pack, fHi_pack, hiC_append]

theorem vextr (a : Reg) (b : Reg) (c : Reg) : Statement (.vextr a b c) := by
  intro w h
  obtain rfl : pack 44#6 false a b (6#4 ++ c) = w := Option.some.inj h
  refine decode_of (r := .vextr) ?_ ?_
  · rw [row_vprm]; unfold decodeVprm; simp only [fX_pack, fB_pack, fHi_pack, hiFn_append, hiC_append]; rfl
  · show Instr.vextr _ _ _ = _
    simp only [fA_pack, fB_pack, fHi_pack, hiC_append]

theorem vins (a : Reg) (b : Reg) (c : Reg) (m : Bool) : Statement (.vins a b c m) := by
  intro w h
  obtain rfl : pack 44#6 m a b (7#4 ++ c) = w := Option.some.inj h
  refine decode_of (r := .vins) ?_ ?_
  · rw [row_vprm]; unfold decodeVprm; simp only [fX_pack, fB_pack, fHi_pack, hiFn_append, hiC_append]; rfl
  · show Instr.vins _ _ _ _ = _
    simp only [fA_pack, fB_pack, fX_pack, fHi_pack, hiC_append]

theorem vcomp (a : Reg) (b : Reg) (m : Bool) : Statement (.vcomp a b m) := by
  intro w h
  obtain rfl : pack 44#6 m a b (8#4 ++ 0#7) = w := Option.some.inj h
  refine decode_of (r := .vcomp) ?_ ?_
  · rw [row_vprm]; unfold decodeVprm; simp only [fX_pack, fB_pack, fHi_pack, hiFn_append, hiC_append]; rfl
  · show Instr.vcomp _ _ _ = _
    simp only [fA_pack, fB_pack, fX_pack]

theorem vexpd (a : Reg) (b : Reg) (m : Bool) : Statement (.vexpd a b m) := by
  intro w h
  obtain rfl : pack 44#6 m a b (9#4 ++ 0#7) = w := Option.some.inj h
  refine decode_of (r := .vexpd) ?_ ?_
  · rw [row_vprm]; unfold decodeVprm; simp only [fX_pack, fB_pack, fHi_pack, hiFn_append, hiC_append]; rfl
  · show Instr.vexpd _ _ _ = _
    simp only [fA_pack, fB_pack, fX_pack]

theorem viota (a : Reg) (m : Bool) : Statement (.viota a m) := by
  intro w h
  obtain rfl : pack 44#6 m a 0 (10#4 ++ 0#7) = w := Option.some.inj h
  refine decode_of (r := .viota) ?_ ?_
  · rw [row_vprm]; unfold decodeVprm; simp only [fX_pack, fB_pack, fHi_pack, hiFn_append, hiC_append]; rfl
  · show Instr.viota _ _ = _
    simp only [fA_pack, fX_pack]

theorem vrev (a : Reg) (b : Reg) (m : Bool) : Statement (.vrev a b m) := by
  intro w h
  obtain rfl : pack 44#6 m a b (11#4 ++ 0#7) = w := Option.some.inj h
  refine decode_of (r := .vrev) ?_ ?_
  · rw [row_vprm]; unfold decodeVprm; simp only [fX_pack, fB_pack, fHi_pack, hiFn_append, hiC_append]; rfl
  · show Instr.vrev _ _ _ = _
    simp only [fA_pack, fB_pack, fX_pack]

theorem vrsum (a : Reg) (b : Reg) (c : Reg) (m : Bool) : Statement (.vrsum a b c m) := by
  intro w h
  obtain rfl : pack 45#6 m a b (0#4 ++ c) = w := Option.some.inj h
  refine decode_of (r := .vrsum) ?_ ?_
  · rw [row_vred]; unfold decodeVred; simp only [fHi_pack, hiFn_append]; rfl
  · show Instr.vrsum _ _ _ _ = _
    simp only [fA_pack, fB_pack, fX_pack, fHi_pack, hiC_append]

theorem vrmin (a : Reg) (b : Reg) (c : Reg) (m : Bool) : Statement (.vrmin a b c m) := by
  intro w h
  obtain rfl : pack 45#6 m a b (1#4 ++ c) = w := Option.some.inj h
  refine decode_of (r := .vrmin) ?_ ?_
  · rw [row_vred]; unfold decodeVred; simp only [fHi_pack, hiFn_append]; rfl
  · show Instr.vrmin _ _ _ _ = _
    simp only [fA_pack, fB_pack, fX_pack, fHi_pack, hiC_append]

theorem vrmax (a : Reg) (b : Reg) (c : Reg) (m : Bool) : Statement (.vrmax a b c m) := by
  intro w h
  obtain rfl : pack 45#6 m a b (2#4 ++ c) = w := Option.some.inj h
  refine decode_of (r := .vrmax) ?_ ?_
  · rw [row_vred]; unfold decodeVred; simp only [fHi_pack, hiFn_append]; rfl
  · show Instr.vrmax _ _ _ _ = _
    simp only [fA_pack, fB_pack, fX_pack, fHi_pack, hiC_append]

theorem vrminu (a : Reg) (b : Reg) (c : Reg) (m : Bool) : Statement (.vrminu a b c m) := by
  intro w h
  obtain rfl : pack 45#6 m a b (3#4 ++ c) = w := Option.some.inj h
  refine decode_of (r := .vrminu) ?_ ?_
  · rw [row_vred]; unfold decodeVred; simp only [fHi_pack, hiFn_append]; rfl
  · show Instr.vrminu _ _ _ _ = _
    simp only [fA_pack, fB_pack, fX_pack, fHi_pack, hiC_append]

theorem vrmaxu (a : Reg) (b : Reg) (c : Reg) (m : Bool) : Statement (.vrmaxu a b c m) := by
  intro w h
  obtain rfl : pack 45#6 m a b (4#4 ++ c) = w := Option.some.inj h
  refine decode_of (r := .vrmaxu) ?_ ?_
  · rw [row_vred]; unfold decodeVred; simp only [fHi_pack, hiFn_append]; rfl
  · show Instr.vrmaxu _ _ _ _ = _
    simp only [fA_pack, fB_pack, fX_pack, fHi_pack, hiC_append]

theorem vrand (a : Reg) (b : Reg) (c : Reg) (m : Bool) : Statement (.vrand a b c m) := by
  intro w h
  obtain rfl : pack 45#6 m a b (5#4 ++ c) = w := Option.some.inj h
  refine decode_of (r := .vrand) ?_ ?_
  · rw [row_vred]; unfold decodeVred; simp only [fHi_pack, hiFn_append]; rfl
  · show Instr.vrand _ _ _ _ = _
    simp only [fA_pack, fB_pack, fX_pack, fHi_pack, hiC_append]

theorem vror (a : Reg) (b : Reg) (c : Reg) (m : Bool) : Statement (.vror a b c m) := by
  intro w h
  obtain rfl : pack 45#6 m a b (6#4 ++ c) = w := Option.some.inj h
  refine decode_of (r := .vror) ?_ ?_
  · rw [row_vred]; unfold decodeVred; simp only [fHi_pack, hiFn_append]; rfl
  · show Instr.vror _ _ _ _ = _
    simp only [fA_pack, fB_pack, fX_pack, fHi_pack, hiC_append]

theorem vrxor (a : Reg) (b : Reg) (c : Reg) (m : Bool) : Statement (.vrxor a b c m) := by
  intro w h
  obtain rfl : pack 45#6 m a b (7#4 ++ c) = w := Option.some.inj h
  refine decode_of (r := .vrxor) ?_ ?_
  · rw [row_vred]; unfold decodeVred; simp only [fHi_pack, hiFn_append]; rfl
  · show Instr.vrxor _ _ _ _ = _
    simp only [fA_pack, fB_pack, fX_pack, fHi_pack, hiC_append]

theorem vrfsum (a : Reg) (b : Reg) (c : Reg) (m : Bool) : Statement (.vrfsum a b c m) := by
  intro w h
  obtain rfl : pack 45#6 m a b (8#4 ++ c) = w := Option.some.inj h
  refine decode_of (r := .vrfsum) ?_ ?_
  · rw [row_vred]; unfold decodeVred; simp only [fHi_pack, hiFn_append]; rfl
  · show Instr.vrfsum _ _ _ _ = _
    simp only [fA_pack, fB_pack, fX_pack, fHi_pack, hiC_append]

theorem vrfmin (a : Reg) (b : Reg) (c : Reg) (m : Bool) : Statement (.vrfmin a b c m) := by
  intro w h
  obtain rfl : pack 45#6 m a b (9#4 ++ c) = w := Option.some.inj h
  refine decode_of (r := .vrfmin) ?_ ?_
  · rw [row_vred]; unfold decodeVred; simp only [fHi_pack, hiFn_append]; rfl
  · show Instr.vrfmin _ _ _ _ = _
    simp only [fA_pack, fB_pack, fX_pack, fHi_pack, hiC_append]

theorem vrfmax (a : Reg) (b : Reg) (c : Reg) (m : Bool) : Statement (.vrfmax a b c m) := by
  intro w h
  obtain rfl : pack 45#6 m a b (10#4 ++ c) = w := Option.some.inj h
  refine decode_of (r := .vrfmax) ?_ ?_
  · rw [row_vred]; unfold decodeVred; simp only [fHi_pack, hiFn_append]; rfl
  · show Instr.vrfmax _ _ _ _ = _
    simp only [fA_pack, fB_pack, fX_pack, fHi_pack, hiC_append]

theorem vscanAdd (a : Reg) (b : Reg) (c : Reg) (m : Bool) : Statement (.vscanAdd a b c m) := by
  intro w h
  obtain rfl : pack 45#6 m a b (11#4 ++ c) = w := Option.some.inj h
  refine decode_of (r := .vscanAdd) ?_ ?_
  · rw [row_vred]; unfold decodeVred; simp only [fHi_pack, hiFn_append]; rfl
  · show Instr.vscanAdd _ _ _ _ = _
    simp only [fA_pack, fB_pack, fX_pack, fHi_pack, hiC_append]

theorem vfscanAdd (a : Reg) (b : Reg) (c : Reg) (m : Bool) : Statement (.vfscanAdd a b c m) := by
  intro w h
  obtain rfl : pack 45#6 m a b (12#4 ++ c) = w := Option.some.inj h
  refine decode_of (r := .vfscanAdd) ?_ ?_
  · rw [row_vred]; unfold decodeVred; simp only [fHi_pack, hiFn_append]; rfl
  · show Instr.vfscanAdd _ _ _ _ = _
    simp only [fA_pack, fB_pack, fX_pack, fHi_pack, hiC_append]

theorem vscanlin (a : Reg) (b : Reg) (c : Reg) (m : Bool) : Statement (.vscanlin a b c m) := by
  intro w h
  obtain rfl : pack 45#6 m a b (13#4 ++ c) = w := Option.some.inj h
  refine decode_of (r := .vscanlin) ?_ ?_
  · rw [row_vred]; unfold decodeVred; simp only [fHi_pack, hiFn_append]; rfl
  · show Instr.vscanlin _ _ _ _ = _
    simp only [fA_pack, fB_pack, fX_pack, fHi_pack, hiC_append]

theorem pand (a : Reg) (b : Reg) (c : Reg) : Statement (.pand a b c) := by
  intro w h
  obtain rfl : pack 46#6 false a b (0#4 ++ c) = w := Option.some.inj h
  refine decode_of (r := .pand) ?_ ?_
  · rw [row_pred]; unfold decodePred; simp only [fX_pack, fB_pack, fHi_pack, hiFn_append, hiC_append]; rfl
  · show Instr.pand _ _ _ = _
    simp only [fA_pack, fB_pack, fHi_pack, hiC_append]

theorem por (a : Reg) (b : Reg) (c : Reg) : Statement (.por a b c) := by
  intro w h
  obtain rfl : pack 46#6 false a b (1#4 ++ c) = w := Option.some.inj h
  refine decode_of (r := .por) ?_ ?_
  · rw [row_pred]; unfold decodePred; simp only [fX_pack, fB_pack, fHi_pack, hiFn_append, hiC_append]; rfl
  · show Instr.por _ _ _ = _
    simp only [fA_pack, fB_pack, fHi_pack, hiC_append]

theorem pxor (a : Reg) (b : Reg) (c : Reg) : Statement (.pxor a b c) := by
  intro w h
  obtain rfl : pack 46#6 false a b (2#4 ++ c) = w := Option.some.inj h
  refine decode_of (r := .pxor) ?_ ?_
  · rw [row_pred]; unfold decodePred; simp only [fX_pack, fB_pack, fHi_pack, hiFn_append, hiC_append]; rfl
  · show Instr.pxor _ _ _ = _
    simp only [fA_pack, fB_pack, fHi_pack, hiC_append]

theorem pandn (a : Reg) (b : Reg) (c : Reg) : Statement (.pandn a b c) := by
  intro w h
  obtain rfl : pack 46#6 false a b (3#4 ++ c) = w := Option.some.inj h
  refine decode_of (r := .pandn) ?_ ?_
  · rw [row_pred]; unfold decodePred; simp only [fX_pack, fB_pack, fHi_pack, hiFn_append, hiC_append]; rfl
  · show Instr.pandn _ _ _ = _
    simp only [fA_pack, fB_pack, fHi_pack, hiC_append]

theorem pnot (a : Reg) (b : Reg) : Statement (.pnot a b) := by
  intro w h
  obtain rfl : pack 46#6 false a b (4#4 ++ 0#7) = w := Option.some.inj h
  refine decode_of (r := .pnot) ?_ ?_
  · rw [row_pred]; unfold decodePred; simp only [fX_pack, fB_pack, fHi_pack, hiFn_append, hiC_append]; rfl
  · show Instr.pnot _ _ = _
    simp only [fA_pack, fB_pack]

theorem pset (a : Reg) : Statement (.pset a) := by
  intro w h
  obtain rfl : pack 46#6 false a 0 (5#4 ++ 0#7) = w := Option.some.inj h
  refine decode_of (r := .pset) ?_ ?_
  · rw [row_pred]; unfold decodePred; simp only [fX_pack, fB_pack, fHi_pack, hiFn_append, hiC_append]; rfl
  · show Instr.pset _ = _
    simp only [fA_pack]

theorem pclr (a : Reg) : Statement (.pclr a) := by
  intro w h
  obtain rfl : pack 46#6 false a 0 (6#4 ++ 0#7) = w := Option.some.inj h
  refine decode_of (r := .pclr) ?_ ?_
  · rw [row_pred]; unfold decodePred; simp only [fX_pack, fB_pack, fHi_pack, hiFn_append, hiC_append]; rfl
  · show Instr.pclr _ = _
    simp only [fA_pack]

theorem pcnt (a : Reg) (b : Reg) : Statement (.pcnt a b) := by
  intro w h
  obtain rfl : pack 46#6 false a b (7#4 ++ 0#7) = w := Option.some.inj h
  refine decode_of (r := .pcnt) ?_ ?_
  · rw [row_pred]; unfold decodePred; simp only [fX_pack, fB_pack, fHi_pack, hiFn_append, hiC_append]; rfl
  · show Instr.pcnt _ _ = _
    simp only [fA_pack, fB_pack]

theorem pfirst (a : Reg) (b : Reg) : Statement (.pfirst a b) := by
  intro w h
  obtain rfl : pack 46#6 false a b (8#4 ++ 0#7) = w := Option.some.inj h
  refine decode_of (r := .pfirst) ?_ ?_
  · rw [row_pred]; unfold decodePred; simp only [fX_pack, fB_pack, fHi_pack, hiFn_append, hiC_append]; rfl
  · show Instr.pfirst _ _ = _
    simp only [fA_pack, fB_pack]

theorem pmov (a : Reg) (b : Reg) : Statement (.pmov a b) := by
  intro w h
  obtain rfl : pack 46#6 false a b (9#4 ++ 0#7) = w := Option.some.inj h
  refine decode_of (r := .pmov) ?_ ?_
  · rw [row_pred]; unfold decodePred; simp only [fX_pack, fB_pack, fHi_pack, hiFn_append, hiC_append]; rfl
  · show Instr.pmov _ _ = _
    simp only [fA_pack, fB_pack]

theorem pfromv (a : Reg) (b : Reg) : Statement (.pfromv a b) := by
  intro w h
  obtain rfl : pack 46#6 false a b (10#4 ++ 0#7) = w := Option.some.inj h
  refine decode_of (r := .pfromv) ?_ ?_
  · rw [row_pred]; unfold decodePred; simp only [fX_pack, fB_pack, fHi_pack, hiFn_append, hiC_append]; rfl
  · show Instr.pfromv _ _ = _
    simp only [fA_pack, fB_pack]

theorem ptov (a : Reg) (b : Reg) : Statement (.ptov a b) := by
  intro w h
  obtain rfl : pack 46#6 false a b (11#4 ++ 0#7) = w := Option.some.inj h
  refine decode_of (r := .ptov) ?_ ?_
  · rw [row_pred]; unfold decodePred; simp only [fX_pack, fB_pack, fHi_pack, hiFn_append, hiC_append]; rfl
  · show Instr.ptov _ _ = _
    simp only [fA_pack, fB_pack]

theorem vld (a : Reg) (b : Reg) (m : Bool) : Statement (.vld a b m) := by
  intro w h
  obtain rfl : pack 48#6 m a b (0#4 ++ 0#7) = w := Option.some.inj h
  refine decode_of (r := .vld) ?_ ?_
  · rw [row_vld]; unfold decodeVld; simp only [fX_pack, fA_pack, fHi_pack, hiFn_append, hiC_append]; rfl
  · show Instr.vld _ _ _ = _
    simp only [fA_pack, fB_pack, fX_pack]

theorem vldFf (a : Reg) (b : Reg) (m : Bool) : Statement (.vldFf a b m) := by
  intro w h
  obtain rfl : pack 48#6 m a b (1#4 ++ 0#7) = w := Option.some.inj h
  refine decode_of (r := .vldFf) ?_ ?_
  · rw [row_vld]; unfold decodeVld; simp only [fX_pack, fA_pack, fHi_pack, hiFn_append, hiC_append]; rfl
  · show Instr.vldFf _ _ _ = _
    simp only [fA_pack, fB_pack, fX_pack]

theorem vlds (a : Reg) (b : Reg) (c : Reg) (m : Bool) : Statement (.vlds a b c m) := by
  intro w h
  obtain rfl : pack 48#6 m a b (2#4 ++ c) = w := Option.some.inj h
  refine decode_of (r := .vlds) ?_ ?_
  · rw [row_vld]; unfold decodeVld; simp only [fX_pack, fA_pack, fHi_pack, hiFn_append, hiC_append]; rfl
  · show Instr.vlds _ _ _ _ = _
    simp only [fA_pack, fB_pack, fX_pack, fHi_pack, hiC_append]

theorem vldsFf (a : Reg) (b : Reg) (c : Reg) (m : Bool) : Statement (.vldsFf a b c m) := by
  intro w h
  obtain rfl : pack 48#6 m a b (3#4 ++ c) = w := Option.some.inj h
  refine decode_of (r := .vldsFf) ?_ ?_
  · rw [row_vld]; unfold decodeVld; simp only [fX_pack, fA_pack, fHi_pack, hiFn_append, hiC_append]; rfl
  · show Instr.vldsFf _ _ _ _ = _
    simp only [fA_pack, fB_pack, fX_pack, fHi_pack, hiC_append]

theorem vldg (a : Reg) (b : Reg) (c : Reg) (m : Bool) : Statement (.vldg a b c m) := by
  intro w h
  obtain rfl : pack 48#6 m a b (4#4 ++ c) = w := Option.some.inj h
  refine decode_of (r := .vldg) ?_ ?_
  · rw [row_vld]; unfold decodeVld; simp only [fX_pack, fA_pack, fHi_pack, hiFn_append, hiC_append]; rfl
  · show Instr.vldg _ _ _ _ = _
    simp only [fA_pack, fB_pack, fX_pack, fHi_pack, hiC_append]

theorem vldx (a : Reg) (b : Reg) (c : Reg) (m : Bool) : Statement (.vldx a b c m) := by
  intro w h
  obtain rfl : pack 48#6 m a b (5#4 ++ c) = w := Option.some.inj h
  refine decode_of (r := .vldx) ?_ ?_
  · rw [row_vld]; unfold decodeVld; simp only [fX_pack, fA_pack, fHi_pack, hiFn_append, hiC_append]; rfl
  · show Instr.vldx _ _ _ _ = _
    simp only [fA_pack, fB_pack, fX_pack, fHi_pack, hiC_append]

theorem vldxFf (a : Reg) (b : Reg) (c : Reg) (m : Bool) : Statement (.vldxFf a b c m) := by
  intro w h
  obtain rfl : pack 48#6 m a b (6#4 ++ c) = w := Option.some.inj h
  refine decode_of (r := .vldxFf) ?_ ?_
  · rw [row_vld]; unfold decodeVld; simp only [fX_pack, fA_pack, fHi_pack, hiFn_append, hiC_append]; rfl
  · show Instr.vldxFf _ _ _ _ = _
    simp only [fA_pack, fB_pack, fX_pack, fHi_pack, hiC_append]

theorem vldb (a : Reg) (b : Reg) (c : Reg) (m : Bool) : Statement (.vldb a b c m) := by
  intro w h
  obtain rfl : pack 48#6 m a b (7#4 ++ c) = w := Option.some.inj h
  refine decode_of (r := .vldb) ?_ ?_
  · rw [row_vld]; unfold decodeVld; simp only [fX_pack, fA_pack, fHi_pack, hiFn_append, hiC_append]; rfl
  · show Instr.vldb _ _ _ _ = _
    simp only [fA_pack, fB_pack, fX_pack, fHi_pack, hiC_append]

theorem vldbFf (a : Reg) (b : Reg) (c : Reg) (m : Bool) : Statement (.vldbFf a b c m) := by
  intro w h
  obtain rfl : pack 48#6 m a b (8#4 ++ c) = w := Option.some.inj h
  refine decode_of (r := .vldbFf) ?_ ?_
  · rw [row_vld]; unfold decodeVld; simp only [fX_pack, fA_pack, fHi_pack, hiFn_append, hiC_append]; rfl
  · show Instr.vldbFf _ _ _ _ = _
    simp only [fA_pack, fB_pack, fX_pack, fHi_pack, hiC_append]

theorem vpfd (b : Reg) (c : Reg) : Statement (.vpfd b c) := by
  intro w h
  obtain rfl : pack 48#6 false 0 b (9#4 ++ c) = w := Option.some.inj h
  refine decode_of (r := .vpfd) ?_ ?_
  · rw [row_vld]; unfold decodeVld; simp only [fX_pack, fA_pack, fHi_pack, hiFn_append, hiC_append]; rfl
  · show Instr.vpfd _ _ = _
    simp only [fB_pack, fHi_pack, hiC_append]

theorem vst (a : Reg) (b : Reg) (m : Bool) : Statement (.vst a b m) := by
  intro w h
  obtain rfl : pack 49#6 m a b (0#4 ++ 0#7) = w := Option.some.inj h
  refine decode_of (r := .vst) ?_ ?_
  · rw [row_vst]; unfold decodeVst; simp only [fHi_pack, hiFn_append, hiC_append]; rfl
  · show Instr.vst _ _ _ = _
    simp only [fA_pack, fB_pack, fX_pack]

theorem vsts (a : Reg) (b : Reg) (c : Reg) (m : Bool) : Statement (.vsts a b c m) := by
  intro w h
  obtain rfl : pack 49#6 m a b (1#4 ++ c) = w := Option.some.inj h
  refine decode_of (r := .vsts) ?_ ?_
  · rw [row_vst]; unfold decodeVst; simp only [fHi_pack, hiFn_append, hiC_append]; rfl
  · show Instr.vsts _ _ _ _ = _
    simp only [fA_pack, fB_pack, fX_pack, fHi_pack, hiC_append]

theorem vstg (a : Reg) (b : Reg) (c : Reg) (m : Bool) : Statement (.vstg a b c m) := by
  intro w h
  obtain rfl : pack 49#6 m a b (2#4 ++ c) = w := Option.some.inj h
  refine decode_of (r := .vstg) ?_ ?_
  · rw [row_vst]; unfold decodeVst; simp only [fHi_pack, hiFn_append, hiC_append]; rfl
  · show Instr.vstg _ _ _ _ = _
    simp only [fA_pack, fB_pack, fX_pack, fHi_pack, hiC_append]

theorem vstx (a : Reg) (b : Reg) (c : Reg) (m : Bool) : Statement (.vstx a b c m) := by
  intro w h
  obtain rfl : pack 49#6 m a b (3#4 ++ c) = w := Option.some.inj h
  refine decode_of (r := .vstx) ?_ ?_
  · rw [row_vst]; unfold decodeVst; simp only [fHi_pack, hiFn_append, hiC_append]; rfl
  · show Instr.vstx _ _ _ _ = _
    simp only [fA_pack, fB_pack, fX_pack, fHi_pack, hiC_append]

theorem vstb (a : Reg) (b : Reg) (c : BitVec 5) (m : Bool) : Statement (.vstb a b c m) := by
  intro w h
  obtain rfl : pack 49#6 m a b (4#4 ++ (0#2 ++ c)) = w := Option.some.inj h
  refine decode_of (r := .vstb) ?_ ?_
  · rw [row_vst]; unfold decodeVst; simp only [fHi_pack, hiFn_append_two, hiC_append_two, high2_append]; rfl
  · show Instr.vstb _ _ _ _ = _
    simp only [fA_pack, fB_pack, fX_pack, fHi_pack, hiC_append_two, low5_append]

theorem vamoadd (a : Reg) (b : Reg) (c : Reg) (m : Bool) : Statement (.vamoadd a b c m) := by
  intro w h
  obtain rfl : pack 50#6 m a b (0#4 ++ c) = w := Option.some.inj h
  refine decode_of (r := .vamoadd) ?_ ?_
  · rw [row_vamo]; unfold decodeVamo; simp only [fHi_pack, hiFn_append]; rfl
  · show Instr.vamoadd _ _ _ _ = _
    simp only [fA_pack, fB_pack, fX_pack, fHi_pack, hiC_append]

theorem vamomin (a : Reg) (b : Reg) (c : Reg) (m : Bool) : Statement (.vamomin a b c m) := by
  intro w h
  obtain rfl : pack 50#6 m a b (1#4 ++ c) = w := Option.some.inj h
  refine decode_of (r := .vamomin) ?_ ?_
  · rw [row_vamo]; unfold decodeVamo; simp only [fHi_pack, hiFn_append]; rfl
  · show Instr.vamomin _ _ _ _ = _
    simp only [fA_pack, fB_pack, fX_pack, fHi_pack, hiC_append]

theorem vamomax (a : Reg) (b : Reg) (c : Reg) (m : Bool) : Statement (.vamomax a b c m) := by
  intro w h
  obtain rfl : pack 50#6 m a b (2#4 ++ c) = w := Option.some.inj h
  refine decode_of (r := .vamomax) ?_ ?_
  · rw [row_vamo]; unfold decodeVamo; simp only [fHi_pack, hiFn_append]; rfl
  · show Instr.vamomax _ _ _ _ = _
    simp only [fA_pack, fB_pack, fX_pack, fHi_pack, hiC_append]

theorem vamoswp (a : Reg) (b : Reg) (c : Reg) (m : Bool) : Statement (.vamoswp a b c m) := by
  intro w h
  obtain rfl : pack 50#6 m a b (3#4 ++ c) = w := Option.some.inj h
  refine decode_of (r := .vamoswp) ?_ ?_
  · rw [row_vamo]; unfold decodeVamo; simp only [fHi_pack, hiFn_append]; rfl
  · show Instr.vamoswp _ _ _ _ = _
    simp only [fA_pack, fB_pack, fX_pack, fHi_pack, hiC_append]

theorem vamofadd (a : Reg) (b : Reg) (c : Reg) (m : Bool) : Statement (.vamofadd a b c m) := by
  intro w h
  obtain rfl : pack 50#6 m a b (4#4 ++ c) = w := Option.some.inj h
  refine decode_of (r := .vamofadd) ?_ ?_
  · rw [row_vamo]; unfold decodeVamo; simp only [fHi_pack, hiFn_append]; rfl
  · show Instr.vamofadd _ _ _ _ = _
    simp only [fA_pack, fB_pack, fX_pack, fHi_pack, hiC_append]

theorem talloc (a : Reg) (b : Reg) (c : Reg) : Statement (.talloc a b c) := by
  intro w h
  obtain rfl : pack 51#6 false a b (0#4 ++ c) = w := Option.some.inj h
  refine decode_of (r := .talloc) ?_ ?_
  · rw [row_tile]; unfold decodeTile; simp only [fX_pack, fA_pack, fHi_pack, hiFn_append, hiC_append]; rfl
  · show Instr.talloc _ _ _ = _
    simp only [fA_pack, fB_pack, fHi_pack, hiC_append]

theorem tallocZ (a : Reg) (b : Reg) (c : Reg) : Statement (.tallocZ a b c) := by
  intro w h
  obtain rfl : pack 51#6 false a b (1#4 ++ c) = w := Option.some.inj h
  refine decode_of (r := .tallocZ) ?_ ?_
  · rw [row_tile]; unfold decodeTile; simp only [fX_pack, fA_pack, fHi_pack, hiFn_append, hiC_append]; rfl
  · show Instr.tallocZ _ _ _ = _
    simp only [fA_pack, fB_pack, fHi_pack, hiC_append]

theorem tfree (b : Reg) : Statement (.tfree b) := by
  intro w h
  obtain rfl : pack 51#6 false 0 b (2#4 ++ 0#7) = w := Option.some.inj h
  refine decode_of (r := .tfree) ?_ ?_
  · rw [row_tile]; unfold decodeTile; simp only [fX_pack, fA_pack, fHi_pack, hiFn_append, hiC_append]; rfl
  · show Instr.tfree _ = _
    simp only [fB_pack]

theorem tstat (a : Reg) (b : Reg) (c : Reg) : Statement (.tstat a b c) := by
  intro w h
  obtain rfl : pack 51#6 false a b (3#4 ++ c) = w := Option.some.inj h
  refine decode_of (r := .tstat) ?_ ?_
  · rw [row_tile]; unfold decodeTile; simp only [fX_pack, fA_pack, fHi_pack, hiFn_append, hiC_append]; rfl
  · show Instr.tstat _ _ _ = _
    simp only [fA_pack, fB_pack, fHi_pack, hiC_append]

theorem tstatMask (a : Reg) (b : Reg) (c : Reg) : Statement (.tstatMask a b c) := by
  intro w h
  obtain rfl : pack 51#6 false a b (4#4 ++ c) = w := Option.some.inj h
  refine decode_of (r := .tstatMask) ?_ ?_
  · rw [row_tile]; unfold decodeTile; simp only [fX_pack, fA_pack, fHi_pack, hiFn_append, hiC_append]; rfl
  · show Instr.tstatMask _ _ _ = _
    simp only [fA_pack, fB_pack, fHi_pack, hiC_append]

theorem tldR (a : Reg) (b : Reg) (c : Reg) (m : Bool) : Statement (.tldR a b c m) := by
  intro w h
  obtain rfl : pack 51#6 m a b (5#4 ++ c) = w := Option.some.inj h
  refine decode_of (r := .tldR) ?_ ?_
  · rw [row_tile]; unfold decodeTile; simp only [fX_pack, fA_pack, fHi_pack, hiFn_append, hiC_append]; rfl
  · show Instr.tldR _ _ _ _ = _
    simp only [fA_pack, fB_pack, fX_pack, fHi_pack, hiC_append]

theorem tldC (a : Reg) (b : Reg) (c : Reg) (m : Bool) : Statement (.tldC a b c m) := by
  intro w h
  obtain rfl : pack 51#6 m a b (6#4 ++ c) = w := Option.some.inj h
  refine decode_of (r := .tldC) ?_ ?_
  · rw [row_tile]; unfold decodeTile; simp only [fX_pack, fA_pack, fHi_pack, hiFn_append, hiC_append]; rfl
  · show Instr.tldC _ _ _ _ = _
    simp only [fA_pack, fB_pack, fX_pack, fHi_pack, hiC_append]

theorem tstR (a : Reg) (b : Reg) (c : Reg) (m : Bool) : Statement (.tstR a b c m) := by
  intro w h
  obtain rfl : pack 51#6 m a b (7#4 ++ c) = w := Option.some.inj h
  refine decode_of (r := .tstR) ?_ ?_
  · rw [row_tile]; unfold decodeTile; simp only [fX_pack, fA_pack, fHi_pack, hiFn_append, hiC_append]; rfl
  · show Instr.tstR _ _ _ _ = _
    simp only [fA_pack, fB_pack, fX_pack, fHi_pack, hiC_append]

theorem tstC (a : Reg) (b : Reg) (c : Reg) (m : Bool) : Statement (.tstC a b c m) := by
  intro w h
  obtain rfl : pack 51#6 m a b (8#4 ++ c) = w := Option.some.inj h
  refine decode_of (r := .tstC) ?_ ?_
  · rw [row_tile]; unfold decodeTile; simp only [fX_pack, fA_pack, fHi_pack, hiFn_append, hiC_append]; rfl
  · show Instr.tstC _ _ _ _ = _
    simp only [fA_pack, fB_pack, fX_pack, fHi_pack, hiC_append]

theorem cpyin (a : Reg) (b : Reg) (c : Reg) : Statement (.cpyin a b c) := by
  intro w h
  obtain rfl : pack 52#6 false a b (0#4 ++ c) = w := Option.some.inj h
  refine decode_of (r := .cpyin) ?_ ?_
  · rw [row_copy]; unfold decodeCopy; simp only [fX_pack, fA_pack, fHi_pack, hiFn_append, hiC_append]; rfl
  · show Instr.cpyin _ _ _ = _
    simp only [fA_pack, fB_pack, fHi_pack, hiC_append]

theorem cpyg (a : Reg) (b : Reg) (c : Reg) : Statement (.cpyg a b c) := by
  intro w h
  obtain rfl : pack 52#6 false a b (1#4 ++ c) = w := Option.some.inj h
  refine decode_of (r := .cpyg) ?_ ?_
  · rw [row_copy]; unfold decodeCopy; simp only [fX_pack, fA_pack, fHi_pack, hiFn_append, hiC_append]; rfl
  · show Instr.cpyg _ _ _ = _
    simp only [fA_pack, fB_pack, fHi_pack, hiC_append]

theorem cpymc (a : Reg) (b : Reg) (c : Reg) : Statement (.cpymc a b c) := by
  intro w h
  obtain rfl : pack 52#6 false a b (2#4 ++ c) = w := Option.some.inj h
  refine decode_of (r := .cpymc) ?_ ?_
  · rw [row_copy]; unfold decodeCopy; simp only [fX_pack, fA_pack, fHi_pack, hiFn_append, hiC_append]; rfl
  · show Instr.cpymc _ _ _ = _
    simp only [fA_pack, fB_pack, fHi_pack, hiC_append]

theorem cpyout (a : Reg) (b : Reg) (c : Reg) : Statement (.cpyout a b c) := by
  intro w h
  obtain rfl : pack 52#6 false a b (3#4 ++ c) = w := Option.some.inj h
  refine decode_of (r := .cpyout) ?_ ?_
  · rw [row_copy]; unfold decodeCopy; simp only [fX_pack, fA_pack, fHi_pack, hiFn_append, hiC_append]; rfl
  · show Instr.cpyout _ _ _ = _
    simp only [fA_pack, fB_pack, fHi_pack, hiC_append]

theorem cwait (b : Reg) : Statement (.cwait b) := by
  intro w h
  obtain rfl : pack 52#6 false 0 b (4#4 ++ 0#7) = w := Option.some.inj h
  refine decode_of (r := .cwait) ?_ ?_
  · rw [row_copy]; unfold decodeCopy; simp only [fX_pack, fA_pack, fHi_pack, hiFn_append, hiC_append]; rfl
  · show Instr.cwait _ = _
    simp only [fB_pack]

theorem sbind (a : Reg) (b : Reg) (c : Reg) : Statement (.sbind a b c) := by
  intro w h
  obtain rfl : pack 53#6 false a b (0#4 ++ c) = w := Option.some.inj h
  refine decode_of (r := .sbind) ?_ ?_
  · rw [row_strm]; unfold decodeStrm; simp only [fX_pack, fB_pack, fHi_pack, hiFn_append, hiC_append]; rfl
  · show Instr.sbind _ _ _ = _
    simp only [fA_pack, fB_pack, fHi_pack, hiC_append]

theorem sunbind (a : Reg) : Statement (.sunbind a) := by
  intro w h
  obtain rfl : pack 53#6 false a 0 (1#4 ++ 0#7) = w := Option.some.inj h
  refine decode_of (r := .sunbind) ?_ ?_
  · rw [row_strm]; unfold decodeStrm; simp only [fX_pack, fB_pack, fHi_pack, hiFn_append, hiC_append]; rfl
  · show Instr.sunbind _ = _
    simp only [fA_pack]

theorem sstat (a : Reg) (b : Reg) : Statement (.sstat a b) := by
  intro w h
  obtain rfl : pack 53#6 false a b (2#4 ++ 0#7) = w := Option.some.inj h
  refine decode_of (r := .sstat) ?_ ?_
  · rw [row_strm]; unfold decodeStrm; simp only [fX_pack, fB_pack, fHi_pack, hiFn_append, hiC_append]; rfl
  · show Instr.sstat _ _ = _
    simp only [fA_pack, fB_pack]

theorem sstatMask (a : Reg) (b : Reg) : Statement (.sstatMask a b) := by
  intro w h
  obtain rfl : pack 53#6 false a b (3#4 ++ 0#7) = w := Option.some.inj h
  refine decode_of (r := .sstatMask) ?_ ?_
  · rw [row_strm]; unfold decodeStrm; simp only [fX_pack, fB_pack, fHi_pack, hiFn_append, hiC_append]; rfl
  · show Instr.sstatMask _ _ = _
    simp only [fA_pack, fB_pack]

theorem kld (a : Reg) (b : Reg) (c : Reg) : Statement (.kld a b c) := by
  intro w h
  obtain rfl : pack 54#6 false a b (0#4 ++ c) = w := Option.some.inj h
  refine decode_of (r := .kld) ?_ ?_
  · rw [row_scl]; unfold decodeScl; simp only [fX_pack, fHi_pack, hiFn_append, hiC_append]; rfl
  · show Instr.kld _ _ _ = _
    simp only [fA_pack, fB_pack, fHi_pack, hiC_append]

theorem kst (a : Reg) (b : Reg) (c : Reg) : Statement (.kst a b c) := by
  intro w h
  obtain rfl : pack 54#6 false a b (1#4 ++ c) = w := Option.some.inj h
  refine decode_of (r := .kst) ?_ ?_
  · rw [row_scl]; unfold decodeScl; simp only [fX_pack, fHi_pack, hiFn_append, hiC_append]; rfl
  · show Instr.kst _ _ _ = _
    simp only [fA_pack, fB_pack, fHi_pack, hiC_append]

theorem kmov (a : Reg) (b : Reg) : Statement (.kmov a b) := by
  intro w h
  obtain rfl : pack 54#6 false a b (2#4 ++ 0#7) = w := Option.some.inj h
  refine decode_of (r := .kmov) ?_ ?_
  · rw [row_scl]; unfold decodeScl; simp only [fX_pack, fHi_pack, hiFn_append, hiC_append]; rfl
  · show Instr.kmov _ _ = _
    simp only [fA_pack, fB_pack]

theorem kset (a : Reg) (b : Reg) : Statement (.kset a b) := by
  intro w h
  obtain rfl : pack 54#6 false a b (3#4 ++ 0#7) = w := Option.some.inj h
  refine decode_of (r := .kset) ?_ ?_
  · rw [row_scl]; unfold decodeScl; simp only [fX_pack, fHi_pack, hiFn_append, hiC_append]; rfl
  · show Instr.kset _ _ = _
    simp only [fA_pack, fB_pack]

theorem tshape (a : Reg) (b : Reg) (c : Reg) : Statement (.tshape a b c) := by
  intro w h
  obtain rfl : pack 55#6 false a b (0#4 ++ c) = w := Option.some.inj h
  refine decode_of (r := .tshape) ?_ ?_
  · rw [row_mtx]; unfold decodeMtx; simp only [fX_pack, fA_pack, fB_pack, fHi_pack, hiFn_append, hiC_append]; rfl
  · show Instr.tshape _ _ _ = _
    simp only [fA_pack, fB_pack, fHi_pack, hiC_append]

theorem mzero (a : Reg) : Statement (.mzero a) := by
  intro w h
  obtain rfl : pack 55#6 false a 0 (1#4 ++ 0#7) = w := Option.some.inj h
  refine decode_of (r := .mzero) ?_ ?_
  · rw [row_mtx]; unfold decodeMtx; simp only [fX_pack, fA_pack, fB_pack, fHi_pack, hiFn_append, hiC_append]; rfl
  · show Instr.mzero _ = _
    simp only [fA_pack]

theorem mldop (a : Reg) (b : Reg) (c : Reg) : Statement (.mldop a b c) := by
  intro w h
  obtain rfl : pack 55#6 false a b (2#4 ++ c) = w := Option.some.inj h
  refine decode_of (r := .mldop) ?_ ?_
  · rw [row_mtx]; unfold decodeMtx; simp only [fX_pack, fA_pack, fB_pack, fHi_pack, hiFn_append, hiC_append]; rfl
  · show Instr.mldop _ _ _ = _
    simp only [fA_pack, fB_pack, fHi_pack, hiC_append]

theorem mldopFf (a : Reg) (b : Reg) (c : Reg) : Statement (.mldopFf a b c) := by
  intro w h
  obtain rfl : pack 55#6 false a b (3#4 ++ c) = w := Option.some.inj h
  refine decode_of (r := .mldopFf) ?_ ?_
  · rw [row_mtx]; unfold decodeMtx; simp only [fX_pack, fA_pack, fB_pack, fHi_pack, hiFn_append, hiC_append]; rfl
  · show Instr.mldopFf _ _ _ = _
    simp only [fA_pack, fB_pack, fHi_pack, hiC_append]

theorem mxoa (b : Reg) (c : Reg) (n : BitVec 2) (f : BitVec 5) : Statement (.mxoa b c n f) := by
  intro w h
  obtain rfl : pack 55#6 false (0#2 ++ f) b ((1#2 ++ n) ++ c) = w := Option.some.inj h
  refine decode_of (r := .mxoa) ?_ ?_
  · rw [row_mtx]; unfold decodeMtx; simp only [fX_pack, fA_pack, fB_pack, fHi_pack, hiFn_two_append, hiC_two_append, high2_append]
    rcases fn_cases n with rfl | rfl | rfl | rfl <;> rfl
  · show Instr.mxoa _ _ _ _ = _
    simp only [fA_pack, fB_pack, fHi_pack, hiC_two_append, low5_append, hiFn_two_append, fnLow_append]

theorem mxos (b : Reg) (c : Reg) (n : BitVec 2) (f : BitVec 5) : Statement (.mxos b c n f) := by
  intro w h
  obtain rfl : pack 55#6 false (0#2 ++ f) b ((2#2 ++ n) ++ c) = w := Option.some.inj h
  refine decode_of (r := .mxos) ?_ ?_
  · rw [row_mtx]; unfold decodeMtx; simp only [fX_pack, fA_pack, fB_pack, fHi_pack, hiFn_two_append, hiC_two_append, high2_append]
    rcases fn_cases n with rfl | rfl | rfl | rfl <;> rfl
  · show Instr.mxos _ _ _ _ = _
    simp only [fA_pack, fB_pack, fHi_pack, hiC_two_append, low5_append, hiFn_two_append, fnLow_append]

theorem mlda (a : Reg) (b : Reg) (c : Reg) : Statement (.mlda a b c) := by
  intro w h
  obtain rfl : pack 55#6 false a b (12#4 ++ c) = w := Option.some.inj h
  refine decode_of (r := .mlda) ?_ ?_
  · rw [row_mtx]; unfold decodeMtx; simp only [fX_pack, fA_pack, fB_pack, fHi_pack, hiFn_append, hiC_append]; rfl
  · show Instr.mlda _ _ _ = _
    simp only [fA_pack, fB_pack, fHi_pack, hiC_append]

theorem msta (a : Reg) (b : Reg) (c : Reg) : Statement (.msta a b c) := by
  intro w h
  obtain rfl : pack 55#6 false a b (13#4 ++ c) = w := Option.some.inj h
  refine decode_of (r := .msta) ?_ ?_
  · rw [row_mtx]; unfold decodeMtx; simp only [fX_pack, fA_pack, fB_pack, fHi_pack, hiFn_append, hiC_append]; rfl
  · show Instr.msta _ _ _ = _
    simp only [fA_pack, fB_pack, fHi_pack, hiC_append]

theorem mrd (a : Reg) (b : Reg) : Statement (.mrd a b) := by
  intro w h
  obtain rfl : pack 55#6 false a b (14#4 ++ 0#7) = w := Option.some.inj h
  refine decode_of (r := .mrd) ?_ ?_
  · rw [row_mtx]; unfold decodeMtx; simp only [fX_pack, fA_pack, fB_pack, fHi_pack, hiFn_append, hiC_append]; rfl
  · show Instr.mrd _ _ = _
    simp only [fA_pack, fB_pack]

theorem mwr (a : Reg) (b : Reg) : Statement (.mwr a b) := by
  intro w h
  obtain rfl : pack 55#6 false a b (15#4 ++ 0#7) = w := Option.some.inj h
  refine decode_of (r := .mwr) ?_ ?_
  · rw [row_mtx]; unfold decodeMtx; simp only [fX_pack, fA_pack, fB_pack, fHi_pack, hiFn_append, hiC_append]; rfl
  · show Instr.mwr _ _ = _
    simp only [fA_pack, fB_pack]

theorem smmul (a : Reg) (b : Reg) (c : Reg) (m : Bool) : Statement (.smmul a b c m) := by
  intro w h
  obtain rfl : pack 56#6 m a b (0#4 ++ c) = w := Option.some.inj h
  refine decode_of (r := .smmul) ?_ ?_
  · rw [row_smx]; unfold decodeSmx; simp only [fHi_pack, hiFn_append, hiC_append]; rfl
  · show Instr.smmul _ _ _ _ = _
    simp only [fA_pack, fB_pack, fX_pack, fHi_pack, hiC_append]

theorem smmult (a : Reg) (b : Reg) (c : Reg) (m : Bool) : Statement (.smmult a b c m) := by
  intro w h
  obtain rfl : pack 56#6 m a b (1#4 ++ c) = w := Option.some.inj h
  refine decode_of (r := .smmult) ?_ ?_
  · rw [row_smx]; unfold decodeSmx; simp only [fHi_pack, hiFn_append, hiC_append]; rfl
  · show Instr.smmult _ _ _ _ = _
    simp only [fA_pack, fB_pack, fX_pack, fHi_pack, hiC_append]

theorem smchol (a : Reg) (b : Reg) (m : Bool) : Statement (.smchol a b m) := by
  intro w h
  obtain rfl : pack 56#6 m a b (2#4 ++ 0#7) = w := Option.some.inj h
  refine decode_of (r := .smchol) ?_ ?_
  · rw [row_smx]; unfold decodeSmx; simp only [fHi_pack, hiFn_append, hiC_append]; rfl
  · show Instr.smchol _ _ _ = _
    simp only [fA_pack, fB_pack, fX_pack]

theorem smlup (a : Reg) (b : Reg) (c : Reg) (m : Bool) : Statement (.smlup a b c m) := by
  intro w h
  obtain rfl : pack 56#6 m a b (3#4 ++ c) = w := Option.some.inj h
  refine decode_of (r := .smlup) ?_ ?_
  · rw [row_smx]; unfold decodeSmx; simp only [fHi_pack, hiFn_append, hiC_append]; rfl
  · show Instr.smlup _ _ _ _ = _
    simp only [fA_pack, fB_pack, fX_pack, fHi_pack, hiC_append]

theorem smsolc (a : Reg) (b : Reg) (m : Bool) : Statement (.smsolc a b m) := by
  intro w h
  obtain rfl : pack 56#6 m a b (4#4 ++ 0#7) = w := Option.some.inj h
  refine decode_of (r := .smsolc) ?_ ?_
  · rw [row_smx]; unfold decodeSmx; simp only [fHi_pack, hiFn_append, hiC_append]; rfl
  · show Instr.smsolc _ _ _ = _
    simp only [fA_pack, fB_pack, fX_pack]

theorem smsolp (a : Reg) (b : Reg) (c : Reg) (m : Bool) : Statement (.smsolp a b c m) := by
  intro w h
  obtain rfl : pack 56#6 m a b (5#4 ++ c) = w := Option.some.inj h
  refine decode_of (r := .smsolp) ?_ ?_
  · rw [row_smx]; unfold decodeSmx; simp only [fHi_pack, hiFn_append, hiC_append]; rfl
  · show Instr.smsolp _ _ _ _ = _
    simp only [fA_pack, fB_pack, fX_pack, fHi_pack, hiC_append]

theorem smtran (a : Reg) (b : Reg) (m : Bool) : Statement (.smtran a b m) := by
  intro w h
  obtain rfl : pack 56#6 m a b (6#4 ++ 0#7) = w := Option.some.inj h
  refine decode_of (r := .smtran) ?_ ?_
  · rw [row_smx]; unfold decodeSmx; simp only [fHi_pack, hiFn_append, hiC_append]; rfl
  · show Instr.smtran _ _ _ = _
    simp only [fA_pack, fB_pack, fX_pack]

theorem chcfg (b : Reg) : Statement (.chcfg b) := by
  intro w h
  obtain rfl : pack 57#6 false 0 b (0#4 ++ 0#7) = w := Option.some.inj h
  refine decode_of (r := .chcfg) ?_ ?_
  · rw [row_chn]; unfold decodeChn; simp only [fX_pack, fA_pack, fB_pack, fHi_pack, hiFn_append, hiC_append]; rfl
  · show Instr.chcfg _ = _
    simp only [fB_pack]

theorem chend  : Statement (.chend) := by
  intro w h
  obtain rfl : pack 57#6 false 0 0 (1#4 ++ 0#7) = w := Option.some.inj h
  refine decode_of (r := .chend) ?_ ?_
  · rw [row_chn]; unfold decodeChn; simp only [fX_pack, fA_pack, fB_pack, fHi_pack, hiFn_append, hiC_append]; rfl
  · rfl

theorem chrun (b : Reg) (c : Reg) : Statement (.chrun b c) := by
  intro w h
  obtain rfl : pack 57#6 false 0 b (2#4 ++ c) = w := Option.some.inj h
  refine decode_of (r := .chrun) ?_ ?_
  · rw [row_chn]; unfold decodeChn; simp only [fX_pack, fA_pack, fB_pack, fHi_pack, hiFn_append, hiC_append]; rfl
  · show Instr.chrun _ _ = _
    simp only [fB_pack, fHi_pack, hiC_append]

theorem chwait  : Statement (.chwait) := by
  intro w h
  obtain rfl : pack 57#6 false 0 0 (3#4 ++ 0#7) = w := Option.some.inj h
  refine decode_of (r := .chwait) ?_ ?_
  · rw [row_chn]; unfold decodeChn; simp only [fX_pack, fA_pack, fB_pack, fHi_pack, hiFn_append, hiC_append]; rfl
  · rfl

theorem chstat (a : Reg) (b : Reg) : Statement (.chstat a b) := by
  intro w h
  obtain rfl : pack 57#6 false a b (4#4 ++ 0#7) = w := Option.some.inj h
  refine decode_of (r := .chstat) ?_ ?_
  · rw [row_chn]; unfold decodeChn; simp only [fX_pack, fA_pack, fB_pack, fHi_pack, hiFn_append, hiC_append]; rfl
  · show Instr.chstat _ _ = _
    simp only [fA_pack, fB_pack]

theorem chsave (b : Reg) : Statement (.chsave b) := by
  intro w h
  obtain rfl : pack 57#6 false 0 b (5#4 ++ 0#7) = w := Option.some.inj h
  refine decode_of (r := .chsave) ?_ ?_
  · rw [row_chn]; unfold decodeChn; simp only [fX_pack, fA_pack, fB_pack, fHi_pack, hiFn_append, hiC_append]; rfl
  · show Instr.chsave _ = _
    simp only [fB_pack]

theorem chload (b : Reg) : Statement (.chload b) := by
  intro w h
  obtain rfl : pack 57#6 false 0 b (6#4 ++ 0#7) = w := Option.some.inj h
  refine decode_of (r := .chload) ?_ ?_
  · rw [row_chn]; unfold decodeChn; simp only [fX_pack, fA_pack, fB_pack, fHi_pack, hiFn_append, hiC_append]; rfl
  · show Instr.chload _ = _
    simp only [fB_pack]

theorem chdrop  : Statement (.chdrop) := by
  intro w h
  obtain rfl : pack 57#6 false 0 0 (7#4 ++ 0#7) = w := Option.some.inj h
  refine decode_of (r := .chdrop) ?_ ?_
  · rw [row_chn]; unfold decodeChn; simp only [fX_pack, fA_pack, fB_pack, fHi_pack, hiFn_append, hiC_append]; rfl
  · rfl

theorem turn (a : Reg) (b : Reg) (c : Reg) (m : Bool) : Statement (.turn a b c m) := by
  intro w h
  obtain rfl : pack 57#6 m a b (8#4 ++ c) = w := Option.some.inj h
  refine decode_of (r := .turn) ?_ ?_
  · rw [row_chn]; unfold decodeChn; simp only [fX_pack, fA_pack, fB_pack, fHi_pack, hiFn_append, hiC_append]; rfl
  · show Instr.turn _ _ _ _ = _
    simp only [fA_pack, fB_pack, fX_pack, fHi_pack, hiC_append]

theorem link (b : Reg) : Statement (.link b) := by
  intro w h
  obtain rfl : pack 57#6 false 0 b (9#4 ++ 0#7) = w := Option.some.inj h
  refine decode_of (r := .link) ?_ ?_
  · rw [row_chn]; unfold decodeChn; simp only [fX_pack, fA_pack, fB_pack, fHi_pack, hiFn_append, hiC_append]; rfl
  · show Instr.link _ = _
    simp only [fB_pack]

theorem qpush (a : Reg) (b : Reg) : Statement (.qpush a b) := by
  intro w h
  obtain rfl : pack 58#6 false a b (0#4 ++ 0#7) = w := Option.some.inj h
  refine decode_of (r := .qpush) ?_ ?_
  · rw [row_que]; unfold decodeQue; simp only [fX_pack, fB_pack, fHi_pack, hiFn_append, hiC_append]; rfl
  · show Instr.qpush _ _ = _
    simp only [fA_pack, fB_pack]

theorem qpop (a : Reg) (b : Reg) : Statement (.qpop a b) := by
  intro w h
  obtain rfl : pack 58#6 false a b (1#4 ++ 0#7) = w := Option.some.inj h
  refine decode_of (r := .qpop) ?_ ?_
  · rw [row_que]; unfold decodeQue; simp only [fX_pack, fB_pack, fHi_pack, hiFn_append, hiC_append]; rfl
  · show Instr.qpop _ _ = _
    simp only [fA_pack, fB_pack]

theorem qspace (a : Reg) (b : Reg) : Statement (.qspace a b) := by
  intro w h
  obtain rfl : pack 58#6 false a b (2#4 ++ 0#7) = w := Option.some.inj h
  refine decode_of (r := .qspace) ?_ ?_
  · rw [row_que]; unfold decodeQue; simp only [fX_pack, fB_pack, fHi_pack, hiFn_append, hiC_append]; rfl
  · show Instr.qspace _ _ = _
    simp only [fA_pack, fB_pack]

theorem qcnt (a : Reg) (b : Reg) : Statement (.qcnt a b) := by
  intro w h
  obtain rfl : pack 58#6 false a b (3#4 ++ 0#7) = w := Option.some.inj h
  refine decode_of (r := .qcnt) ?_ ?_
  · rw [row_que]; unfold decodeQue; simp only [fX_pack, fB_pack, fHi_pack, hiFn_append, hiC_append]; rfl
  · show Instr.qcnt _ _ = _
    simp only [fA_pack, fB_pack]

theorem qclr (a : Reg) : Statement (.qclr a) := by
  intro w h
  obtain rfl : pack 58#6 false a 0 (4#4 ++ 0#7) = w := Option.some.inj h
  refine decode_of (r := .qclr) ?_ ?_
  · rw [row_que]; unfold decodeQue; simp only [fX_pack, fB_pack, fHi_pack, hiFn_append, hiC_append]; rfl
  · show Instr.qclr _ = _
    simp only [fA_pack]

theorem book (a : Reg) (b : Reg) : Statement (.book a b) := by
  intro w h
  obtain rfl : pack 59#6 false a b (0#4 ++ 0#7) = w := Option.some.inj h
  refine decode_of (r := .book) ?_ ?_
  · rw [row_bkg]; unfold decodeBkg; simp only [fX_pack, fA_pack, fB_pack, fHi_pack, hiFn_append, hiC_append]; rfl
  · show Instr.book _ _ = _
    simp only [fA_pack, fB_pack]

theorem bkqry (a : Reg) (b : Reg) : Statement (.bkqry a b) := by
  intro w h
  obtain rfl : pack 59#6 false a b (1#4 ++ 0#7) = w := Option.some.inj h
  refine decode_of (r := .bkqry) ?_ ?_
  · rw [row_bkg]; unfold decodeBkg; simp only [fX_pack, fA_pack, fB_pack, fHi_pack, hiFn_append, hiC_append]; rfl
  · show Instr.bkqry _ _ = _
    simp only [fA_pack, fB_pack]

theorem bkrel  : Statement (.bkrel) := by
  intro w h
  obtain rfl : pack 59#6 false 0 0 (2#4 ++ 0#7) = w := Option.some.inj h
  refine decode_of (r := .bkrel) ?_ ?_
  · rw [row_bkg]; unfold decodeBkg; simp only [fX_pack, fA_pack, fB_pack, fHi_pack, hiFn_append, hiC_append]; rfl
  · rfl

theorem bkwait  : Statement (.bkwait) := by
  intro w h
  obtain rfl : pack 59#6 false 0 0 (3#4 ++ 0#7) = w := Option.some.inj h
  refine decode_of (r := .bkwait) ?_ ?_
  · rw [row_bkg]; unfold decodeBkg; simp only [fX_pack, fA_pack, fB_pack, fHi_pack, hiFn_append, hiC_append]; rfl
  · rfl

theorem srscfg (b : Reg) : Statement (.srscfg b) := by
  intro w h
  obtain rfl : pack 60#6 false 0 b (0#4 ++ 0#7) = w := Option.some.inj h
  refine decode_of (r := .srscfg) ?_ ?_
  · rw [row_srs]; unfold decodeSrs; simp only [fX_pack, fA_pack, fB_pack, fHi_pack, hiFn_append, hiC_append]; rfl
  · show Instr.srscfg _ = _
    simp only [fB_pack]

theorem srsstep  : Statement (.srsstep) := by
  intro w h
  obtain rfl : pack 60#6 false 0 0 (1#4 ++ 0#7) = w := Option.some.inj h
  refine decode_of (r := .srsstep) ?_ ?_
  · rw [row_srs]; unfold decodeSrs; simp only [fX_pack, fA_pack, fB_pack, fHi_pack, hiFn_append, hiC_append]; rfl
  · rfl

theorem srsmap (a : Reg) (b : Reg) : Statement (.srsmap a b) := by
  intro w h
  obtain rfl : pack 60#6 false a b (2#4 ++ 0#7) = w := Option.some.inj h
  refine decode_of (r := .srsmap) ?_ ?_
  · rw [row_srs]; unfold decodeSrs; simp only [fX_pack, fA_pack, fB_pack, fHi_pack, hiFn_append, hiC_append]; rfl
  · show Instr.srsmap _ _ = _
    simp only [fA_pack, fB_pack]

theorem srsclr  : Statement (.srsclr) := by
  intro w h
  obtain rfl : pack 60#6 false 0 0 (3#4 ++ 0#7) = w := Option.some.inj h
  refine decode_of (r := .srsclr) ?_ ?_
  · rw [row_srs]; unfold decodeSrs; simp only [fX_pack, fA_pack, fB_pack, fHi_pack, hiFn_append, hiC_append]; rfl
  · rfl

theorem srssig (b : Reg) : Statement (.srssig b) := by
  intro w h
  obtain rfl : pack 60#6 false 0 b (4#4 ++ 0#7) = w := Option.some.inj h
  refine decode_of (r := .srssig) ?_ ?_
  · rw [row_srs]; unfold decodeSrs; simp only [fX_pack, fA_pack, fB_pack, fHi_pack, hiFn_append, hiC_append]; rfl
  · show Instr.srssig _ = _
    simp only [fB_pack]

theorem barw (b : Reg) : Statement (.barw b) := by
  intro w h
  obtain rfl : pack 61#6 false 0 b (0#4 ++ 0#7) = w := Option.some.inj h
  refine decode_of (r := .barw) ?_ ?_
  · rw [row_tsk]; unfold decodeTsk; simp only [fX_pack, fA_pack, fB_pack, fHi_pack, hiFn_append, hiC_append]; rfl
  · show Instr.barw _ = _
    simp only [fB_pack]

theorem signal (b : Reg) (c : Reg) : Statement (.signal b c) := by
  intro w h
  obtain rfl : pack 61#6 false 0 b (1#4 ++ c) = w := Option.some.inj h
  refine decode_of (r := .signal) ?_ ?_
  · rw [row_tsk]; unfold decodeTsk; simp only [fX_pack, fA_pack, fB_pack, fHi_pack, hiFn_append, hiC_append]; rfl
  · show Instr.signal _ _ = _
    simp only [fB_pack, fHi_pack, hiC_append]

theorem waitv (b : Reg) (c : Reg) : Statement (.waitv b c) := by
  intro w h
  obtain rfl : pack 61#6 false 0 b (2#4 ++ c) = w := Option.some.inj h
  refine decode_of (r := .waitv) ?_ ?_
  · rw [row_tsk]; unfold decodeTsk; simp only [fX_pack, fA_pack, fB_pack, fHi_pack, hiFn_append, hiC_append]; rfl
  · show Instr.waitv _ _ = _
    simp only [fB_pack, fHi_pack, hiC_append]

theorem qcmd (a : Reg) (b : Reg) (c : Reg) : Statement (.qcmd a b c) := by
  intro w h
  obtain rfl : pack 61#6 false a b (8#4 ++ c) = w := Option.some.inj h
  refine decode_of (r := .qcmd) ?_ ?_
  · rw [row_tsk]; unfold decodeTsk; simp only [fX_pack, fA_pack, fB_pack, fHi_pack, hiFn_append, hiC_append]; rfl
  · show Instr.qcmd _ _ _ = _
    simp only [fA_pack, fB_pack, fHi_pack, hiC_append]

theorem tdone  : Statement (.tdone) := by
  intro w h
  obtain rfl : pack 61#6 false 0 0 (9#4 ++ 0#7) = w := Option.some.inj h
  refine decode_of (r := .tdone) ?_ ?_
  · rw [row_tsk]; unfold decodeTsk; simp only [fX_pack, fA_pack, fB_pack, fHi_pack, hiFn_append, hiC_append]; rfl
  · rfl

theorem dsig (b : Reg) : Statement (.dsig b) := by
  intro w h
  obtain rfl : pack 61#6 false 0 b (10#4 ++ 0#7) = w := Option.some.inj h
  refine decode_of (r := .dsig) ?_ ?_
  · rw [row_tsk]; unfold decodeTsk; simp only [fX_pack, fA_pack, fB_pack, fHi_pack, hiFn_append, hiC_append]; rfl
  · show Instr.dsig _ = _
    simp only [fB_pack]

theorem captureWord (w : BitVec 32) : Statement (.captureWord w) := event rfl
theorem tailWrite (fn : Nat) (off : Nat) (n : Nat) (v : Word) : Statement (.tailWrite fn off n v) := event rfl
theorem queueSwapIn (h : Nat) : Statement (.queueSwapIn h) := event rfl
theorem hostWindowRead (fn : Nat) (off : Nat) (n : Nat) : Statement (.hostWindowRead fn off n) := event rfl
theorem hostWindowWrite (fn : Nat) (off : Nat) (bytes : List Byte) : Statement (.hostWindowWrite fn off bytes) := event rfl
theorem hostCompletion (pa : Nat) (n : Nat) (data : Option Nat) : Statement (.hostCompletion pa n data) := event rfl
theorem registerWrite (page : Option Nat) (fn : Nat) (off : Nat) (n : Nat) (v : Word) : Statement (.registerWrite page fn off n v) := event rfl
theorem ctxnew (fn : Nat) (root : Word) (qtab : Word) (pool : Word) (len : Word) (conf : Word) (owner : Option (List Byte)) : Statement (.ctxnew fn root qtab pool len conf owner) := event rfl
theorem ctxdel (fn : Nat) (ctx : Word) : Statement (.ctxdel fn ctx) := event rfl
theorem preempt (fn : Nat) (ctx : Word) : Statement (.preempt fn ctx) := event rfl
theorem resume (fn : Nat) (ctx : Word) (bad : List Nat) : Statement (.resume fn ctx bad) := event rfl
theorem abort (fn : Nat) (flock : Word) : Statement (.abort fn flock) := event rfl
theorem qclrCommand (fn : Nat) (h : Word) : Statement (.qclrCommand fn h) := event rfl
theorem qrange (fn : Nat) (who : Word) (first : Word) (count : Word) : Statement (.qrange fn who first count) := event rfl
theorem qbind (fn : Nat) (ctx : Word) (first : Word) (count : Word) : Statement (.qbind fn ctx first count) := event rfl
theorem frq (fn : Nat) (die : Word) (base : Word) : Statement (.frq fn die base) := event rfl
theorem trace (fn : Nat) (base : Word) (mode : Word) : Statement (.trace fn base mode) := event rfl
theorem grant (fn : Nat) (ctx : Word) (token : Option (List Byte)) : Statement (.grant fn ctx token) := event rfl
theorem unlock (fn : Nat) (token : Option (List Byte)) : Statement (.unlock fn token) := event rfl
theorem attest (fn : Nat) (nonce : List Byte) (va : Word) : Statement (.attest fn nonce va) := event rfl
theorem pcap (fn : Nat) (die : Word) (watts : Word) : Statement (.pcap fn die watts) := event rfl
theorem window (fn : Nat) (ctx : Word) (base : Word) : Statement (.window fn ctx base) := event rfl
theorem irqmap (fn : Nat) (source : Word) (vector : Word) (who : Word) : Statement (.irqmap fn source vector who) := event rfl
theorem smrd (fn : Nat) (addr : Word) : Statement (.smrd fn addr) := event rfl
theorem smwr (fn : Nat) (addr : Word) (v : Word) : Statement (.smwr fn addr v) := event rfl
theorem commandCompletion (fn : Nat) : Statement (.commandCompletion fn) := event rfl
theorem verd (die : Nat) (v : Word) : Statement (.verd die v) := event rfl
theorem invb (die : Nat) (v : Word) : Statement (.invb die v) := event rfl
theorem invalidationComplete (die : Nat) : Statement (.invalidationComplete die) := event rfl
theorem headWrite (die : Nat) (v : Word) : Statement (.headWrite die v) := event rfl
theorem powerOn  : Statement (.powerOn) := event rfl
theorem bringUpComplete (ok : Bool) : Statement (.bringUpComplete ok) := event rfl
theorem coldReset  : Statement (.coldReset) := event rfl
theorem scrub  : Statement (.scrub) := event rfl
theorem quantumBoundary  : Statement (.quantumBoundary) := event rfl
theorem bookedStart (key : Nat) : Statement (.bookedStart key) := event rfl
theorem bookingEnd (key : Nat) : Statement (.bookingEnd key) := event rfl
theorem bookSearchEnd (key : Nat) : Statement (.bookSearchEnd key) := event rfl
theorem overrun (key : Nat) : Statement (.overrun key) := event rfl
theorem snapshotTrigger  : Statement (.snapshotTrigger) := event rfl
theorem lockstepMismatch (issuer : Nat) (k : Nat) (va : Word) (x : Word) (y : Word) : Statement (.lockstepMismatch issuer k va x y) := event rfl
theorem traceSample (key : Nat) : Statement (.traceSample key) := event rfl
theorem laneCountExpiry (key : Nat) (g : Nat) : Statement (.laneCountExpiry key g) := event rfl
theorem traceGrantExpiry (ctx : Nat) : Statement (.traceGrantExpiry ctx) := event rfl
theorem debugRelease (key : Nat) : Statement (.debugRelease key) := event rfl
theorem laneGrant (key : Nat) : Statement (.laneGrant key) := event rfl
theorem laneReclamation (key : Nat) : Statement (.laneReclamation key) := event rfl
theorem chainPlacementTimeout (key : Nat) : Statement (.chainPlacementTimeout key) := event rfl
theorem chainNodeFire (key : Nat) (node : Nat) : Statement (.chainNodeFire key node) := event rfl
theorem chainRunComplete (key : Nat) : Statement (.chainRunComplete key) := event rfl
theorem yieldTimeout (key : Nat) : Statement (.yieldTimeout key) := event rfl
theorem waitvReread (key : Nat) : Statement (.waitvReread key) := event rfl
theorem copyTransferComplete (key : Nat) (ch : Nat) (id : Nat) : Statement (.copyTransferComplete key ch id) := event rfl
theorem engineAccessFault (e : EngineAccess) : Statement (.engineAccessFault e) := event rfl
theorem nopRecord (h : Nat) : Statement (.nopRecord h) := event rfl
theorem launchRecord (h : Nat) : Statement (.launchRecord h) := event rfl
theorem barrierRecord (h : Nat) : Statement (.barrierRecord h) := event rfl
theorem signalRecord (h : Nat) : Statement (.signalRecord h) := event rfl
theorem waitvalRecord (h : Nat) : Statement (.waitvalRecord h) := event rfl
theorem copyRecord (h : Nat) : Statement (.copyRecord h) := event rfl
theorem copyRecordComplete (h : Nat) (n : Nat) : Statement (.copyRecordComplete h n) := event rfl
theorem bookRecord (h : Nat) : Statement (.bookRecord h) := event rfl
theorem fenceRecord (h : Nat) : Statement (.fenceRecord h) := event rfl
theorem flockDispatch  : Statement (.flockDispatch) := event rfl
theorem readyAgeExpiry  : Statement (.readyAgeExpiry) := event rfl
theorem bookedFlockStart (task : Nat) : Statement (.bookedFlockStart task) := event rfl
theorem flockCompletion (task : Nat) : Statement (.flockCompletion task) := event rfl
theorem rdmaWriteIn (qp : Nat) (pa : Nat) (bytes : List Byte) : Statement (.rdmaWriteIn qp pa bytes) := event rfl
theorem rdmaReadIn (qp : Nat) (pa : Nat) (n : Nat) : Statement (.rdmaReadIn qp pa n) := event rfl
theorem rdmaSendIn (qp : Nat) (bytes : List Byte) : Statement (.rdmaSendIn qp bytes) := event rfl
theorem rdmaAck (qp : Nat) (n : Nat) : Statement (.rdmaAck qp n) := event rfl
theorem congestionNotification (qp : Nat) : Statement (.congestionNotification qp) := event rfl
theorem nonInstructionWord (w : BitVec 32) : Statement (.nonInstructionWord w) := event rfl
theorem instructionFetchFault  : Statement (.instructionFetchFault) := event rfl
theorem rdmaReadResponse (pa : Nat) (n : Nat) (data : Option Nat) : Statement (.rdmaReadResponse pa n data) := event rfl
theorem queuePairError (qp : Nat) : Statement (.queuePairError qp) := event rfl
end Laws.RoundTrip

end Sys2Proof
end

