-- ==== Sys2Proof/Laws/Rows.lean ====
section
/-! SUPPORT. Elements in rows and predicates: what writing listed elements of a register group leaves (R61, R189). -/
namespace Sys2Proof.Machine

theorem rowElem_testBit {n : Nat} (r : BitVec n) (w i j : Nat) :
    (rowElem r w i).testBit j = (decide (j < w) && r.getLsbD (i * w + j)) := by
  unfold rowElem pow2
  rw [Nat.testBit_mod_two_pow, ← Nat.shiftRight_eq_div_pow, Nat.testBit_shiftRight]
  rfl

theorem mask_testBit (w k j : Nat) : ((2 ^ w - 1) * 2 ^ k).testBit j = (decide (k ≤ j) && decide (j < k + w)) := by
  rw [← Nat.shiftLeft_eq, Nat.testBit_shiftLeft, Nat.testBit_two_pow_sub_one]
  by_cases h : k ≤ j
  · have : (j - k < w) = (j < k + w) := by apply propext; omega
    simp [h, this]
  · have h' : ¬ j ≥ k := h
    simp [h]

theorem shifted_testBit (v k j : Nat) : (v * 2 ^ k).testBit j = (decide (k ≤ j) && v.testBit (j - k)) := by
  rw [← Nat.shiftLeft_eq, Nat.testBit_shiftLeft]

theorem setRowElem_getLsbD {n : Nat} (r : BitVec n) (w i v k : Nat) (hk : k < n) :
    (setRowElem r w i v).getLsbD k =
      if i * w ≤ k ∧ k < i * w + w then v.testBit (k - i * w) else r.getLsbD k := by
  unfold setRowElem pow2
  simp only [BitVec.getLsbD_or, BitVec.getLsbD_and, BitVec.getLsbD_not, BitVec.getLsbD_ofNat, hk, decide_true, Bool.true_and,
    shifted_testBit, Nat.testBit_mod_two_pow]
  by_cases h : i * w ≤ k ∧ k < i * w + w
  · have h3 : k - i * w < w := by omega
    simp [h, h3]
  · rw [if_neg h]
    by_cases h1 : i * w ≤ k
    · have h2 : ¬ k < i * w + w := fun x => h ⟨h1, x⟩
      have h3 : ¬ k - i * w < w := by omega
      simp [h1, h3]
    · simp [h1]

/-- An element read back after an element is written. -/
theorem rowElem_setRowElem {n : Nat} (r : BitVec n) (w i j v : Nat) :
    rowElem (setRowElem r w i v) w j =
      if i = j ∧ i * w + w ≤ n then v % 2 ^ w else if i = j then rowElem (setRowElem r w i v) w j else rowElem r w j := by
  by_cases e : i = j
  · subst e
    by_cases b : i * w + w ≤ n
    · rw [if_pos ⟨rfl, b⟩]
      apply Nat.eq_of_testBit_eq
      intro k
      rw [rowElem_testBit, Nat.testBit_mod_two_pow]
      by_cases hk : k < w
      · rw [setRowElem_getLsbD _ _ _ _ _ (by omega), if_pos (by omega)]
        simp [hk]
      · simp [hk]
    · rw [if_neg (fun h => b h.2), if_pos rfl]
  · rw [if_neg (fun h => e h.1), if_neg e]
    apply Nat.eq_of_testBit_eq
    intro k
    rw [rowElem_testBit, rowElem_testBit]
    by_cases hk : k < w
    · by_cases hn : j * w + k < n
      · rw [setRowElem_getLsbD _ _ _ _ _ hn, if_neg]
        rcases Nat.lt_or_gt_of_ne e with h | h
        · have := Nat.mul_le_mul_right w (Nat.succ_le_of_lt h)
          rw [Nat.succ_mul] at this
          omega
        · have := Nat.mul_le_mul_right w (Nat.succ_le_of_lt h)
          rw [Nat.succ_mul] at this
          omega
      · rw [BitVec.getLsbD_of_ge _ _ (by omega), BitVec.getLsbD_of_ge _ _ (by omega)]
    · simp [hk]

theorem rowElem_setRowElem_same {n : Nat} (r : BitVec n) (w i v : Nat) (b : i * w + w ≤ n) :
    rowElem (setRowElem r w i v) w i = v % 2 ^ w := by
  rw [rowElem_setRowElem, if_pos ⟨rfl, b⟩]

theorem rowElem_setRowElem_other {n : Nat} (r : BitVec n) (w i j v : Nat) (h : i ≠ j) :
    rowElem (setRowElem r w i v) w j = rowElem r w j := by
  rw [rowElem_setRowElem, if_neg (fun x => h x.1), if_neg h]

/-! ### Rows of a drover -/

theorem Vec.row_setRow (v : Vec) (n k : Nat) (r : RowBits) (h : n < 256) :
    (v.setRow n r).row k = if k = n then r else v.row k := by
  unfold Vec.row Vec.setRow
  simp only [h, dif_pos]
  by_cases hk : k < 256
  · simp only [hk, dif_pos]
    by_cases e : k = n
    · subst e; simp
    · rw [if_neg e, Vector.getElem_set, if_neg (fun x => e x.symm)]
  · simp only [hk, dif_neg, not_false_eq_true]
    rw [if_neg (by omega)]

theorem Vec.setRow_same (v : Vec) (n : Nat) (r : RowBits) : (v.setRow n r) = { v with rows := (v.setRow n r).rows } := by
  unfold Vec.setRow; split <;> rfl

theorem Vec.elem_setRow (v : Vec) (base m w j n : Nat) (r : RowBits) (h : n < 256) :
    (v.setRow n r).elem base m w j = if base + j % m = n then rowElem r w (j / m) else v.elem base m w j := by
  unfold Vec.elem
  rw [Vec.row_setRow _ _ _ _ h]
  split <;> rfl

/-- One element of a group written. -/
theorem Vec.elem_write (v : Vec) (base m w i j x : Nat) (hm : 0 < m) (hb : base + m ≤ 256) :
    (v.setRow (base + i % m) (setRowElem (v.row (base + i % m)) w (i / m) x)).elem base m w j =
      if i = j then (if i / m * w + w ≤ 131072 then x % 2 ^ w else
        (v.setRow (base + i % m) (setRowElem (v.row (base + i % m)) w (i / m) x)).elem base m w j) else v.elem base m w j := by
  have hi : i % m < m := Nat.mod_lt _ hm
  rw [Vec.elem_setRow _ _ _ _ _ _ _ (by omega)]
  by_cases e : i = j
  · subst e
    rw [if_pos rfl, if_pos rfl]
    by_cases b : i / m * w + w ≤ 131072
    · rw [if_pos b, rowElem_setRowElem_same _ _ _ _ b]
    · rw [if_neg b]
  · rw [if_neg e]
    by_cases h : base + j % m = base + i % m
    · rw [if_pos h]
      have hd : i / m ≠ j / m := by
        intro q
        apply e
        rw [← Nat.div_add_mod i m, ← Nat.div_add_mod j m, q, Nat.add_left_cancel h]
      rw [rowElem_setRowElem_other _ _ _ _ _ hd]
      unfold Vec.elem
      rw [h]
    · rw [if_neg h]

/-- Writing listed elements changes rows only, and none outside the group. -/
theorem Vec.setElems_same (v : Vec) (base m w : Nat) (l : List (Nat × Nat)) :
    v.setElems base m w l = { v with rows := (v.setElems base m w l).rows } := by
  unfold Vec.setElems
  induction l generalizing v with
  | nil => rfl
  | cons x r ih =>
    rw [List.foldl_cons, ih]
    rw [Vec.setRow_same]

theorem Vec.setElems_row (v : Vec) (base m w : Nat) (l : List (Nat × Nat)) (hm : 0 < m) (hb : base + m ≤ 256) (k : Nat)
    (hk : k < base ∨ base + m ≤ k) : (v.setElems base m w l).row k = v.row k := by
  unfold Vec.setElems
  induction l generalizing v with
  | nil => rfl
  | cons x r ih =>
    have hi : x.1 % m < m := Nat.mod_lt _ hm
    rw [List.foldl_cons, ih, Vec.row_setRow _ _ _ _ (by omega), if_neg (by omega)]

theorem Vec.setElems_not (v : Vec) (base m w : Nat) (l : List (Nat × Nat)) (hm : 0 < m) (hb : base + m ≤ 256) (j : Nat)
    (h : ∀ e ∈ l, e.1 ≠ j) : (v.setElems base m w l).elem base m w j = v.elem base m w j := by
  unfold Vec.setElems
  induction l generalizing v with
  | nil => rfl
  | cons x r ih =>
    rw [List.foldl_cons, ih _ (fun e he => h e (List.mem_cons_of_mem _ he)), Vec.elem_write _ _ _ _ _ _ _ hm hb,
      if_neg (h x (List.mem_cons_self))]

/-- An element listed once receives its value. -/
theorem Vec.setElems_mem (v : Vec) (base m w : Nat) (l : List (Nat × Nat)) (hm : 0 < m) (hb : base + m ≤ 256) (j x : Nat)
    (hl : (l.map (·.1)).Nodup) (h : (j, x) ∈ l) (hj : j / m * w + w ≤ 131072) :
    (v.setElems base m w l).elem base m w j = x % 2 ^ w := by
  induction l generalizing v with
  | nil => cases h
  | cons y r ih =>
    rw [List.map_cons, List.nodup_cons] at hl
    by_cases e : y = (j, x)
    · subst e
      have hn : ∀ e ∈ r, e.1 ≠ j := fun e he q => hl.1 (List.mem_map.mpr ⟨e, he, q⟩)
      have := Vec.setElems_not (v.setRow (base + j % m) (setRowElem (v.row (base + j % m)) w (j / m) x)) base m w r hm hb j hn
      unfold Vec.setElems at this ⊢
      rw [List.foldl_cons, this, Vec.elem_write _ _ _ _ _ _ _ hm hb, if_pos rfl, if_pos hj]
    · have h' : (j, x) ∈ r := (List.mem_cons.mp h).resolve_left (fun q => e q.symm)
      have := ih (v.setRow (base + y.1 % m) (setRowElem (v.row (base + y.1 % m)) w (y.1 / m) y.2)) hl.2 h'
      unfold Vec.setElems at this ⊢
      rw [List.foldl_cons]
      exact this

/-! ### Progress and the high-water mark -/

theorem Vec.pixOf_setPix (v : Vec) (n k : Nat) (p : Pix) (h : n < 256) : (v.setPix n p).pixOf k = if k = n then p else v.pixOf k := by
  unfold Vec.pixOf Vec.setPix
  simp only [h, dif_pos]
  by_cases hk : k < 256
  · simp only [hk, dif_pos]
    by_cases e : k = n
    · subst e; simp
    · rw [if_neg e, Vector.getElem_set, if_neg (fun x => e x.symm)]
  · simp only [hk, dif_neg, not_false_eq_true]
    rw [if_neg (by omega)]

theorem Vec.setPix_same (v : Vec) (n : Nat) (p : Pix) : v.setPix n p = { v with pix := (v.setPix n p).pix } := by
  unfold Vec.setPix; split <;> rfl

theorem Vec.progress_same (v : Vec) (l : List Nat) (p : Pix) : v.progress l p = { v with pix := (v.progress l p).pix } := by
  unfold Vec.progress
  induction l generalizing v with
  | nil => rfl
  | cons x r ih => rw [List.foldl_cons, ih, Vec.setPix_same]

theorem Vec.progress_pix (v : Vec) (l : List Nat) (p : Pix) (h : ∀ r ∈ l, r < 256) (k : Nat) :
    (v.progress l p).pixOf k = if k ∈ l then p else v.pixOf k := by
  unfold Vec.progress
  induction l generalizing v with
  | nil => simp
  | cons x r ih =>
    rw [List.foldl_cons, ih _ (fun y hy => h y (List.mem_cons_of_mem _ hy)), Vec.pixOf_setPix _ _ _ _ (h x List.mem_cons_self)]
    by_cases a : k ∈ r
    · simp [a]
    · by_cases b : k = x
      · simp [b]
      · simp [a, b]

theorem mem_group (base m k : Nat) : k ∈ group base m ↔ base ≤ k ∧ k < base + m := by
  unfold group
  rw [List.mem_map]
  constructor
  · rintro ⟨a, h, rfl⟩; rw [List.mem_range] at h; omega
  · intro h; exact ⟨k - base, List.mem_range.mpr (by omega), by omega⟩

theorem foldl_max (l : List Nat) (a b : Nat) (h : ∀ r ∈ l, r + 1 ≤ b) (hb : l = [] ∨ ∃ r ∈ l, r + 1 = b) :
    l.foldl (fun a r => Nat.max a (r + 1)) a = if l = [] then a else Nat.max a b := by
  have le : ∀ (l : List Nat) (a : Nat), a ≤ l.foldl (fun a r => Nat.max a (r + 1)) a := by
    intro l
    induction l with
    | nil => intro a; exact Nat.le_refl _
    | cons x r ih => intro a; exact Nat.le_trans (Nat.le_max_left _ _) (ih _)
  have up : ∀ (l : List Nat) (a : Nat), (∀ r ∈ l, r + 1 ≤ b) → l.foldl (fun a r => Nat.max a (r + 1)) a ≤ Nat.max a b := by
    intro l
    induction l with
    | nil => intro a _; exact Nat.le_max_left _ _
    | cons x r ih =>
      intro a h
      refine Nat.le_trans (ih _ (fun y hy => h y (List.mem_cons_of_mem _ hy))) ?_
      have hx := h x List.mem_cons_self
      exact Nat.max_le.mpr ⟨Nat.max_le.mpr ⟨Nat.le_max_left _ _, Nat.le_trans hx (Nat.le_max_right _ _)⟩, Nat.le_max_right _ _⟩
  have has : ∀ (l : List Nat) (a r : Nat), r ∈ l → r + 1 ≤ l.foldl (fun a r => Nat.max a (r + 1)) a := by
    intro l
    induction l with
    | nil => intro a r h; cases h
    | cons x q ih =>
      intro a r h
      rcases List.mem_cons.mp h with e | e
      · subst e; exact Nat.le_trans (Nat.le_max_right _ _) (le _ _)
      · exact ih _ r e
  by_cases e : l = []
  · subst e; rfl
  · rw [if_neg e]
    obtain ⟨r, hr, hb⟩ := hb.resolve_left e
    exact Nat.le_antisymm (up l a h) (Nat.max_le.mpr ⟨le l a, hb ▸ has l a r hr⟩)

theorem Vec.mark_same (v : Vec) (l : List Nat) (w : Nat) :
    v.mark l w = { v with hwmRows := (v.mark l w).hwmRows, hwmLanes := (v.mark l w).hwmLanes } := by
  unfold Vec.mark; split <;> rfl

theorem Vec.mark_lanes (v : Vec) (l : List Nat) (w : Nat) :
    (v.mark l w).hwmLanes = if v.vl = 0 then v.hwmLanes else Max.max v.hwmLanes ((v.vl * w + 127) / 128) := by
  unfold Vec.mark; split <;> rfl

theorem Vec.mark_rows (v : Vec) (base m w : Nat) (hm : 0 < m) :
    (v.mark (group base m) w).hwmRows = if v.vl = 0 then v.hwmRows else Max.max v.hwmRows (base + m) := by
  unfold Vec.mark
  split
  · rfl
  · show (group base m).foldl _ _ = _
    rw [foldl_max _ _ (base + m) (fun r hr => by rw [mem_group] at hr; omega)
      (Or.inr ⟨base + m - 1, (mem_group _ _ _).mpr (by omega), by omega⟩), if_neg]
    intro h
    have : base ∈ group base m := (mem_group _ _ _).mpr (by omega)
    rw [h] at this
    cases this

theorem Vec.mark_none (v : Vec) (w : Nat) : (v.mark [] w).hwmRows = v.hwmRows := by unfold Vec.mark; split <;> rfl

/-! ### Predicates -/

theorem Vec.pred_setPred (v : Vec) (n k : Nat) (p : PredBits) (h0 : n ≠ 0) (h : n < 16) :
    (v.setPred n p).pred k = if k = n then p else v.pred k := by
  unfold Vec.pred Vec.setPred
  simp only [h0, if_false, h, dif_pos]
  by_cases k0 : k = 0
  · rw [if_pos k0, if_pos k0, if_neg (by omega)]
  · rw [if_neg k0, if_neg k0]
    by_cases hk : k < 16
    · simp only [hk, dif_pos]
      by_cases e : k = n
      · subst e; simp
      · rw [if_neg e, Vector.getElem_set, if_neg (fun x => e x.symm)]
    · simp only [hk, dif_neg, not_false_eq_true]
      rw [if_neg (by omega)]

theorem Vec.setPred_same (v : Vec) (n : Nat) (p : PredBits) : v.setPred n p = { v with preds := (v.setPred n p).preds } := by
  unfold Vec.setPred; split
  · rfl
  · split <;> rfl

theorem Vec.setPbits_same (v : Vec) (n : Nat) (l : List (Nat × Nat)) : v.setPbits n l = { v with preds := (v.setPbits n l).preds } := by
  unfold Vec.setPbits; rw [Vec.setPred_same]

theorem setPbit_getLsbD (p : PredBits) (i v k : Nat) (hk : k < 32768) :
    (setRowElem p 1 i v).getLsbD k = if k = i then v.testBit 0 else p.getLsbD k := by
  rw [setRowElem_getLsbD _ _ _ _ _ hk]
  by_cases e : k = i
  · rw [if_pos (by omega), if_pos e]; congr 1; omega
  · rw [if_neg (by omega), if_neg e]

theorem foldPbits_not (l : List (Nat × Nat)) (p : PredBits) (k : Nat) (hk : k < 32768) (h : ∀ e ∈ l, e.1 ≠ k) :
    (l.foldl (fun p e => setRowElem p 1 e.1 e.2) p).getLsbD k = p.getLsbD k := by
  induction l generalizing p with
  | nil => rfl
  | cons x r ih =>
    rw [List.foldl_cons, ih _ (fun e he => h e (List.mem_cons_of_mem _ he)), setPbit_getLsbD _ _ _ _ hk,
      if_neg (fun q => h x List.mem_cons_self q.symm)]

theorem foldPbits_mem (l : List (Nat × Nat)) (p : PredBits) (k x : Nat) (hk : k < 32768) (hl : (l.map (·.1)).Nodup) (h : (k, x) ∈ l) :
    (l.foldl (fun p e => setRowElem p 1 e.1 e.2) p).getLsbD k = x.testBit 0 := by
  induction l generalizing p with
  | nil => cases h
  | cons y r ih =>
    rw [List.map_cons, List.nodup_cons] at hl
    rw [List.foldl_cons]
    by_cases e : y = (k, x)
    · subst e
      rw [foldPbits_not _ _ _ hk (fun e he q => hl.1 (List.mem_map.mpr ⟨e, he, q⟩)), setPbit_getLsbD _ _ _ _ hk, if_pos rfl]
    · exact ih _ hl.2 ((List.mem_cons.mp h).resolve_left (fun q => e q.symm))

end Sys2Proof.Machine
end

