-- ==== Sys2Proof/Laws/Vector.lean ====
section
/-! SUPPORT. How a vector form runs, said once: the loop of R159, the flags of R53, and completion of an element-wise form. -/
namespace Sys2Proof.Machine

/-! ### Flags -/

theorem raiseOne_get (v : Vector Fei 7) (n i k : Nat) (h : k < 7) (hi : i ≤ 65535) :
    (raiseOne v n i)[k] = if k = n then ⟨true, if v[k].v then Nat.min v[k].idx i else i⟩ else v[k] := by
  have e : feiIndex i = i := by unfold feiIndex; rw [if_neg (by omega)]
  unfold raiseOne
  rw [e]
  by_cases hn : n < 7
  · rw [dif_pos hn]
    by_cases q : k = n
    · subst q; simp
    · rw [if_neg q, Vector.getElem_set, if_neg (fun x => q x.symm)]
  · rw [dif_neg hn, if_neg (by omega)]

theorem raiseAll_get (l : List Nat) (v : Vector Fei 7) (i k : Nat) (h : k < 7) (hi : i ≤ 65535) (hl : l.Nodup) :
    (l.foldl (fun v n => raiseOne v n i) v)[k] =
      if k ∈ l then ⟨true, if v[k].v then Nat.min v[k].idx i else i⟩ else v[k] := by
  induction l generalizing v with
  | nil => simp
  | cons x r ih =>
    rw [List.nodup_cons] at hl
    rw [List.foldl_cons, ih _ hl.2, raiseOne_get _ _ _ _ h hi]
    by_cases e : k = x
    · subst e; simp [hl.1]
    · simp [e]

theorem flagList_nodup (f : FlagSet) : (flagList f).Nodup := by unfold flagList; exact List.Nodup.sublist List.filter_sublist List.nodup_range
theorem mem_flagList (f : FlagSet) (k : Nat) : k ∈ flagList f ↔ f.getLsbD k = true := by
  unfold flagList
  rw [List.mem_filter, List.mem_range]
  constructor
  · exact fun h => h.2
  · intro h
    refine ⟨?_, h⟩
    by_cases q : k < 7
    · exact q
    · rw [BitVec.getLsbD_of_ge _ _ (by omega)] at h; cases h

/-- The flags of elements in turn. -/
def raiseList (fl : Nat → FlagSet) (a : FlagAcc) (els : List Nat) : FlagAcc := els.foldl (fun a i => a.raise i (fl i)) a

theorem raiseList_fef (fl : Nat → FlagSet) (a : FlagAcc) (els : List Nat) (k : Nat) :
    (raiseList fl a els).fef.getLsbD k = true ↔ a.fef.getLsbD k = true ∨ ∃ i ∈ els, (fl i).getLsbD k = true := by
  unfold raiseList
  induction els generalizing a with
  | nil => simp
  | cons x r ih =>
    rw [List.foldl_cons, ih]
    have : (a.raise x (fl x)).fef = a.fef ||| fl x := by
      unfold FlagAcc.raise
      by_cases h : fl x = 0
      · rw [if_pos h, h]; simp
      · rw [if_neg h]
    rw [this, BitVec.getLsbD_or, Bool.or_eq_true]
    simp only [List.mem_cons, exists_eq_or_imp, or_assoc]

/-- FEI after elements in rising order. `base` is FEI as the first flag of the execution finds it. -/
theorem raiseList_fei (fl : Nat → FlagSet) (a : FlagAcc) (els : List Nat) (hs : els.Pairwise (· < ·)) (hb : ∀ i ∈ els, i ≤ 65535)
    (k : Nat) (h : k < 7) :
    let base : Fei := if a.raised then a.fei[k] else { a.fei[k] with v := false }
    (raiseList fl a els).fei[k] =
      match els.find? (fun i => (fl i).getLsbD k) with
      | some i => ⟨true, if base.v then Nat.min base.idx i else i⟩
      | none => if els.all (fun i => fl i == 0) then a.fei[k] else base := by
  intro base
  unfold raiseList
  induction els generalizing a with
  | nil => simp
  | cons x r ih =>
    rw [List.pairwise_cons] at hs
    rw [List.foldl_cons]
    have ih := ih (a.raise x (fl x)) hs.2 (fun i hi => hb i (List.mem_cons_of_mem _ hi))
    dsimp only at ih
    rw [ih]
    by_cases h0 : fl x = 0
    · have hr : a.raise x (fl x) = a := by unfold FlagAcc.raise; rw [if_pos h0]
      have hx : (fl x).getLsbD k = false := by rw [h0]; simp
      rw [hr, List.find?_cons_of_neg (p := fun i => (fl i).getLsbD k) (by rw [hx]; decide), List.all_cons]
      simp [h0, base]
    · have hra : (a.raise x (fl x)).raised = true := by unfold FlagAcc.raise; rw [if_neg h0]
      have hfe : (a.raise x (fl x)).fei[k] = if (fl x).getLsbD k = true then ⟨true, if base.v then Nat.min base.idx x else x⟩ else base := by
        unfold FlagAcc.raise
        rw [if_neg h0]
        dsimp only
        rw [raiseAll_get _ _ _ _ h (hb x List.mem_cons_self) (flagList_nodup _)]
        have hbase : (if a.raised = true then a.fei else Vector.map (fun e : Fei => { e with v := false }) a.fei)[k] = base := by
          dsimp only [base]
          by_cases q : a.raised = true
          · simp only [q, if_true]
          · simp only [q]; simp
        rw [hbase]
        simp only [mem_flagList]
      rw [hra, if_pos rfl, hfe]
      by_cases hk : (fl x).getLsbD k = true
      · rw [List.find?_cons_of_pos (p := fun i => (fl i).getLsbD k) hk]
        rw [if_pos hk]
        dsimp only
        cases hf : r.find? (fun i => (fl i).getLsbD k) with
        | none => simp
        | some i =>
          have hi : x < i := hs.1 i (List.mem_of_find?_eq_some hf)
          dsimp only
          rw [if_pos rfl]
          congr 1
          split
          · apply Nat.min_eq_left; exact Nat.le_trans (Nat.min_le_right _ _) (Nat.le_of_lt hi)
          · apply Nat.min_eq_left; exact Nat.le_of_lt hi
      · rw [List.find?_cons_of_neg (p := fun i => (fl i).getLsbD k) hk, if_neg hk, List.all_cons]
        have : (fl x == 0) = false := by simpa using h0
        rw [this]
        cases r.find? (fun i => (fl i).getLsbD k) <;> simp

/-- The elements an instruction runs over. -/
def elementsFrom (e0 n : Nat) : List Nat := (List.range n).filter (fun i => decide (e0 ≤ i))

theorem mem_elementsFrom (e0 n i : Nat) : i ∈ elementsFrom e0 n ↔ e0 ≤ i ∧ i < n := by
  unfold elementsFrom; rw [List.mem_filter, List.mem_range]; simp [and_comm]

theorem elementsFrom_sorted (e0 n : Nat) : (elementsFrom e0 n).Pairwise (· < ·) := by
  unfold elementsFrom; exact List.Pairwise.filter _ List.pairwise_lt_range

theorem elementsFrom_nodup (e0 n : Nat) : (elementsFrom e0 n).Nodup := by
  unfold elementsFrom; exact List.Nodup.sublist List.filter_sublist List.nodup_range

/-- THE FLAGS OF R53 as the loop leaves them. -/
theorem raised_of (d t : Drover) (e0 n : Nat) (fl : Nat → FlagSet) (hq : d.raised = false) (hn : n ≤ 65535)
    (hf : t.fef = (raiseList fl d.flags (elementsFrom e0 n)).fef) (hi : t.fei = (raiseList fl d.flags (elementsFrom e0 n)).fei) :
    Raised d t e0 n fl := by
  have hr : d.flags.raised = d.resumesPart := by unfold Drover.flags; rw [hq]; rfl
  have fei := raiseList_fei fl d.flags (elementsFrom e0 n) (elementsFrom_sorted _ _)
    (fun i h => by rw [mem_elementsFrom] at h; omega)
  have find : ∀ k, (∀ i, e0 ≤ i → i < n → (fl i).getLsbD k = false) → (elementsFrom e0 n).find? (fun i => (fl i).getLsbD k) = none := by
    intro k h
    rw [List.find?_eq_none]
    intro i hi
    rw [mem_elementsFrom] at hi
    rw [h i hi.1 hi.2]; decide
  constructor
  · intro k
    rw [hf, raiseList_fef]
    simp only [mem_elementsFrom]
    constructor
    · rintro (h | ⟨i, ⟨a, b⟩, c⟩)
      · exact Or.inl h
      · exact Or.inr ⟨i, a, b, c⟩
    · rintro (h | ⟨i, a, b, c⟩)
      · exact Or.inl h
      · exact Or.inr ⟨i, ⟨a, b⟩, c⟩
  · intro h
    rw [hi]
    apply Vector.ext
    intro k hk
    rw [fei k hk, find k (fun i a b => by rw [h i a b]; simp)]
    dsimp only
    rw [if_pos]
    · rfl
    · rw [List.all_eq_true]
      intro i hi
      rw [mem_elementsFrom] at hi
      rw [h i hi.1 hi.2]; rfl
  · intro k hk i a b c m
    have hfind : (elementsFrom e0 n).find? (fun i => (fl i).getLsbD k) = some i := by
      cases hf : (elementsFrom e0 n).find? (fun i => (fl i).getLsbD k) with
      | none =>
        rw [List.find?_eq_none] at hf
        exact absurd c (hf i ((mem_elementsFrom _ _ _).mpr ⟨a, b⟩))
      | some j =>
        have hj := List.find?_some hf
        have hm := (mem_elementsFrom _ _ _).mp (List.mem_of_find?_eq_some hf)
        rcases Nat.lt_trichotomy j i with q | q | q
        · rw [m j hm.1 q] at hj; cases hj
        · rw [q]
        · obtain ⟨_, l1, l2, he, hl⟩ := List.find?_eq_some_iff_append.mp hf
          have hs := elementsFrom_sorted e0 n
          rw [he] at hs
          have hmem : i ∈ l1 ++ j :: l2 := by rw [← he]; exact (mem_elementsFrom _ _ _).mpr ⟨a, b⟩
          rcases List.mem_append.mp hmem with hx | hx
          · have := hl i hx
            rw [c] at this; cases this
          · rcases List.mem_cons.mp hx with hy | hy
            · rw [hy]
            · have := (List.pairwise_cons.mp (List.pairwise_append.mp hs).2.1).1 i hy
              omega
    rw [hi, fei k hk, hfind, hr]
    dsimp only [Drover.flags]
    cases d.resumesPart <;> simp
  · rintro k hk ⟨i, a, b, c⟩ h
    rw [hi, fei k hk, find k h, hr]
    dsimp only
    rw [if_neg]
    · show (if d.resumesPart = true then d.fei[k] else _) = _
      cases d.resumesPart <;> simp [Drover.flags]
    · intro q
      rw [List.all_eq_true] at q
      have := q i ((mem_elementsFrom _ _ _).mpr ⟨a, b⟩)
      exact c (by simpa using this)

/-! ### The loop of R159 -/

/-- What one element contributes. -/
def elementOut (act : Nat → Bool) (zero : Bool) (res : Nat → Nat × FlagSet) (i : Nat) : Option (Nat × Nat) :=
  if act i then some (i, (res i).1) else if zero then some (i, 0) else none

/-- A loop that nothing stops. -/
theorem Loop.run_map (c : LoopCtx) (act : Env → Nat → Bool) (zero : Bool) (res : Env → Nat → Nat × FlagSet) (l : Loop) (els : List Nat)
    (hb : c.F.body = .map act zero res) (hp : c.popStop = none) (hq : c.push = none) (he : ∀ i ∈ els, c.ecc i = false)
    (hb2 : ∀ i ∈ els, c.eccBit i = false) (hs : l.stop = none)
    (hn : ∀ i ∈ els, act c.e i = true → c.enabled (res c.e i).2 = false) :
    l.run c els = { l with
      out := (els.filterMap (elementOut (act c.e) (zero && c.mp) (res c.e))).reverse ++ l.out
      flags := raiseList (fun i => if act c.e i then (res c.e i).2 else 0) l.flags els } := by
  induction els generalizing l with
  | nil => rfl
  | cons i r ih =>
    have h1 : l.elem c i = { l with
        out := (match elementOut (act c.e) (zero && c.mp) (res c.e) i with | some x => x :: l.out | none => l.out)
        flags := l.flags.raise i (if act c.e i then (res c.e i).2 else 0) } := by
      unfold Loop.elem Loop.elemAt Loop.put Body.acts Body.step Body.zeroing elementOut
      rw [hp, hb, hq, hb2 i List.mem_cons_self]
      dsimp only
      rw [if_neg (show ¬ (false = true) by decide)]
      by_cases ha : act c.e i = true
      · rw [if_pos ha, if_pos ha, if_pos ha, he i List.mem_cons_self, hn i List.mem_cons_self ha]
        simp
      · rw [if_neg ha, if_neg ha, if_neg ha]
        have h0 : l.flags.raise i 0 = l.flags := by unfold FlagAcc.raise; rw [if_pos rfl]
        rw [h0]
        by_cases hz : (zero && c.mp) = true
        · rw [if_pos hz, if_pos hz]
        · rw [if_neg hz, if_neg hz]
    unfold Loop.run
    rw [hs]
    dsimp only
    rw [h1, ih _ (fun j hj => he j (List.mem_cons_of_mem _ hj)) (fun j hj => hb2 j (List.mem_cons_of_mem _ hj)) (by exact hs) (fun j hj => hn j (List.mem_cons_of_mem _ hj))]
    unfold raiseList
    rw [List.foldl_cons, List.filterMap_cons]
    cases elementOut (act c.e) (zero && c.mp) (res c.e) i <;> simp [hs]

theorem out_fst (act : Nat → Bool) (zero : Bool) (res : Nat → Nat × FlagSet) (els : List Nat) :
    (els.filterMap (elementOut act zero res)).map (·.1) = els.filter (fun i => act i || zero) := by
  induction els with
  | nil => rfl
  | cons x r ih =>
    rw [List.filterMap_cons]
    unfold elementOut at ih ⊢
    cases ha : act x <;> cases zero <;> simp_all

theorem mem_out (act : Nat → Bool) (zero : Bool) (res : Nat → Nat × FlagSet) (els : List Nat) (i x : Nat) :
    (i, x) ∈ els.filterMap (elementOut act zero res) ↔ i ∈ els ∧ elementOut act zero res i = some (i, x) := by
  rw [List.mem_filterMap]
  constructor
  · rintro ⟨j, hj, h⟩
    have : j = i := by
      unfold elementOut at h
      split at h
      · exact (congrArg Prod.fst (Option.some.inj h) :)
      · split at h
        · exact (congrArg Prod.fst (Option.some.inj h) :)
        · cases h
    subst this
    exact ⟨hj, h⟩
  · rintro ⟨h, e⟩; exact ⟨i, h, e⟩

/-! ### A ready drover -/

theorem State.held_ready (s : State) (k : State → Res) (h : s.cur.VectorReady) : s.held k = k s := by
  unfold State.held State.onBreak
  simp [h.noRun, h.noStop]

theorem Drover.advance_none (d : Drover) (rows : List Nat) (h : d.streams = []) : d.advanceStreams rows = d := by
  unfold Drover.advanceStreams; rw [h, List.map_nil]; rw [← h]

theorem Drover.eccWritten_none (d : Drover) (k r w : Nat) (els : List Nat) (h : d.ecc = []) : d.eccWritten k r w els = d := by
  unfold Drover.eccWritten; rw [h]; rfl

theorem Drover.eccWritten_rows (d : Drover) (k : Nat) (w : Drover → Nat) (els : Drover → Nat → List Nat) (rows : List Nat) (h : d.ecc = []) :
    rows.foldl (fun d r => d.eccWritten k r (w d) (els d r)) d = d := by
  induction rows with
  | nil => rfl
  | cons x r ih => rw [List.foldl_cons, Drover.eccWritten_none _ _ _ _ _ h, ih]

theorem State.popRows_none (s : State) (rows : List Nat) (els : Nat → List Nat) (h : s.cur.streams = []) :
    s.popRows rows els = ⟨s, [], none⟩ := by
  unfold State.popRows
  generalize rows.eraseDups = l
  have : ∀ (l : List Nat), l.foldl (fun (p : Pops) row =>
    match s.cur.stream row with
    | none => p
    | some t =>
      let r := readElems (fun s i => s.popElem t (t.pos + i)) (els row) ⟨p.s, [], none⟩
      { s := r.s, vals := p.vals ++ [(row, r.vals)]
        stop := match p.stop, r.stop with
          | none, x => x
          | x, none => x
          | some x, some y => if y.1 < x.1 then some y else some x }) ⟨s, [], none⟩ = ⟨s, [], none⟩ := by
    intro l
    induction l with
    | nil => rfl
    | cons x r ih =>
      rw [List.foldl_cons]
      have : s.cur.stream x = none := by unfold Drover.stream; rw [h]; rfl
      rw [this]
      exact ih
  exact this l

theorem Drover.streamBad_none (d : Drover) (a b : List Nat) (h : d.streams = []) : d.streamBad a b = false := by
  unfold Drover.streamBad; rw [h]; rfl

theorem Vec.elemP_nil (v : Vec) (base m w i : Nat) : v.elemP [] base m w i = v.elem base m w i := rfl

/-! ### Completion of an element-wise form -/

/-- The checks a form passes on a ready drover. -/
structure FormFits (d : Drover) (F : VForm) (x : VArgs) : Prop where
  bad : d.formBad F x = false
  rows : ∀ r ∈ d.rowsRead F x ++ d.rowsD F x, r < d.rowsAlloc

theorem Drover.formTrap_none (d : Drover) (F : VForm) (x : VArgs) (h : d.VectorReady) (f : FormFits d F x) : d.formTrap F x = none := by
  unfold Drover.formTrap Drover.unready Drover.outside
  rw [h.typed, h.configured, f.bad]
  have : (d.rowsRead F x ++ d.rowsD F x).any (fun r => decide (r ≥ d.rowsAlloc)) = false := by
    rw [List.any_eq_false]
    intro r hr
    have := f.rows r hr
    simp; omega
  rw [this]
  rfl

theorem elementsFrom_zero (n : Nat) : elementsFrom 0 n = List.range n := by
  unfold elementsFrom; rw [List.filter_eq_self]; intro i _; simp

theorem Drover.eccBit_none (d : Drover) (F : VForm) (x : VArgs) (e : Env) (i : Nat) (h : d.ecc = []) : d.eccBit F x e i = false := by
  unfold Drover.eccBit; rw [h]; rfl

theorem Drover.eccElem_none (d : Drover) (F : VForm) (x : VArgs) (e : Env) (i : Nat) (h : d.ecc = []) : d.eccElem F x e i = false := by
  unfold Drover.eccElem; rw [h]; rfl

theorem Drover.stream_none (d : Drover) (r : Nat) (h : d.streams = []) : d.stream r = none := by
  unfold Drover.stream; rw [h]; rfl

theorem State.pushWhole_none (s : State) (d : Drover) (r : Nat) (l : List (Nat × Nat)) (h : d.streams = []) : s.pushWhole d r l = (s, none) := by
  unfold State.pushWhole; rw [Drover.stream_none d r h]

/-- The state an element-wise form leaves. -/
theorem effectForm_map (s : State) (F : VForm) (x : VArgs) (act : Env → Nat → Bool) (zero : Bool) (res : Env → Nat → Nat × FlagSet)
    (hb : F.body = .map act zero res) (hc : F.useC ≠ .seed) (h : s.cur.VectorReady)
    (hn : ∀ i, s.cur.formStart F x ≤ i → i < s.cur.vec.vl → act (s.cur.env F x []) i = true →
      s.cur.fee &&& (res (s.cur.env F x []) i).2 = 0) :
    let d := s.cur
    let e := d.env F x []
    let els := elementsFrom (d.formStart F x) d.vec.vl
    s.effectForm F x = s.complete (d.commit F x
      { s := s, out := (els.filterMap (elementOut (act e) (zero && vtyMp d.vec.vty) (res e))).reverse, carries := []
        flags := raiseList (fun i => if act e i then (res e i).2 else 0) d.flags els, stop := none } true d.vec.vl) := by
  intro d e els
  unfold State.effectForm
  dsimp only
  rw [State.popRows_none _ _ _ h.noStreams]
  dsimp only
  rw [ite_self]
  have hw : (F.useC == FieldUse.seed) = false := by
    cases hh : F.useC <;> simp_all
  have run : ∀ (l0 : List Nat), (∀ i ∈ l0, i ∈ els) → Loop.run
      { F := F, e := d.env F x [], mp := vtyMp d.vec.vty, enabled := d.enabled, ecc := fun i => d.eccElem F x (d.env F x []) i
        eccBit := fun i => d.eccBit F x (d.env F x []) i, popStop := none
        push := if (F.dstPred || F.whole) = true then none else d.stream (d.phys x.a) }
      { s := s, out := [], carries := [], flags := d.flags, stop := none } l0 =
      { s := s, out := (l0.filterMap (elementOut (act e) (zero && vtyMp d.vec.vty) (res e))).reverse, carries := []
        flags := raiseList (fun i => if act e i then (res e i).2 else 0) d.flags l0, stop := none } := by
    intro l0 hl
    rw [Loop.run_map _ act zero res _ _ (by exact hb) rfl]
    · dsimp only
      rw [List.append_nil]
    · show (if (F.dstPred || F.whole) = true then none else _) = none
      rw [Drover.stream_none _ _ h.noStreams, ite_self]
    · exact fun i _ => Drover.eccElem_none _ _ _ _ _ h.noErrors
    · exact fun i _ => Drover.eccBit_none _ _ _ _ _ h.noErrors
    · rfl
    · intro i hi ha
      have hi := (mem_elementsFrom _ _ _).mp (hl i hi)
      show (s.cur.fee &&& _ != 0) = false
      rw [hn i hi.1 hi.2 ha]; rfl
  rw [hw]
  simp only [Bool.false_eq_true, if_false]
  by_cases hwh : F.whole = true
  · have he : els = List.range d.vec.vl := by
      show elementsFrom (d.formStart F x) _ = _
      have : d.formStart F x = 0 := by unfold Drover.formStart; rw [if_pos hwh]
      rw [this, elementsFrom_zero]
    rw [if_pos hwh, run _ (fun i hi => by rw [he]; exact hi)]
    dsimp only
    rw [State.pushWhole_none _ _ _ _ h.noStreams]
    dsimp only
    rw [Drover.stream_none _ _ h.noStreams, he]
    rfl
  · rw [if_neg hwh, run (List.filter (fun i => decide (s.cur.formStart F x ≤ i)) (List.range s.cur.vec.vl)) (fun i hi => hi)]
    rfl

theorem runForm_effect (s : State) (F : VForm) (x : VArgs) (h : s.cur.VectorReady) (f : FormFits s.cur F x)
    (hp : F.dstPred = true → writesPred x.a = true) : runForm F x s = s.effectForm F x := by
  unfold runForm
  rw [State.held_ready _ _ h, Drover.formTrap_none _ _ _ h f]
  cases hd : F.dstPred with
  | false => rfl
  | true => rw [hp hd]; rfl

/-- The vector registers after a form's loop. -/
def Drover.commitVec (d : Drover) (F : VForm) (x : VArgs) (l : Loop) (e : Nat) : Vec :=
  let dst := d.rowsD F x
  let v := if F.dstPred then d.vec.setPbits x.a.toNat l.out else d.vec.setElems (d.phys x.a) (F.md d.vfmt) (F.wd d.vfmt) l.out
  let v := if F.useC == .carry then v.setElems (d.phys x.c) 1 d.vw l.carries else v
  (v.progress dst ⟨true, e⟩).mark dst d.vw

theorem Drover.commit_eq (d : Drover) (F : VForm) (x : VArgs) (l : Loop) (e : Nat) (hs : d.streams = []) (he : d.ecc = []) :
    ∃ o, d.commit F x l true e =
      { d with
        vec := d.commitVec F x l e, fef := l.flags.fef, fei := l.flags.fei, raised := l.flags.raised, occupied := o
        ppix := if F.dstPred then (d.setPpix x.a.toNat ⟨true, e⟩).ppix else d.ppix } := by
  unfold Drover.commit Drover.commitVec
  dsimp only
  cases hp : F.dstPred
  · rw [Drover.eccWritten_rows _ _ (fun d => F.wd d.vfmt) (fun d r =>
        ((l.out.map (·.1)).filter (fun i => d.phys x.a + i % F.md d.vfmt == r)).map (· / F.md d.vfmt)) _ (by exact he)]
    simp only [if_true, Bool.false_eq_true, if_false]
    rw [Drover.advance_none _ _ (by exact hs)]
    exact ⟨_, rfl⟩
  · simp only [if_true]
    unfold Drover.setPpix
    split <;> (rw [Drover.eccWritten_none _ _ _ _ _ (by exact he), Drover.advance_none _ _ (by exact hs)]; exact ⟨_, rfl⟩)

/-- Completion with vector state and flags changed. -/
theorem vecDone_of (s : State) (v : Vec) (a : FlagAcc) (o : List (Nat × LaneCount)) (pp : Vector Pix 16)
    (hv : v = { s.cur.vec with rows := v.rows, preds := v.preds, pix := v.pix, hwmRows := v.hwmRows, hwmLanes := v.hwmLanes }) :
    let d := { s.cur with vec := v, fef := a.fef, fei := a.fei, raised := a.raised, occupied := o, ppix := pp }
    VecDone s (s.setCur d.retire) pp ∧ (s.setCur d.retire).cur.vec = v ∧ (s.setCur d.retire).cur.fef = a.fef ∧
      (s.setCur d.retire).cur.fei = a.fei := by
  intro d
  have c := s.completes_complete d rfl rfl rfl
  have e1 : (s.setCur d.retire).cur.vec = v := by simp [d]
  have e2 : (s.setCur d.retire).cur.fef = a.fef := by simp [d]
  have e3 : (s.setCur d.retire).cur.fei = a.fei := by simp [d]
  have e4 : (s.setCur d.retire).cur.occupied = o := by simp [d]
  refine ⟨⟨?_, ?_⟩, e1, e2, e3⟩
  · exact c.of_eq (by rw [e1, e2, e3, e4]; rfl) (fun r => rfl) rfl
  · rw [e1]; exact hv

theorem find_out (act : Nat → Bool) (zero : Bool) (res : Nat → Nat × FlagSet) (e0 n : Nat) :
    (((elementsFrom e0 n).filterMap (elementOut act zero res)).reverse.map (·.1)).Nodup := by
  unfold List.Nodup
  rw [List.map_reverse, List.pairwise_reverse, out_fst]
  exact (List.Nodup.sublist List.filter_sublist (elementsFrom_nodup e0 n)).imp (fun h => h.symm)

/-- ELEMENT-WISE FORMS (R157 to R159). -/
theorem elementwise_of {i : Instr} {s : State} {F : VForm} {x : VArgs} {act : Env → Nat → Bool} {zero : Bool}
    {res : Env → Nat → Nat × FlagSet} (hx : exec i s = runForm F x s) (hb : F.body = .map act zero res) (hp : F.dstPred = false)
    (hc : F.useC ≠ .seed) (hc2 : F.useC ≠ .carry) {src : List Nat} (hbad : s.cur.VectorReady → s.cur.formBad F x = false)
    (hsrc : ∀ r ∈ s.cur.rowsRead F x, r ∈ src ++ group (s.cur.phys x.a) (F.md s.cur.vfmt))
    (hw : 4 ≤ F.wd s.cur.vfmt) (hm : 0 < F.md s.cur.vfmt) (hvw : 4 ≤ s.cur.vw)
    (hlen : s.cur.VectorReady → ∀ j < s.cur.vec.vl, j / F.md s.cur.vfmt * F.wd s.cur.vfmt + F.wd s.cur.vfmt ≤ 131072) :
    Elementwise i s x.a src (act (s.cur.env F x [])) (zero && vtyMp s.cur.vec.vty) F.whole (F.md s.cur.vfmt) (F.wd s.cur.vfmt)
      (res (s.cur.env F x [])) := by
  unfold Elementwise
  intro d dst e0 ready rows quiet
  change 0 < F.md d.vfmt at hm
  have hwd : 0 < F.wd d.vfmt := Nat.lt_of_lt_of_le (by decide) hw
  have hD : d.rowsD F x = group dst (F.md d.vfmt) := by
    unfold Drover.rowsD
    have : (F.useC == FieldUse.carry) = false := by simpa using hc2
    rw [hp, this]; simp [dst]
  have fits : FormFits d F x := ⟨hbad ready, fun r hr => by
    rcases List.mem_append.mp hr with h | h
    · exact rows r (hsrc r h)
    · rw [hD] at h; exact rows r (List.mem_append_right _ h)⟩
  have e0h : d.formStart F x = e0 := by unfold Drover.formStart; rw [hp, hD]; rfl
  have heff := effectForm_map s F x act zero res hb hc ready (by rw [e0h]; exact quiet)
  dsimp only at heff
  rw [e0h] at heff
  generalize hl : ({ s := s, out := _, carries := [], flags := _, stop := none } : Loop) = l at heff
  obtain ⟨o, ho⟩ := Drover.commit_eq d F x l d.vec.vl ready.noStreams ready.noErrors
  have hbase : dst + F.md d.vfmt ≤ 256 := by
    have hin : dst + F.md d.vfmt - 1 ∈ group dst (F.md d.vfmt) := (mem_group _ _ _).mpr (by omega)
    have := rows (dst + F.md d.vfmt - 1) (List.mem_append_right _ hin)
    have := ready.alloc
    omega
  have hvec : d.commitVec F x l d.vec.vl =
      ((d.vec.setElems dst (F.md d.vfmt) (F.wd d.vfmt) l.out).progress (group dst (F.md d.vfmt)) ⟨true, d.vec.vl⟩).mark
        (group dst (F.md d.vfmt)) d.vw := by
    unfold Drover.commitVec
    have : (F.useC == FieldUse.carry) = false := by simpa using hc2
    dsimp only
    rw [this, hp, hD]
    rfl
  have hrow : ∀ r, (d.commitVec F x l d.vec.vl).row r = (d.vec.setElems dst (F.md d.vfmt) (F.wd d.vfmt) l.out).row r := by
    intro r; rw [hvec, Vec.mark_same, Vec.progress_same]; rfl
  have helem : ∀ j, (d.commitVec F x l d.vec.vl).elem dst (F.md d.vfmt) (F.wd d.vfmt) j =
      (d.vec.setElems dst (F.md d.vfmt) (F.wd d.vfmt) l.out).elem dst (F.md d.vfmt) (F.wd d.vfmt) j := by
    intro j; unfold Vec.elem; rw [hrow]
  have hsame := Vec.setElems_same d.vec dst (F.md d.vfmt) (F.wd d.vfmt) l.out
  have hvl : (d.vec.setElems dst (F.md d.vfmt) (F.wd d.vfmt) l.out).vl = d.vec.vl := by rw [hsame]
  have done := vecDone_of s (d.commitVec F x l d.vec.vl) l.flags o d.ppix (by
    rw [hvec, Vec.mark_same, Vec.progress_same, hsame])
  obtain ⟨hdone, v1, v2, v3⟩ := done
  have hout : l.out = ((elementsFrom e0 d.vec.vl).filterMap (elementOut (act (d.env F x [])) (zero && vtyMp d.vec.vty) (res (d.env F x [])))).reverse := by
    rw [← hl]
  have hflags : l.flags = raiseList (fun i => if act (d.env F x []) i then (res (d.env F x []) i).2 else 0) d.flags (elementsFrom e0 d.vec.vl) := by
    rw [← hl]
  refine ⟨_, ?_, hdone, ?_, ?_⟩
  · rw [hx, runForm_effect s F x ready fits (fun h => by rw [hp] at h; cases h), heff]
    show s.complete (d.commit F x l true d.vec.vl) = _
    rw [ho, hp]; rfl
  · constructor
    · intro j h0 h1
      show Vec.elem (State.cur _).vec _ _ _ _ = _
      rw [v1, helem]
      have hmem : ∀ v, elementOut (act (d.env F x [])) (zero && vtyMp d.vec.vty) (res (d.env F x [])) j = some (j, v) → (j, v) ∈ l.out := by
        intro v hv
        rw [hout, List.mem_reverse, mem_out]
        exact ⟨(mem_elementsFrom _ _ _).mpr ⟨h0, h1⟩, hv⟩
      have hnd : (l.out.map (·.1)).Nodup := by rw [hout]; exact find_out _ _ _ _ _
      unfold elementOut at hmem
      by_cases ha : act (d.env F x []) j = true
      · rw [if_pos ha]
        exact Vec.setElems_mem _ _ _ _ _ hm hbase _ _ hnd (hmem _ (by rw [if_pos ha])) (hlen ready j h1)
      · rw [if_neg ha]
        by_cases hz : (zero && vtyMp d.vec.vty) = true
        · rw [if_pos hz, Vec.setElems_mem _ _ _ _ _ hm hbase j 0 hnd (hmem _ (by rw [if_neg ha, if_pos hz])) (hlen ready j h1)]
          exact Nat.zero_mod _
        · rw [if_neg hz]
          refine Vec.setElems_not _ _ _ _ _ hm hbase _ ?_
          intro e he
          rw [hout, List.mem_reverse] at he
          obtain ⟨k, v⟩ := e
          rw [mem_out] at he
          intro q
          change k = j at q
          subst q
          have := he.2
          unfold elementOut at this
          rw [if_neg ha, if_neg hz] at this
          cases this
    · intro j hj
      show Vec.elem (State.cur _).vec _ _ _ _ = _
      rw [v1, helem]
      refine Vec.setElems_not _ _ _ _ _ hm hbase _ ?_
      intro e he
      rw [hout, List.mem_reverse] at he
      obtain ⟨k, v⟩ := e
      rw [mem_out, mem_elementsFrom] at he
      intro q
      change k = j at q
      change j < e0 ∨ d.vec.vl ≤ j at hj
      omega
    · intro r hr
      show Vec.row (State.cur _).vec _ = _
      rw [v1, hrow, Vec.setElems_row _ _ _ _ _ hm hbase _ hr]
    · rw [v1, hvec, Vec.mark_same, Vec.progress_same, hsame]
    · intro r
      rw [v1, hvec, Vec.mark_same]
      show Vec.pixOf (Vec.progress _ _ _) r = _
      rw [Vec.progress_pix _ _ _ (fun q hq => by rw [mem_group] at hq; omega)]
      simp only [mem_group]
      have : ∀ r, (d.vec.setElems dst (F.md d.vfmt) (F.wd d.vfmt) l.out).pixOf r = d.vec.pixOf r := by
        intro r; rw [hsame]; rfl
      rw [this]
    · rw [v1, hvec, Vec.mark_rows _ _ _ _ hm, Vec.progress_same, hsame]
    · rw [v1, hvec, Vec.mark_lanes, Vec.progress_same, hsame]
  · refine raised_of _ _ _ _ _ ready.quiet ?_ (by rw [v2, hflags]) (by rw [v3, hflags])
    have h1 : d.vec.vl * d.vw ≤ 131072 := ready.length
    have : d.vec.vl * 4 ≤ d.vec.vl * d.vw := Nat.mul_le_mul_left _ hvw
    omega

theorem toNat_testBit (b : Bool) : b.toNat.testBit 0 = b := by cases b <;> rfl

/-- FORMS WITH A PREDICATE DESTINATION (R164). -/
theorem elementcheck_of {i : Instr} {s : State} {F : VForm} {x : VArgs} {act : Env → Nat → Bool}
    {res : Env → Nat → Bool × FlagSet} (hx : exec i s = runForm F x s)
    (hb : F.body = .map act true (fun e j => ((res e j).1.toNat, (res e j).2))) (hp : F.dstPred = true)
    (hc : F.useC ≠ .seed) (hc2 : F.useC ≠ .carry) (hwhole : F.whole = false) {src : List Nat} (hbad : s.cur.VectorReady → s.cur.formBad F x = false)
    (hsrc : ∀ r ∈ s.cur.rowsRead F x, r ∈ src) (hvw : 4 ≤ s.cur.vw) :
    Elementcheck i s x.a src (act (s.cur.env F x [])) (res (s.cur.env F x [])) := by
  unfold Elementcheck
  intro d e0 ready ha1 ha2 rows quiet
  have hD : d.rowsD F x = [] := by
    unfold Drover.rowsD
    have : (F.useC == FieldUse.carry) = false := by simpa using hc2
    rw [hp, this]; rfl
  have fits : FormFits d F x := ⟨hbad ready, fun r hr => by
    rw [hD, List.append_nil] at hr
    exact rows r (hsrc r hr)⟩
  have e0h : d.formStart F x = e0 := by unfold Drover.formStart; rw [hwhole, hp]; rfl
  have heff := effectForm_map s F x act true _ hb hc ready (by rw [e0h]; exact quiet)
  dsimp only at heff
  rw [e0h, Bool.true_and] at heff
  generalize hl : ({ s := s, out := _, carries := [], flags := _, stop := none } : Loop) = l at heff
  obtain ⟨o, ho⟩ := Drover.commit_eq d F x l d.vec.vl ready.noStreams ready.noErrors
  have hvec : d.commitVec F x l d.vec.vl = (d.vec.setPbits x.a.toNat l.out).mark [] d.vw := by
    unfold Drover.commitVec
    have : (F.useC == FieldUse.carry) = false := by simpa using hc2
    dsimp only
    rw [this, hp, hD]
    rfl
  have hsame := Vec.setPbits_same d.vec x.a.toNat l.out
  obtain ⟨hdone, v1, v2, v3⟩ := vecDone_of s (d.commitVec F x l d.vec.vl) l.flags o (s.predDone x.a) (by rw [hvec, Vec.mark_same, hsame])
  have hout : l.out = ((elementsFrom e0 d.vec.vl).filterMap (elementOut (act (d.env F x [])) (vtyMp d.vec.vty)
      (fun j => ((res (d.env F x []) j).1.toNat, (res (d.env F x []) j).2)))).reverse := by
    rw [← hl]
  have hflags : l.flags = raiseList (fun i => if act (d.env F x []) i then (res (d.env F x []) i).2 else 0) d.flags (elementsFrom e0 d.vec.vl) := by
    rw [← hl]
  have hpred : ∀ q, (d.commitVec F x l d.vec.vl).pred q =
      if q = x.a.toNat then l.out.foldl (fun p e => setRowElem p 1 e.1 e.2) (d.vec.pred x.a.toNat) else d.vec.pred q := by
    intro q
    rw [hvec, Vec.mark_same]
    show (d.vec.setPbits x.a.toNat l.out).pred q = _
    unfold Vec.setPbits
    rw [Vec.pred_setPred _ _ _ _ (by omega) (by omega)]
  have hvl : d.vec.vl ≤ 32768 := by
    have h1 : d.vec.vl * d.vw ≤ 131072 := ready.length
    have : d.vec.vl * 4 ≤ d.vec.vl * d.vw := Nat.mul_le_mul_left _ hvw
    omega
  refine ⟨_, ?_, hdone, ?_, ?_⟩
  · rw [hx, runForm_effect s F x ready fits (fun _ => by unfold writesPred; simp; omega), heff]
    show s.complete (d.commit F x l true d.vec.vl) = _
    rw [ho, hp]; rfl
  · constructor
    · intro j
      unfold Vec.pbit
      rw [v1, hpred, if_pos rfl]
      by_cases hj : j < 32768
      · by_cases hin : e0 ≤ j ∧ j < d.vec.vl
        · rw [if_pos hin]
          have hmem : ∀ v, elementOut (act (d.env F x [])) (vtyMp d.vec.vty)
              (fun j => ((res (d.env F x []) j).1.toNat, (res (d.env F x []) j).2)) j = some (j, v) → (j, v) ∈ l.out := by
            intro v hv
            rw [hout, List.mem_reverse, mem_out]
            exact ⟨(mem_elementsFrom _ _ _).mpr hin, hv⟩
          have hnd : (l.out.map (·.1)).Nodup := by rw [hout]; exact find_out _ _ _ _ _
          unfold elementOut at hmem
          by_cases ha : act (d.env F x []) j = true
          · rw [if_pos ha, foldPbits_mem _ _ _ _ hj hnd (hmem _ (by rw [if_pos ha])), toNat_testBit]
          · rw [if_neg ha]
            by_cases hz : vtyMp d.vec.vty = true
            · rw [if_pos hz, foldPbits_mem _ _ _ 0 hj hnd (hmem _ (by rw [if_neg ha, if_pos hz]))]
              rfl
            · rw [if_neg hz]
              refine foldPbits_not _ _ _ hj ?_
              intro e he
              rw [hout, List.mem_reverse] at he
              obtain ⟨k, v⟩ := e
              rw [mem_out] at he
              intro q
              change k = j at q
              subst q
              have := he.2
              unfold elementOut at this
              rw [if_neg ha, if_neg hz] at this
              cases this
        · rw [if_neg hin]
          refine foldPbits_not _ _ _ hj ?_
          intro e he
          rw [hout, List.mem_reverse] at he
          obtain ⟨k, v⟩ := e
          rw [mem_out, mem_elementsFrom] at he
          intro q
          change k = j at q
          subst q
          exact hin he.1
      · rw [BitVec.getLsbD_of_ge _ _ (by omega), BitVec.getLsbD_of_ge _ _ (by omega), if_neg]
        intro h
        have h2 : j < d.vec.vl := h.2
        omega
    · intro q hq
      rw [v1, hpred, if_neg hq]
    · rw [v1, hvec, Vec.mark_same, hsame]
    · rw [v1, hvec, Vec.mark_same, hsame]
    · rw [v1, hvec, Vec.mark_none, hsame]
    · rw [v1, hvec, Vec.mark_lanes, hsame]
  · exact raised_of _ _ _ _ _ ready.quiet (by omega) (by rw [v2, hflags]) (by rw [v3, hflags])

/-! ### Forms of one width -/

theorem Fmt.width_legal {f : Fmt} (h : f.legal = true) : 4 ≤ f.width ∧ f.width ≤ 64 ∧ 131072 % f.width = 0 := by
  cases f <;> first | decide | cases h

theorem Fmt.legal_of_int {f : Fmt} (h : f.isInt8 = true) : f.legal = true := by cases f <;> first | decide | cases h
theorem Fmt.legal_of_ieee {f : Fmt} (h : f.isIeee = true) : f.legal = true := by cases f <;> first | decide | cases h

theorem groupSize_self (w : Nat) : groupSize w w = 1 := by
  unfold groupSize; rw [if_pos]; simp

/-- An element-wise form of one width completes as R159 has it. -/
theorem elementwise_same {i : Instr} {s : State} {F : VForm} {x : VArgs} {act : Env → Nat → Bool} {zero : Bool}
    {res : Env → Nat → Nat × FlagSet} (hx : exec i s = runForm F x s) (hb : F.body = .map act zero res) (hp : F.dstPred = false)
    (hc : F.useC ≠ .seed) (hc2 : F.useC ≠ .carry) (hd : F.dst = id) (hl : s.cur.vfmt.legal = true) {src : List Nat}
    {e : Env} (he : s.cur.env F x [] = e) {r : Nat → Nat × FlagSet} (hr : ∀ j < s.cur.vec.vl, r j = res e j)
    {ac : Nat → Bool} (hac : ∀ j, ac j = act e j) {cl wh : Bool} (hz : (zero && vtyMp s.cur.vec.vty) = cl) (hwh : F.whole = wh) {a : Reg} (ha : a = x.a)
    (hbad : s.cur.VectorReady → s.cur.formBad F x = false)
    (hsrc : ∀ r ∈ s.cur.rowsRead F x, r ∈ src ++ [s.cur.phys x.a]) :
    Elementwise i s a src ac cl wh 1 s.cur.vw r := by
  have hwd : F.wd s.cur.vfmt = s.cur.vw := by unfold VForm.wd; rw [hd]; rfl
  have hmd : F.md s.cur.vfmt = 1 := by unfold VForm.md; rw [hwd]; exact groupSize_self _
  have hg : group (s.cur.phys x.a) 1 = [s.cur.phys x.a] := by simp [group]
  have hw4 := Fmt.width_legal hl
  have key := elementwise_of (act := act) (zero := zero) (res := res) hx hb hp hc hc2 (src := src) hbad
    (by rw [hmd, hg]; exact hsrc) (by rw [hwd]; exact hw4.1) (by rw [hmd]; decide) hw4.1 (by
      intro ready j hj
      rw [hmd, hwd, Nat.div_one]
      have h1 := ready.length
      have : (j + 1) * s.cur.vw ≤ s.cur.vec.vl * s.cur.vw := Nat.mul_le_mul_right _ hj
      rw [Nat.succ_mul] at this
      omega)
  rw [hmd, hwd, hz, hwh, he] at key
  unfold Elementwise at key ⊢
  subst ha
  intro d dst e0 ready rows quiet
  obtain ⟨t, h1, h2, h3, h4⟩ := key ready rows (fun j a1 a2 a3 => by rw [← hr j a2]; exact quiet j a1 a2 (by rw [hac]; exact a3))
  refine ⟨t, h1, h2, ⟨?_, h3.kept, h3.others, h3.preds, h3.pix, h3.rowsTop, h3.lanes⟩, ?_⟩
  · intro j b1 b2
    rw [h3.elems j b1 b2, hac, hr j b2]
  · have fl : ∀ j, j < d.vec.vl → (if ac j = true then (r j).2 else 0) = if act e j = true then (res e j).2 else 0 := by
      intro j hj; rw [hac, hr j hj]
    constructor
    · intro k
      rw [h4.fef k]
      constructor
      · rintro (q | ⟨j, q1, q2, q3⟩)
        · exact Or.inl q
        · exact Or.inr ⟨j, q1, q2, by rw [fl j q2]; exact q3⟩
      · rintro (q | ⟨j, q1, q2, q3⟩)
        · exact Or.inl q
        · exact Or.inr ⟨j, q1, q2, by rw [← fl j q2]; exact q3⟩
    · intro q
      exact h4.none (fun j q1 q2 => by rw [← fl j q2]; exact q j q1 q2)
    · intro k hk j q1 q2 q3 q4
      exact h4.first k hk j q1 q2 (by rw [← fl j q2]; exact q3) (fun i p1 p2 => by rw [← fl i (Nat.lt_trans p2 q2)]; exact q4 i p1 p2)
    · rintro k hk ⟨j, q1, q2, q3⟩ q4
      exact h4.cleared k hk ⟨j, q1, q2, by rw [← fl j q2]; exact q3⟩ (fun i p1 p2 => by rw [← fl i p2]; exact q4 i p1 p2)

/-- The RESCOMB conditions a form of one width passes on a ready drover. -/
theorem formBad_false {s : State} {F : VForm} {x : VArgs} (h : s.cur.VectorReady) (hf : F.fmt s.cur.vfmt = true) (hd : F.dst = id)
    (hrm : F.rmUsed s.cur.vec.vty = true → s.cur.rmBad = false) (hsc : F.scaled = true → vtyKa s.cur.vec.vty = true → s.cur.scaleBad = false)
    (hb : F.bad s.cur.vec.vty s.cur.vec.vl (s.cur.scalarOf F x) = false) (hc : (F.useC == .carry) = false)
    (hcross : F.cross = true → s.cur.phys x.a ∉ s.cur.rowsB F x ++ (if F.useC == .row then [s.cur.phys x.c] else [])) :
    s.cur.formBad F x = false := by
  have hwd : F.wd s.cur.vfmt = s.cur.vfmt.width := by unfold VForm.wd; rw [hd]; rfl
  have hmd : F.md s.cur.vfmt = 1 := by unfold VForm.md; rw [hwd]; exact groupSize_self _
  have hmb : F.mb s.cur.vfmt = 1 := by unfold VForm.mb; rw [hwd]; exact groupSize_self _
  have h1 : (F.rmUsed s.cur.vec.vty && s.cur.rmBad) = false := by
    cases q : F.rmUsed s.cur.vec.vty
    · rfl
    · rw [hrm q]; rfl
  have h2 : (F.scaled && vtyKa s.cur.vec.vty && s.cur.scaleBad) = false := by
    cases q : F.scaled
    · rfl
    · cases q2 : vtyKa s.cur.vec.vty
      · rfl
      · rw [hsc q q2]; rfl
  have h3 : (F.cross && (s.cur.rowsD F x).any (s.cur.rowsB F x ++ (if F.useC == .row then [s.cur.phys x.c] else [])).contains) = false := by
    cases q : F.cross
    · rfl
    · rw [Bool.true_and, List.any_eq_false]
      intro r hr
      have : r = s.cur.phys x.a := by
        unfold Drover.rowsD at hr
        rw [hc, hmd] at hr
        revert hr
        cases F.dstPred <;> simp [group]
      rw [this]
      intro hh
      exact hcross q (by simpa using hh)
  unfold Drover.formBad
  simp only [hf, h1, h2, hb, hwd, hmd, hmb, hc, Drover.streamBad_none _ _ _ h.noStreams]
  simp only [bne_self_eq_false, Bool.or_false, Bool.not_true, Bool.false_or, Bool.false_and]
  exact h3

/-- The operands of a form of one width. -/
theorem Drover.env_b (d : Drover) (F : VForm) (x : VArgs) (hd : F.dst = id) (j : Nat) :
    (d.env F x []).b j = d.vec.elem (d.phys x.b) 1 d.vw j := by
  have : F.mb d.vfmt = 1 := by unfold VForm.mb VForm.wd; rw [hd]; exact groupSize_self _
  show d.vec.elemP [] (d.phys x.b) (F.mb d.vfmt) d.vw j = _
  rw [this]; rfl
theorem Drover.env_row (d : Drover) (F : VForm) (x : VArgs) (hc : F.useC = .row) (j : Nat) :
    (d.env F x []).c j = d.vec.elem (d.phys x.c) 1 d.vw j := by
  unfold Drover.env; rw [hc]; rfl
theorem Drover.env_g (d : Drover) (F : VForm) (x : VArgs) (hc : F.useC = .g) (j : Nat) :
    (d.env F x []).c j = (d.getG x.c).toNat % 2 ^ d.vw := by
  unfold Drover.env Drover.scalarOf; rw [hc]; rfl

theorem rowsRead_same (d : Drover) (F : VForm) (x : VArgs) (hd : F.dst = id) (r : Nat) (h : r ∈ d.rowsRead F x) :
    (F.useB = .row ∧ r = d.phys x.b) ∨ ((F.useC = .row ∨ F.useC = .seed ∨ F.useC = .carry) ∧ r = d.phys x.c) ∨ r = d.phys x.a := by
  have hmb : F.mb d.vfmt = 1 := by unfold VForm.mb VForm.wd; rw [hd]; exact groupSize_self _
  unfold Drover.rowsRead Drover.rowsB Drover.rowsC at h
  rw [hmb] at h
  revert h
  cases hb : F.useB <;> cases hc : F.useC <;> cases F.readsD <;> simp [group] <;> omega

/-- THE INTEGER MEMBERS (R161, R174, R176). -/
theorem integerForms_of {mk mks : Reg → Reg → Reg → Bool → Instr} {s : State} {a b c : Reg} {m : Bool} {r : Nat → Nat → Nat → Int}
    {r' : Fmt → Nat → Nat → Nat → Int} {rd : Bool} {F : FieldUse → VForm} (hF : ∀ u, F u = { intForm u r' with readsD := rd })
    (h1 : exec (mk a b c m) s = runForm (F .row) (args3 a b c m) s) (h2 : exec (mks a b c m) s = runForm (F .g) (args3 a b c m) s)
    (hi : s.cur.vfmt.isInt8 = true)
    (hr : ∀ z x y, x < 2 ^ s.cur.vw → y < 2 ^ s.cur.vw → modulo s.cur.vw (r z x y) = wrapTo s.cur.vw (r' s.cur.vfmt z x y)) :
    IntegerForms mk mks s a b c m r := by
  have hlt : ∀ base m j, s.cur.vec.elem base m s.cur.vw j < 2 ^ s.cur.vw := fun base m j => by
    unfold Vec.elem rowElem pow2; exact Nat.mod_lt _ (Nat.two_pow_pos _)
  have go : ∀ (u : FieldUse) (i : Instr) (src : List Nat) (y : Nat → Nat), u = .row ∨ u = .g → exec i s = runForm (F u) (args3 a b c m) s →
      (∀ j, (s.cur.env (F u) (args3 a b c m) []).c j = y j) → (∀ j, y j < 2 ^ s.cur.vw) → s.cur.phys b ∈ src → (u = .row → s.cur.phys c ∈ src) →
      Elementwise i s a src (s.active m) (vtyMp s.cur.vec.vty) false 1 s.cur.vw
        (fun j => (modulo s.cur.vw (r (s.source a j) (s.source b j) (y j)), 0)) := by
    intro u i src y hu hx hy hylt hb hc
    have hdst : (F u).dst = id := by rw [hF]; rfl
    refine elementwise_same (F := F u) (x := args3 a b c m) (act := fun e i => e.act i) (zero := true)
      (res := fun e i => (wrapTo e.m.fmt.width (r' e.m.fmt (e.d i) (e.b i) (e.c i)), flNone)) hx (by rw [hF]; rfl) (by rw [hF]; rfl)
      ?_ ?_ hdst (Fmt.legal_of_int hi) rfl ?_ (fun j => rfl) (Bool.true_and _) (by rw [hF]; rfl) rfl ?_ ?_
    · rw [hF]; rcases hu with rfl | rfl <;> exact fun h => FieldUse.noConfusion h
    · rw [hF]; rcases hu with rfl | rfl <;> exact fun h => FieldUse.noConfusion h
    · intro j _
      refine Prod.ext ?_ rfl
      show modulo _ _ = wrapTo s.cur.vw (r' s.cur.vfmt (s.cur.vec.elem (s.cur.phys a) 1 s.cur.vw j) _ _)
      rw [Drover.env_b _ _ _ hdst, hy]
      exact hr _ _ _ (hlt _ _ _) (hylt _)
    · intro ready
      refine formBad_false ready (by rw [hF]; exact hi) hdst ?_ ?_ (by rw [hF]; rfl) ?_ ?_
      · rw [hF]; exact fun h => Bool.noConfusion h
      · rw [hF]; exact fun h => Bool.noConfusion h
      · rw [hF]; rcases hu with rfl | rfl <;> rfl
      · rw [hF]; exact fun h => Bool.noConfusion h
    · intro q hq
      have hu' : (F u).useC = u := by rw [hF]; rfl
      rcases rowsRead_same _ _ _ hdst q hq with h | h | h
      · rw [h.2]; exact List.mem_append_left _ hb
      · rw [hu'] at h
        rcases h with ⟨h, e⟩
        have : u = .row := by rcases hu with rfl | rfl <;> simp_all
        rw [e]; exact List.mem_append_left _ (hc this)
      · rw [h]; exact List.mem_append_right _ (by simp [args3])
  exact ⟨go .row _ _ _ (Or.inl rfl) h1 (fun j => Drover.env_row _ _ _ (by rw [hF]; rfl) j) (fun j => hlt _ _ _) (by simp) (by simp),
    go .g _ _ _ (Or.inr rfl) h2 (fun j => Drover.env_g _ _ _ (by rw [hF]; rfl) j) (fun j => Nat.mod_lt _ (Nat.two_pow_pos _)) (by simp)
      (fun h => FieldUse.noConfusion h)⟩

end Sys2Proof.Machine
end

