-- ==== Sys2Proof/Tests/Slice0.lean ====
section
/-! SUPPORT. Tests of the model: words of the encoding tables decode to their instructions, ill-formed terms are refused, the manual's worked
examples come out as it has them, and for each statement of Certificates/Slice0/Obligations.lean that has hypotheses `wit_` theorems show states and
operands that meet them, clause by clause. A clause whose hypothesis is a value Config leaves open (a signature that verifies) has none: no proof can know it. -/

set_option maxRecDepth 100000
namespace Sys2Proof.Tests
open Sys2Proof Sys2Proof.Machine

/-! ### A small package -/

/-- A page of 16 MiB at address 0, mapped to physical address 0 with every permission, as context 1 holds it in the TLB. -/
def page : TlbEntry := ⟨1, 0, 2 ^ 12, 0, 0x60F, 0x700000⟩
def flock : Flock :=
  { ctx := 1, task := 3, cores := [2], dpc := 8, gen := 0, coreGen := [], tmemBase := [(2, 0)], tmemLen := 0x100000, tsh := true
    dbg := Debug.reset, ending := false, aborted := false, abortAsked := false }
def tcb : Tcb :=
  { entry := 0x1000, args := 0, cores := 1, drovers := 8, place := 0, lgMin := 1, lgMax := 4, rows8 := 8, accs := 2, tmem := 0, stack := 0
    prio := 0, sup := false, tsh := true, succ := true, deps := 0, succVa := 0, bookVa := 0, sigVa := 0, sigVal := 0, ranges := [] }
def task : Task :=
  { seq := 0, tcbVa := 0x3000, tcb := tcb, ctx := 1, handle := 0, die := 0, st := .running, readyAt := 0, ranges := true, flock := 7
    place := [2], stack := none, aged := false, stage := 0, blocked := false, aborted := false, tryAt := 0, stored := false, listed := false }
def context : Context :=
  { root := 0x800000, qtab := 0x900000, pool := 0xA00000, poolLen := 0x10000, conf := false, key := 0, fn := 0, owner := [], grantTren := 0
    grantSlog := 0, grantUntil := none }
/-- A drover at user level with a handler, in slot 3 of core 2. -/
def drover : Drover :=
  { Drover.reset with
    flock := 7, ctx := 1, rowsAlloc := 64, accAlloc := 2, lgMin := 1, lgMax := 4, tileLen := 0x100000, state := .issuing, pc := 0x1000
    tr := { TrapRegs.reset with tvec := 0x8000 } }
def world (d : Drover) : State :=
  { State.reset with
    sel := 0x13, ctxs := [(1, context)], tasks := [(3, task)], flocks := [(7, flock)], nextFlock := 8, drovers := [(0x13, d)]
    dies := [(0, { Die.reset with tlb := [page] })], nextKey := 4, seqNo := 1, cycle := 100 }
def put (d : Drover) (r : Reg) (v : Word) : Drover := { d with g := d.g.set r.toNat v r.isLt }
/-- The same with g5, or g5 and g6, set. -/
def with5 (v : Word) : State := world (put drover 5 v)
def with56 (v u : Word) : State := world (put (put drover 5 v) 6 u)
/-- A drover at supervisor level. -/
def superior (d : Drover) : Drover := { d with tr := { d.tr with sup := true } }
/-- A drover whose vector instructions can start, with a VTY and a VL. -/
def ready (vty : Word) (vl : Nat) : Drover :=
  { drover with typed := true, configured := true, lgm := 1, granted := true, parked := 1, vec := { Vec.reset with vty := vty, vl := vl, tl := 2 } }

theorem sound_of {s : State} {l : List Nat} (h : l.all (fun x => !s.lineBad x && !s.soft.contains x) = true) : ∀ x ∈ l, s.Sound x := by
  intro x m
  have := List.all_eq_true.mp h x m
  simp only [Bool.and_eq_true, Bool.not_eq_true'] at this
  exact this

theorem ready_is (vty : Word) (vl : Nat) (h : vl ≤ 1024) (hw : (vtyFmt vty).width ≤ 64) : (ready vty vl).VectorReady where
  noRun := rfl
  noStop := rfl
  typed := rfl
  configured := rfl
  noStreams := rfl
  noErrors := rfl
  fresh := rfl
  quiet := rfl
  alloc := Nat.le_of_ble_eq_true rfl
  length := by
    have : vl * (vtyFmt vty).width ≤ 1024 * 64 := Nat.mul_le_mul h hw
    exact Nat.le_trans this (by decide)
  short := Nat.le_trans h (by decide)

theorem handles_ : drover.handles := ⟨by decide, rfl⟩
theorem quiet_ {s : State} {f : Nat} (h : s.debug f = Debug.reset) : ∀ c, s.tren f c = false := by
  intro c
  simp [State.tren, h, Debug.reset]

/-! ### What the statements' hypotheses hold of -/

theorem wit_DivisionNeverTraps :
    (with56 8 0).cur.getG 6 = 0 ∧ (with56 8 3).cur.getG 6 ≠ 0 ∧
    (with56 (.ofInt 64 (-2 ^ 63)) (.ofInt 64 (-1))).cur.getG 5 = .ofInt 64 (-2 ^ 63) ∧
    (with56 (.ofInt 64 (-2 ^ 63)) (.ofInt 64 (-1))).cur.getG 6 = .ofInt 64 (-1) := by decide

theorem wit_JumpsAndBranchesGoToTheirTargets :
    (let t := (with5 0x2000).cur.getG 5 + BitVec.ofInt 64 (4#11).toInt; t.toNat % 4 = 0) ∧
    (let t := (with5 0x2000).cur.getG 5 + BitVec.ofInt 64 (3#11).toInt; t.toNat % 4 ≠ 0) ∧ (with5 0x2000).cur.handles ∧
    (let x := (with56 7 7).cur.getG 5; let y := (with56 7 7).cur.getG 6
     x = y ∧ ¬ x ≠ y ∧ ¬ x.toInt < y.toInt ∧ x.toInt ≥ y.toInt ∧ ¬ x.toNat < y.toNat ∧ x.toNat ≥ y.toNat) ∧
    (let x := (with56 7 8).cur.getG 5; let y := (with56 7 8).cur.getG 6
     ¬ x = y ∧ x ≠ y ∧ x.toInt < y.toInt ∧ ¬ x.toInt ≥ y.toInt ∧ x.toNat < y.toNat ∧ ¬ x.toNat ≥ y.toNat) :=
  ⟨by decide, by decide, ⟨by decide, rfl⟩, by decide, by decide⟩

/-- A drover without a handler. -/
def bare : Drover := { drover with tr := TrapRegs.reset }
theorem wit_SoftwareTrapsEnterTheHandlerOrAbort :
    (world drover).cur.handles ∧
    (let s := world bare; s.Tidy ∧ s.cur.tr.tvec = 0 ∧ s.cur.capture = none ∧ s.flock s.cur.flock = some flock ∧ flock.ending = false ∧
      s.task flock.task = some task ∧ task.st = .running ∧ task.flock = s.cur.flock ∧ task.tcb.succ = true) :=
  ⟨handles_, ⟨by decide, by decide, by decide, by decide, by decide, by decide, by decide⟩, rfl, rfl, rfl, rfl, rfl, rfl, rfl, rfl⟩

theorem wit_PrivilegeIsKeptAndEretReturns :
    ((world drover).cur.handles ∧ (world drover).cur.tr.sup = false) ∧
    (0x320 ≤ (0x322#14).toNat ∧ (0x322#14).toNat ≤ 0x322) ∧ (0x400 ≤ (0x422#14).toNat ∧ (0x422#14).toNat ≤ 0x422) ∧
    (0x006#14).toNat ∉ [0x004, 0x005, 0x007, 0x008, 0x020, 0x061] ∧ assignedSr (0x009#14).toNat = false ∧
    (world (superior drover)).cur.tr.sup = true :=
  ⟨⟨handles_, rfl⟩, by decide, by decide, by decide, by decide, rfl⟩

theorem memOk_ (d : Drover) : (world d).memOk := ⟨rfl, rfl⟩

theorem wit_ScalarLoadsAndStoresMoveTheirBytes : let s := with5 0x10000; let va := fun (i : BitVec 11) => s.cur.getG 5 + BitVec.ofInt 64 i.toInt
    s.memOk ∧ (∃ s' p, s.Lands .read (va 1) 1 s' p) ∧ (∃ s' p, s.Lands .read (va 2) 2 s' p) ∧ (∃ s' p, s.Lands .read (va 4) 4 s' p) ∧
    (∃ s' p, s.Lands .read (va 0x7F8) 8 s' p) ∧ (∃ s' p, s.Lands .write (va 1) 1 s' p) ∧ (∃ s' p, s.Lands .write (va 2) 2 s' p) ∧
    (∃ s' p, s.Lands .write (va 4) 4 s' p) ∧ ∃ s' p, s.Lands .write (va 0x7F8) 8 s' p :=
  ⟨memOk_ _, ⟨_, _, rfl, rfl, sound_of rfl⟩, ⟨_, _, rfl, rfl, sound_of rfl⟩, ⟨_, _, rfl, rfl, sound_of rfl⟩, ⟨_, _, rfl, rfl, sound_of rfl⟩,
    ⟨_, _, rfl, rfl, sound_of rfl⟩, ⟨_, _, rfl, rfl, sound_of rfl⟩, ⟨_, _, rfl, rfl, sound_of rfl⟩, ⟨_, _, rfl, rfl, sound_of rfl⟩⟩

theorem wit_AtomicOperationsReadAndWriteAsOne :
    ((with56 0x10000 9).memOk ∧ ∀ e ∈ (with56 0x10000 9).unacked, e.2 ≠ (with56 0x10000 9).sel) ∧
    (∀ host ∈ [none, some 0, some 1, some 9], let s := with56 0x10000 9
      ∃ s' p, s.Lands (.amo host) (s.cur.getG 5) 8 s' p ∧ BitVec.ofNat 64 (s'.number p.key p.pa 8) = s.cur.getG 0 ∧
        BitVec.ofNat 64 (s'.number p.key p.pa 8) ≠ s.cur.getG 6) := by
  refine ⟨⟨memOk_ _, by decide⟩, ?_⟩
  intro host m
  simp only [List.mem_cons, List.not_mem_nil, or_false] at m
  rcases m with rfl | rfl | rfl | rfl <;> exact ⟨_, _, ⟨rfl, rfl, sound_of rfl⟩, by decide, by decide⟩

theorem wit_AccessesAreCheckedAndTranslated :
    (∃ s' p, (world drover).locate ((world drover).agentOf (world drover).sel) .write 0x10000 8 = .ok (s', p)) ∧
    (let s := with5 0x80000000000001; let va := s.cur.getG 5 + BitVec.ofInt 64 (0#11).toInt
     scalarAccess (.ldd 4 5 0) = some (false, 5, 0, 8) ∧ s.cur.handles ∧ (va.extractLsb' 0 56).signExtend 64 ≠ va) ∧
    (let s := with5 0x10001; let va := s.cur.getG 5 + BitVec.ofInt 64 (0#11).toInt
     scalarAccess (.sth 4 5 0) = some (true, 5, 0, 2) ∧ s.cur.handles ∧ (va.extractLsb' 0 56).signExtend 64 = va ∧ va.toNat % 2 ≠ 0) ∧
    (let s := with5 0x1000000; let va := s.cur.getG 5 + BitVec.ofInt 64 (0#11).toInt
     (va.extractLsb' 0 56).signExtend 64 = va ∧ va.toNat % 8 = 0 ∧
     ∃ w, s.translate (s.agentOf s.sel) .read va = .error w ∧ (w.cause = 0x07 ∨ w.cause = 0x06 ∧ w.sub ≠ 0)) :=
  ⟨⟨_, _, rfl⟩, ⟨rfl, ⟨by decide, rfl⟩, by decide⟩, ⟨rfl, ⟨by decide, rfl⟩, by decide, by decide⟩, by decide, by decide, ⟨_, rfl, .inr ⟨rfl, by decide⟩⟩⟩

theorem wit_FencesWaitsYieldsAndExitsComplete :
    ((5#3).toNat < 6 ∧ (∀ e ∈ (world drover).unacked, e.2 ≠ (world drover).sel)) ∧ ((6#3).toNat ≥ 6 ∧ (world drover).cur.handles) ∧
    ((with5 32).cur.getG 5).toNat ≥ 32 ∧ (with5 0).cur.getG 5 = 0 ∧
    (let s := world { put drover 5 31 with latch := 16 }; (s.cur.getG 5).toNat < 32 ∧ s.cur.latch &&& (s.cur.getG 5).setWidth 5 ≠ 0) ∧
    (let s := with5 31; (s.cur.getG 5).toNat < 32 ∧ s.cur.getG 5 ≠ 0 ∧ s.cur.latch &&& (s.cur.getG 5).setWidth 5 = 0) ∧
    ((world drover).cur.wait = none ∧ (world drover).cur.request = none) ∧
    (∀ n, (h : n < 4) → drover.cwm[n] + 1 = drover.cnx[n]) ∧
    (¬ ∀ n, (h : n < 4) → { drover with cnx := drover.cnx.set 3 2 }.cwm[n] + 1 = { drover with cnx := drover.cnx.set 3 2 }.cnx[n]) :=
  ⟨⟨by decide, by decide⟩, ⟨by decide, handles_⟩, by decide, by decide, by decide, by decide, ⟨rfl, rfl⟩,
    by decide, by decide⟩

theorem wit_FencesWaitsYieldsAndExitsComplete_pushed :
    let d := { drover with streams := [⟨3, ⟨0x10000, 4, 1, [8, 1, 1, 1], [0, 0, 0, 0], [8, 1, 1, 1], [0, 0, 0], 0⟩, true, 8, some 0⟩] }
    let s := { world d with unacked := [(1, 0x13)] }
    (∃ x ∈ s.cur.streams, x.write = true) ∧ ∃ e ∈ s.unacked, e.2 = s.sel := by decide

theorem wit_SrdReadsEveryRegister : (world (superior drover)).cur.tr.sup = true := rfl

theorem wit_SwrWritesEveryRegister :
    (∀ v, (with5 v).cur.getG 5 = v ∧ (with5 v).cur.cst.run = false ∧ (with5 v).cur.cst.rs = false ∧ (with5 v).cur.handles) ∧
    (let ok := fun (x : Word) => x.toNat % 8 = 0 ∧ x.toNat ≤ 128; ok 128 ∧ ¬ ok 129 ∧ ¬ ok 136) ∧
    (let ok := fun (x : Word) => bits x 5 3 = 0 ∧ bits x 9 7 = 0; ok 0x11F ∧ ¬ ok 0x20 ∧ ¬ ok 0x200) ∧
    (let ok := fun (x : Word) => x.toNat < 128; ok 127 ∧ ¬ ok 128) ∧ (let ok := fun (x : Word) => x.toNat < 8192; ok 8191 ∧ ¬ ok 8192) ∧
    (let ok := fun (x : Word) => (x.extractLsb' 0 56).signExtend 64 = x ∧ x.toNat % 64 = 0; ok 0x7FFFFFFFFFFFC0 ∧ ¬ ok 0x80000000000000 ∧ ¬ ok 0x20) := by
  refine ⟨fun v => ⟨?_, rfl, rfl, ⟨(by decide : (0x8000 : Word) ≠ 0), rfl⟩⟩, by decide, by decide, by decide, by decide, by decide⟩
  rfl

/-- The same at supervisor level. -/
def over5 (v : Word) : State := world (superior (put drover 5 v))
theorem wit_SwrWritesEveryRegister_supervisor :
    (∀ v, let s := over5 v; s.cur.getG 5 = v ∧ s.cur.tr.sup = true ∧ s.cur.state = .issuing ∧ s.cur.handles ∧ s.cur.reps.go = false ∧ s.cur.resume = false ∧
      s.cur.viaEret = false ∧ s.flock s.cur.flock = some flock ∧ ∀ c, s.tren s.cur.flock c = false) ∧
    (let ok := fun (v x : Word) => x.toNat ≤ (over5 v).cur.vlmax; ok 0 0 ∧ ¬ ok 1 1) ∧
    (let ok := fun (x : Word) => x.toNat < 2 ^ 29; ok 0x1FFFFFFF ∧ ¬ ok 0x20000000) ∧ (let ok := fun (x : Word) => x.toNat ≤ 1024; ok 1024 ∧ ¬ ok 1025) ∧
    (let ok := fun (x : Word) => x.toNat ≤ 64; ok 64 ∧ ¬ ok 65) ∧
    (let ok := fun (x : Word) => x.toNat < 2 ^ 44 ∧ bits x 39 1 = 0 ∧ bits x 32 7 ≤ 64 ∧ bits x 27 5 = 0 ∧ bits x 16 11 ≤ 1024 ∧ bits x 9 7 = 0 ∧ bits x 0 9 ≤ 256
     ok 0xF4004000100 ∧ ¬ ok 0x101 ∧ ¬ ok 0x4100000000) ∧
    (let ok := fun (x : Word) => bits x 16 47 = 0; ok 0x800000000000FFFF ∧ ¬ ok 0x10000) ∧
    (let ok := fun (x : Word) => x.toNat < 2 ^ 48; ok 0xFFFFFFFFFFFF ∧ ¬ ok 0x1000000000000) ∧
    (let ok := fun (x : Word) => x.toNat < 2 ^ 17; ok 0x1FFFF ∧ ¬ ok 0x20000) ∧ (let ok := fun (x : Word) => x.toNat < 2 ^ 19; ok 0x7FFFF ∧ ¬ ok 0x80000) ∧
    (let ok := fun (x : Word) => (x.extractLsb' 0 56).signExtend 64 = x; ok 0xFF80000000000000 ∧ ¬ ok 0x80000000000000) ∧
    (let ok := fun (x : Word) => bits x 48 15 = 0; ok 0x8000FFFFFFFFFFFF ∧ ¬ ok 0x1000000000000) ∧
    (let ok := fun (x : Word) => x.toNat % 4 = 0; ok 4 ∧ ¬ ok 2) ∧ (let ok := fun (x : Word) => x.toNat % 4 ≤ 1; ok 1 ∧ ¬ ok 2) ∧
    ((0x200#14).toNat ≥ 0x200 ∧ (0x2FF#14).toNat < 0x300) ∧
    (let ok := fun (x : Word) => bits x 43 20 = 0 ∧ bits x 39 1 = 0; ok 0x8000077FFFFFFFFF) ∧ (let ok := fun (x : Word) => x.toNat < 64 ∧ bits x 0 2 ≤ 1; ok 61) ∧
    (let ok := fun (x : Word) => x.toNat < 2 ^ 16 ∧ bits x 3 5 = 0 ∧ bits x 0 3 ≤ 5; ok 0xFF05) ∧
    (let ok := fun (x : Word) => x.toNat < 2 ^ 48 ∧ bits x 3 13 = 0; ok 0xFFFFFFFF0007) ∧
    (let ok := fun (x : Word) => (x.extractLsb' 0 56).signExtend 64 = x ∧ x.toNat % 4 = 0; ok 0xFFFFFFFFFFFFFFFC) ∧
    (let ok := fun (x : Word) => bits x 48 12 = 0; ok 0xF000FFFFFFFFFFFF) ∧
    (let ok := fun (x : Word) => (x.extractLsb' 0 56).signExtend 64 = x ∧ x.toNat % 2 ^ bits flock.dbg.wpc[7] 52 5 = 0; ok 1) ∧
    (let ok := fun (x : Word) => bits x 48 4 = 0 ∧ bits x 52 5 ≤ 24 ∧ (x.getLsbD 63 = true → bits x 58 2 ≠ 0) ∧ flock.dbg.wpa[7].toNat % 2 ^ bits x 52 5 = 0
     ok 0x8D80000000000000 ∧ ok 0) ∧
    (let ok := fun (x : Word) => x.toNat < 2 ^ 40 ∧ bits x 29 3 = 0 ∧ bits x 4 20 = 0 ∧ (bits x 24 5 = 0 ∨ 10 ≤ bits x 24 5 ∧ bits x 24 5 ≤ 24)
     ok 0xFF1800000F ∧ ok 0x0A000000) ∧
    (let ok := fun (x : Word) => x.toNat < 2 ^ 16; ok 0xFFFF) := by
  refine ⟨fun v => ⟨rfl, rfl, rfl, ⟨(by decide : (0x8000 : Word) ≠ 0), rfl⟩, rfl, rfl, rfl, rfl, ?_⟩, ?_⟩
  · exact quiet_ rfl
  · repeat' apply And.intro
    all_goals decide

/-- Bytes in memory from an address on. -/
def storing (s : State) (a : Nat) (l : List Byte) : State := { s with mem := Memory.setList s.mem a l }

theorem wit_RepRepeatsTheNextWord :
    (let s := world drover; let w : BitVec 32 := 0
     (∃ u, s.fetchAt (s.agentOf s.sel) (s.cur.pc + 4) = .ok u w ∧ u.cur = s.cur ∧ u.sel = s.sel) ∧ s.cur.resume = false ∧ s.cur.reps.go = false ∧
     (∃ e, decodeRow w = .error e) ∧ s.cur.handles) ∧
    (∀ n ∈ [(0 : Word), 3], let s := storing (with5 n) 0x1004 [0x81, 0x8A, 0xAA, 0x09]; let w : BitVec 32 := 0x09AA8A81
     (∃ u, s.fetchAt (s.agentOf s.sel) (s.cur.pc + 4) = .ok u w ∧ u.cur = s.cur ∧ u.sel = s.sel) ∧ s.cur.resume = false ∧ s.cur.reps.go = false ∧
     s.cur.getG 5 = n ∧ decodeRow w = .ok .add ∧ (0 &&& ~~~Row.add.vecFields = (0 : BitVec 3)) ∧ (Row.add.writesG = true → w.extractLsb' 7 7 ≠ 5) ∧
     Row.add.wf w = true ∧ (w.extractLsb' 0 6).toNat = 1) :=
  ⟨⟨⟨_, rfl, rfl, rfl⟩, rfl, rfl, ⟨_, rfl⟩, handles_⟩,
   by
    intro n m
    simp only [List.mem_cons, List.not_mem_nil, or_false] at m
    rcases m with rfl | rfl <;> exact ⟨⟨_, rfl, rfl, rfl⟩, rfl, rfl, rfl, rfl, by decide, by decide, rfl, by decide⟩⟩

/-- VTY with a format, and p[1] as its predicate. -/
def vtyOf (f : Nat) : Word := .ofNat 64 (f + 64)
theorem vty_ready {f : Nat} (h : f ∈ List.range 17) : (ready (vtyOf f) 8).VectorReady := by
  apply ready_is _ _ (by decide)
  revert h f; decide

/-- What all statements of vector instructions ask: the drover is ready, g and vector registers 1 to 3 name rows of its, FEE enables no trap,
VTY.RM is legal and no scale is asked for. -/
theorem wit_vector {f : Nat} (h : f ∈ List.range 17) : let d := (world (ready (vtyOf f) 8)).cur
    d.VectorReady ∧ d.unheld ∧ d.handles ∧ d.fee = 0 ∧ d.streams = [] ∧ d.cst.run = false ∧ d.cst.rs = false ∧ (∀ r ∈ [1, 2, 3], d.phys r < d.rowsAlloc) ∧
      d.rounds ∧ d.scales ∧ vtyKa d.vec.vty = false ∧ vtyFwl d.vec.vty ≤ 10 := by
  refine ⟨vty_ready h, ⟨rfl, rfl⟩, ⟨(by decide : (0x8000 : Word) ≠ 0), rfl⟩, rfl, rfl, rfl, rfl, ?_, ?_, ?_, ?_, ?_⟩
  · intro r m
    simp only [List.mem_cons, List.not_mem_nil, or_false] at m
    rcases m with rfl | rfl | rfl <;> exact Nat.le_of_ble_eq_true rfl
  · revert h f; exact (by decide : ∀ f ∈ List.range 17, vtyRm (vtyOf f) ≤ 4)
  · intro h'; revert h f; exact (by decide : ∀ f ∈ List.range 17, vtyKa (vtyOf f) = true → 8 = 0 ∨ (8 - 1) / 2 ^ vtyBl (vtyOf f) < 512)
  · revert h f; exact (by decide : ∀ f ∈ List.range 17, vtyKa (vtyOf f) = false)
  · revert h f; exact (by decide : ∀ f ∈ List.range 17, vtyFwl (vtyOf f) ≤ 10)

theorem wit_VectorIntegerInstructionsGiveTheirResults :
    (∀ f ∈ [1, 2, 3, 4, 5, 6, 7, 8], (world (ready (vtyOf f) 8)).cur.vfmt.isInt8 = true) ∧
    (∀ f ∈ (List.range 17).tail, (world (ready (vtyOf f) 8)).cur.vfmt.legal = true) ∧
    (∀ f ∈ [9, 10, 11, 12], (world (ready (vtyOf f) 8)).cur.vfmt.isIeee = true) ∧
    ((7#8).toNat < (world (ready (vtyOf 1) 8)).cur.vfmt.width ∧ (world (ready (vtyOf 1) 8)).cur.vfmt.width ≤ (8#8).toNat) := by decide

theorem wit_VectorFloatInstructionsGiveTheirResults :
    (∀ f ∈ [9, 10, 11, 12], (world (ready (vtyOf f) 8)).cur.vfmt.isIeee = true) ∧ (world (ready (vtyOf 11) 8)).cur.vfmt ≠ .f64 ∧
    (world (ready (vtyOf 12) 8)).cur.vfmt = .f64 ∧
    (let d := (world (ready (vtyOf 11 + 0x10000000) 8)).cur; vtyKa d.vec.vty = true ∧ d.rounds ∧ (d.vec.vl = 0 ∨ (d.vec.vl - 1) / 2 ^ vtyBl d.vec.vty < 512)) := by
  refine ⟨by decide, by decide, by decide, by decide, ?_, by decide⟩
  simp only [Drover.rounds]; decide

/-- A drover with one scaled format: KA set, BL 5. -/
theorem wit_VectorComparesAndConversions :
    ((1#7).toNat ≥ 1 ∧ (15#7).toNat ≤ 15) ∧
    (∀ c ∈ [1, 2, 3, 4, 5, 6, 7, 8, 9, 10, 11, 12, 13, 14, 15], (Fmt.ofCode c).legal = true ∧ Fmt.ofCode c ≠ .i4x) ∧
    (∀ c ∈ [9, 10, 11, 12, 13, 14], (Fmt.ofCode c).isInt = false) ∧
    -- wide to narrow and narrow to wide, rows apart
    (let d := (world (ready (vtyOf 5) 8)).cur; ∀ r ∈ group (d.phys 4) 1, r ∉ group (d.phys 8) (32 / 8)) ∧
    (let d := (world (ready (vtyOf 1) 8)).cur; ∀ r ∈ group (d.phys 4) (32 / 8), r ∉ group (d.phys 8) 1) ∧
    (∀ f ∈ [15, 1, 2, 3, 4, 5, 6, 13, 14, 16, 9, 10, 11, 12, 7, 8], Fmt.ofCode f ≠ .ill) := by decide

theorem wit_VectorPermutes :
    (∀ v ∈ [(1, 0), (2, 1), (16384, 14)], (with5 (.ofNat 64 v.1)).cur.getG 5 = .ofNat 64 (2 ^ v.2)) ∧ (14#7).toNat < 15 ∧
    (∀ q ∈ [(1 : Reg), 2], q ≠ (3 : Reg)) ∧ (∀ n ∈ [1, 2, 4, 8], ((with5 (.ofNat 64 n)).cur.getG 5).toNat ∈ [1, 2, 4, 8]) ∧
    (world (ready (vtyOf 1) 8)).cur.vfmt.width ≠ 4 := by decide

theorem wit_ReductionsAndScansFold :
    (∀ f ∈ [1, 5, 8], (world (ready (vtyOf f) 8)).cur.vfmt.isInt8 = true) ∧ (∀ f ∈ [9, 12], (world (ready (vtyOf f) 8)).cur.vfmt.isIeee = true) ∧
    (3 : Reg) ≠ 1 ∧ (3 : Reg) ≠ 2 ∧ vtyFwl (vtyOf 11 + 0x2800) = 10 ∧
    (vtyKa (ready (vtyOf 11 + 0x10000000) 8).vec.vty = true ∧ (ready (vtyOf 11 + 0x10000000) 8).fee = 0) := by decide

set_option exponentiation.threshold 40000 in
theorem wit_PredicatesAndExtraction :
    ((15#7).toNat < 16 ∧ (15#7).toNat ≤ 15) ∧
    (let d := (world (ready (vtyOf 1) 8)).cur; ∀ j < d.vec.vl, d.vec.pbit 2 j = false) ∧
    (let d := { ready (vtyOf 1) 8 with vec := { (ready (vtyOf 1) 8).vec with preds := Vec.reset.preds.set 2 0xC0 } }
     6 < d.vec.vl ∧ d.vec.pbit 2 6 = true ∧ ∀ k < 6, d.vec.pbit 2 k = false) ∧
    (let d := put (ready (vtyOf 1) 8) 5 7; d.phys 2 < d.rowsAlloc ∧ (d.getG 5).toNat < d.vec.vl) ∧
    (let d := put (ready (vtyOf 1) 8) 5 8; d.vec.vl ≤ (d.getG 5).toNat) := by decide

/-- The drover at an address that no page maps. -/
def off (va : Word) : State := world { drover with pc := va }
theorem wit_ChecksAtIssueTrapInOrder :
    ((world drover).cur.handles ∧ (world drover).cur.typed = false) ∧
    (let d := { ready (vtyOf 0) 8 with typed := true }; d.typed = true ∧ d.configured = true ∧ d.vfmt.isInt8 = false ∧ d.vfmt.isIeee = false) ∧
    (let d := ready (vtyOf 5) 8; d.typed = true ∧ d.configured = true ∧ d.vfmt.isInt8 = true ∧ ∃ r ∈ [(1 : Reg), 2, 64], d.rowsAlloc ≤ d.phys r) ∧
    (let d := ready (vtyOf 11) 8; d.vfmt.isIeee = true ∧ ∃ r ∈ [(1 : Reg), 2, 64], d.rowsAlloc ≤ d.phys r) ∧
    (∀ i, decode 0x00000000#32 = .ok i → i.wf = false) ∧ (∀ i, decode 0x09AA8A81#32 = .ok i → i.wf = true) ∧
    (∃ s' p, (world drover).LandsFor ((world drover).agentOf (world drover).sel) .fetch (world drover).cur.iaddr 4 s' p) ∧
    (let s := off 0x80000000000000; s.cur.atHandler = false ∧ s.cur.handles ∧ ¬ (s.cur.iaddr.extractLsb' 0 56).signExtend 64 = s.cur.iaddr) ∧
    (let s := off 0x1002; s.cur.atHandler = false ∧ s.cur.handles ∧ (s.cur.iaddr.extractLsb' 0 56).signExtend 64 = s.cur.iaddr ∧ s.cur.iaddr.toNat % 4 ≠ 0) ∧
    (let s := off 0x1000000; s.cur.atHandler = false ∧ (s.cur.iaddr.extractLsb' 0 56).signExtend 64 = s.cur.iaddr ∧ s.cur.iaddr.toNat % 4 = 0 ∧
      ∃ f, s.translate (s.agentOf s.sel) .fetch s.cur.iaddr = .error f ∧ (f.cause = 0x07 ∨ f.cause = 0x06 ∧ f.sub ≠ 0)) ∧
    (let s := world { drover with pc := 0x80000000000000, atHandler := true }; s.cur.atHandler = true ∧
      ¬ (s.cur.iaddr.extractLsb' 0 56).signExtend 64 = s.cur.iaddr ∧ s.Ends s.cur.flock flock task) := by
  refine ⟨⟨handles_, rfl⟩, by decide, by decide, by decide, ?_, ?_, ⟨_, _, rfl, rfl, sound_of rfl⟩, ⟨rfl, ⟨by decide, rfl⟩, by decide⟩, ⟨rfl, ⟨by decide, rfl⟩, by decide⟩,
    ⟨rfl, by decide, by decide, _, rfl, .inr ⟨rfl, by decide⟩⟩, rfl, by decide, ?_⟩
  · intro i h
    cases (show decode 0x00000000#32 = .error .unassignedFunction from rfl).symm.trans h
  · intro i h
    cases (show decode 0x09AA8A81#32 = .ok (.add 21 42 77) from rfl).symm.trans h
    rfl
  · exact ⟨rfl, rfl, rfl, ⟨rfl, rfl, rfl, rfl⟩, ⟨rfl, rfl, rfl, rfl, rfl⟩, rfl, by decide⟩

theorem wit_ChecksAtIssueTrapInOrder_completion :
    (let s := with5 31; let m := s.cur.getG 5; m.toNat < 32 ∧ m ≠ 0) ∧
    (let s := world { put drover 5 31 with latch := 16 }; s.cur.latch &&& (s.cur.getG 5).setWidth 5 ≠ 0) ∧ (with5 0).cur.getG 5 = 0 ∧
    (∀ e ∈ (world drover).unacked, e.2 ≠ (world drover).sel) ∧ (∀ n, (h : n < 4) → drover.cwm[n] + 1 = drover.cnx[n]) ∧
    (∀ f ∈ [9, 10, 11, 12], (ready (vtyOf f) 8).vfmt.isIeee = true) ∧ (ready (vtyOf 9) 8).vfmt ≠ .f64 := by
  repeat' apply And.intro
  all_goals decide

/-! ### Sequences of accesses, computed -/

def land (s : State) (ag : Agent) (want : Want) (va : Word) (n : Nat) : Option (State × Place) :=
  match s.locate ag want va n with
  | .ok (s', p) => if isHbm p.pa n && (linesOf p.pa n).all (fun x => !s'.lineBad x && !s'.soft.contains x) then some (s', p) else none
  | .error _ => none
theorem land_for {s s' : State} {ag : Agent} {want : Want} {va : Word} {n : Nat} {p : Place} (h : land s ag want va n = some (s', p)) :
    s.LandsFor ag want va n s' p := by
  unfold land at h
  split at h
  · next e =>
    split at h
    · next c =>
      cases h
      rw [Bool.and_eq_true] at c
      exact ⟨e, c.1, sound_of c.2⟩
    · cases h
  · cases h

def landAll (want : Want) (n : Nat) : State → List Word → Option (State × List Place)
  | s, [] => some (s, [])
  | s, va :: l => (land s (s.agentOf s.sel) want va n).bind (fun x => (landAll want n x.1 l).map (fun y => (y.1, x.2 :: y.2)))
theorem landAll_of {want : Want} {n : Nat} {l : List Word} {s t : State} {ps : List Place} (h : landAll want n s l = some (t, ps)) :
    State.LandAll want n s l t ps := by
  induction l generalizing s t ps with
  | nil => cases h; exact .nil _
  | cons va l ih =>
    simp only [landAll, Option.bind_eq_some_iff, Option.map_eq_some_iff, Prod.mk.injEq] at h
    obtain ⟨x, e, y, f, rfl, rfl⟩ := h
    exact .cons (land_for e) (ih f)

def readsOf (ag : Option Agent) (n : Nat) : State → List (Word × Nat) → Option State
  | s, [] => some s
  | s, (va, v) :: l => (land s (ag.getD (s.agentOf s.sel)) .read va n).bind (fun x => if x.1.number x.2.key x.2.pa n = v then readsOf ag n x.1 l else none)
theorem readAll_of {n : Nat} {l : List (Word × Nat)} {s t : State} (h : readsOf none n s l = some t) : State.ReadAll n s l t := by
  induction l generalizing s t with
  | nil => cases h; exact .nil _
  | cons va l ih =>
    simp only [readsOf, Option.bind_eq_some_iff, Option.getD_none] at h
    obtain ⟨x, e, f⟩ := h
    split at f
    · next g => exact .cons (land_for e) g (ih f)
    · cases f
theorem readsFor_of {ag : Agent} {n : Nat} {l : List (Word × Nat)} {s t : State} (h : readsOf (some ag) n s l = some t) : State.ReadsFor ag n s l t := by
  induction l generalizing s t with
  | nil => cases h; exact .nil _
  | cons va l ih =>
    simp only [readsOf, Option.bind_eq_some_iff, Option.getD_some] at h
    obtain ⟨x, e, f⟩ := h
    split at f
    · next g => exact .cons (land_for e) g (ih f)
    · cases f

def writesOf (ag : Option Agent) (n : Nat) : State → List (Word × Nat) → Option State
  | s, [] => some s
  | s, (va, v) :: l => (land s (ag.getD (s.agentOf s.sel)) .write va n).bind (fun x => writesOf ag n (x.1.putBytes x.2.key x.2.pa (leBytes n v)) l)
theorem writeAll_of {n : Nat} {l : List (Word × Nat)} {s t : State} (h : writesOf none n s l = some t) : State.WriteAll n s l t := by
  induction l generalizing s t with
  | nil => cases h; exact .nil _
  | cons va l ih =>
    simp only [writesOf, Option.bind_eq_some_iff, Option.getD_none] at h
    obtain ⟨x, e, f⟩ := h
    exact .cons (land_for e) (ih f)
theorem writesFor_of {ag : Agent} {n : Nat} {l : List (Word × Nat)} {s t : State} (h : writesOf (some ag) n s l = some t) :
    State.WritesFor ag n s l t := by
  induction l generalizing s t with
  | nil => cases h; exact .nil _
  | cons va l ih =>
    simp only [writesOf, Option.bind_eq_some_iff, Option.getD_some] at h
    obtain ⟨x, e, f⟩ := h
    exact .cons (land_for e) (ih f)

def storesOf (n : Nat) : State → List (List (Word × Nat)) → Option State
  | s, [] => some s
  | s, x :: l => (landAll .write n s (x.map (·.1))).bind (fun y => (writesOf none n y.1 x).bind (fun t => storesOf n t l))
theorem storeAll_of {n : Nat} {l : List (List (Word × Nat))} {s t : State} (h : storesOf n s l = some t) : State.StoreAll n s l t := by
  induction l generalizing s t with
  | nil => cases h; exact .nil _
  | cons x l ih =>
    simp only [storesOf, Option.bind_eq_some_iff] at h
    obtain ⟨y, e, u, f, g⟩ := h
    exact .cons (landAll_of e) (writeAll_of f) (ih g)

def amosOf (n : Nat) (new : Nat → Nat → Nat) : State → List (Nat × Word × Nat) → Option State
  | s, [] => some s
  | s, (i, va, old) :: l => (land s (s.agentOf s.sel) (.amo none) va n).bind (fun x =>
      if x.1.number x.2.key x.2.pa n = old then amosOf n new (x.1.putBytes x.2.key x.2.pa (leBytes n (new i old))) l else none)
theorem amoAll_of {n : Nat} {new : Nat → Nat → Nat} {l : List (Nat × Word × Nat)} {s t : State} (h : amosOf n new s l = some t) :
    State.AmoAll n new s l t := by
  induction l generalizing s t with
  | nil => cases h; exact .nil _
  | cons x l ih =>
    simp only [amosOf, Option.bind_eq_some_iff] at h
    obtain ⟨y, e, f⟩ := h
    split at f
    · next g => exact .cons (land_for e) g (ih f)
    · cases f

/-- What an access leads to, where it is known to lead somewhere. -/
theorem some_of {α : Type} {o : Option α} (h : o.isSome = true) : ∃ x, o = some x := Option.isSome_iff_exists.mp h
theorem reads_ {n : Nat} {l : List (Word × Nat)} {s : State} (h : (readsOf none n s l).isSome = true) : ∃ t, s.ReadAll n l t :=
  (some_of h).imp (fun _ e => readAll_of e)
theorem readsFor_ {ag : Agent} {n : Nat} {l : List (Word × Nat)} {s : State} (h : (readsOf (some ag) n s l).isSome = true) : ∃ t, s.ReadsFor ag n l t :=
  (some_of h).imp (fun _ e => readsFor_of e)
theorem writes_ {n : Nat} {l : List (Word × Nat)} {s : State} (h : (writesOf none n s l).isSome = true) : ∃ t, s.WriteAll n l t :=
  (some_of h).imp (fun _ e => writeAll_of e)
theorem writesFor_ {ag : Agent} {n : Nat} {l : List (Word × Nat)} {s : State} (h : (writesOf (some ag) n s l).isSome = true) : ∃ t, s.WritesFor ag n l t :=
  (some_of h).imp (fun _ e => writesFor_of e)
theorem stores_ {n : Nat} {l : List (List (Word × Nat))} {s : State} (h : (storesOf n s l).isSome = true) : ∃ t, s.StoreAll n l t :=
  (some_of h).imp (fun _ e => storeAll_of e)
theorem amos_ {n : Nat} {new : Nat → Nat → Nat} {l : List (Nat × Word × Nat)} {s : State} (h : (amosOf n new s l).isSome = true) : ∃ t, s.AmoAll n new l t :=
  (some_of h).imp (fun _ e => amoAll_of e)
theorem lands_ {s : State} {want : Want} {va : Word} {n : Nat} (h : (land s (s.agentOf s.sel) want va n).isSome = true) :
    ∃ s' p, s.Lands want va n s' p := by
  obtain ⟨⟨s', p⟩, e⟩ := some_of h
  exact ⟨s', p, land_for e⟩
theorem landsFor_ {s : State} {ag : Agent} {want : Want} {va : Word} {n : Nat} (h : (land s ag want va n).isSome = true) :
    ∃ s' p, s.LandsFor ag want va n s' p := by
  obtain ⟨⟨s', p⟩, e⟩ := some_of h
  exact ⟨s', p, land_for e⟩

/-- A drover whose vector instructions can start, with g5 and g6 set. -/
def armed (vty : Word) (vl : Nat) (v u : Word) : Drover := put (put (ready vty vl) 5 v) 6 u
theorem armed_ready (vty : Word) (vl : Nat) (v u : Word) (hv : vl ≤ 1024) (w : (vtyFmt vty).width ≤ 64) : (world (armed vty vl v u)).cur.VectorReady := by
  have r := ready_is vty vl hv w
  exact ⟨rfl, rfl, rfl, rfl, rfl, rfl, rfl, rfl, r.alloc, r.length, r.short⟩

theorem wit_VectorLoadsAndStoresMoveTheirElements :
    let s := world (armed (vtyOf 5) 2 0x10000 0x100); let d := s.cur
    d.VectorReady ∧ d.vfmt.legal = true ∧ d.vw ≠ 4 ∧ (∀ r ∈ [] ++ group (d.phys 1) 1, r < d.rowsAlloc) ∧
    (∀ step ∈ [(4 : Int), (d.getG 6).toInt],
      (∃ s', s.ReadAll 4 ((s.todo false (d.startAt (group (d.phys 1) 1))).flatMap (fun (i : Nat) => (List.range 1).map (fun j =>
        (s.address 5 (i * step) + BitVec.ofNat 64 (j * 4), 0)))) s') ∧
      ∃ s', s.StoreAll 4 ((s.todo false (d.startAt [])).map (fun (i : Nat) => (List.range 1).map (fun j =>
        (s.address 5 (i * step) + BitVec.ofNat 64 (j * 4), rowElem (d.vec.row (d.phys 1 + j)) 32 i)))) s') ∧
    -- segments of 2 to 8 fields, and counts outside
    (∀ n ∈ [2, 8], (∀ r ∈ [] ++ group (d.phys 1) n, r < d.rowsAlloc) ∧
      (∃ s', s.ReadAll 4 ((s.todo false (d.startAt (group (d.phys 1) n))).flatMap (fun (i : Nat) => (List.range n).map (fun j =>
        (s.address 5 (i * (n * 4 : Nat)) + BitVec.ofNat 64 (j * 4), 0)))) s') ∧
      ∃ s', s.StoreAll 4 ((s.todo false (d.startAt [])).map (fun (i : Nat) => (List.range n).map (fun j =>
        (s.address 5 (i * (n * 4 : Nat)) + BitVec.ofNat 64 (j * 4), rowElem (d.vec.row (d.phys 1 + j)) 32 i)))) s') ∧
    ((1#7).toNat < 2 ∧ 8 < (9#7).toNat) ∧ d.handles := by
  refine ⟨armed_ready _ _ _ _ (by decide) (by decide), by decide, by decide, by decide, ?_, ?_, by decide, ⟨by decide, rfl⟩⟩
  · intro step m
    simp only [List.mem_cons, List.not_mem_nil, or_false] at m
    rcases m with rfl | rfl <;> exact ⟨reads_ (by decide +kernel), stores_ (by decide +kernel)⟩
  · intro n m
    simp only [List.mem_cons, List.not_mem_nil, or_false] at m
    rcases m with rfl | rfl <;> exact ⟨by decide, reads_ (by decide +kernel), stores_ (by decide +kernel)⟩

theorem wit_VectorLoadsAndStoresMoveTheirElements_indexed :
    let s := world { armed (vtyOf 5) 2 0x10000 0 with sms := 0x400 }; let d := s.cur
    d.phys 1 ∉ group (d.phys 8) 1 ∧ d.resumesPart = false ∧ d.sms.toNat / 512 % 16 ≠ 0 ∧ d.sms.toNat / 512 % 16 ≠ vtyPs d.vec.vty ∧
    (∀ r ∈ group (d.phys 8) 1 ++ group (d.phys 1) 1, r < d.rowsAlloc) ∧
    (∃ s', s.ReadAll 4 ((s.todo false (d.startAt (group (d.phys 1) 1))).flatMap (fun i => (List.range 1).map (fun j =>
      (s.address 5 (toSigned 32 (d.vec.elem (d.phys 8) 1 32 i)) + BitVec.ofNat 64 (j * 4), 0)))) s') ∧
    ∃ s', s.StoreAll 4 ((s.todo false (d.startAt [])).map (fun i => (List.range 1).map (fun j =>
      (s.address 5 (toSigned 32 (d.vec.elem (d.phys 8) 1 32 i)) + BitVec.ofNat 64 (j * 4), rowElem (d.vec.row (d.phys 1 + j)) 32 i)))) s' :=
  ⟨by decide, rfl, by decide, by decide, by decide, reads_ (by decide +kernel), stores_ (by decide +kernel)⟩

theorem wit_VectorLoadsAndStoresMoveTheirElements_nibbles :
    (let s := world (armed (vtyOf 15) 2 0x10000 0); let d := s.cur; let e0 := d.startAt [d.phys 1]
     d.vw = 4 ∧ d.VectorReady ∧ d.phys 1 < d.rowsAlloc ∧
     (let firsts := (s.todo false e0).filter (fun i => !(decide (i % 2 = 1) && (s.todo false e0).contains (i - 1)))
      ∃ s', s.ReadAll 1 (firsts.map (fun i => (d.getG 5 + BitVec.ofNat 64 (i / 2), 0))) s') ∧
     d.startAt [] = 0 ∧ d.vec.vl % 2 = 0 ∧ (∀ i < d.vec.vl, s.active false i = true) ∧
     ∃ s', s.WriteAll 1 ((List.range (d.vec.vl / 2)).map (fun k => (d.getG 5 + BitVec.ofNat 64 k,
       rowElem (d.vec.row (d.phys 1)) 4 (2 * k) + 16 * rowElem (d.vec.row (d.phys 1)) 4 (2 * k + 1)))) s') ∧
    (let s := world (armed (vtyOf 15) 1 0x10000 0); let d := s.cur
     d.vec.vl = 0 + 1 ∧ d.startAt [] = 0 ∧ s.active false 0 = true ∧ ∃ s' p, s.Lands .write (d.getG 5 + BitVec.ofNat 64 (0 / 2)) 1 s' p) :=
  ⟨⟨by decide, armed_ready _ _ _ _ (by decide) (by decide), by decide, reads_ (by decide +kernel), rfl, rfl, by decide, writes_ (by decide +kernel)⟩,
    rfl, rfl, rfl, lands_ (by decide +kernel)⟩

/-- The reads land, and the access behind them fails. -/
def failsBehind (s : State) (n : Nat) (l : List (Word × Nat)) (va : Word) : Option (State × State × FaultInfo) :=
  (readsOf none n s l).bind (fun u => match u.loadAt (s.agentOf s.sel) va n with
    | .fail v f => if f.cause = 0x0F then none else some (u, v, f)
    | _ => none)
theorem fails_ {s : State} {n : Nat} {l : List (Word × Nat)} {va : Word} (h : (failsBehind s n l va).isSome = true) :
    ∃ u v f, s.ReadAll n l u ∧ u.loadAt (s.agentOf s.sel) va n = .fail v f ∧ f.cause ≠ 0x0F := by
  obtain ⟨⟨u, v, f⟩, e⟩ := some_of h
  simp only [failsBehind, Option.bind_eq_some_iff] at e
  obtain ⟨x, hx, e⟩ := e
  split at e
  · next g =>
    split at e
    · cases e
    · next c => cases e; exact ⟨_, _, _, readAll_of hx, g, c⟩
  · cases e

/-- A row whose element 1 of 32 bits is an offset of 16 MiB. -/
def farRow (d : Drover) : Drover := { d with vec := { d.vec with rows := d.vec.rows.set 8 (BitVec.ofNat _ (0x1000000 * 2 ^ 32)) } }
theorem wit_FirstFaultLoadsShortenVl :
    (∀ x ∈ [(0xFFFFFC, (4 : Int)), (0x10000, 0x1000000)], let s := world (farRow (armed (vtyOf 5) 2 (.ofNat 64 x.1) (.ofInt 64 x.2))); let d := s.cur
      d.VectorReady ∧ d.vfmt.legal = true ∧ d.vw ≠ 4 ∧ d.resumesPart = false ∧ d.phys 1 < d.rowsAlloc ∧ 0 < 1 ∧ 1 < d.vec.vl ∧ s.active false 1 = true ∧
      ∃ u v f, s.ReadAll 4 (((List.range 1).filter (s.active false)).map (fun (i : Nat) => (s.address 5 (i * x.2), 0))) u ∧
        u.loadAt (s.agentOf s.sel) (s.address 5 ((1 : Nat) * x.2)) 4 = .fail v f ∧ f.cause ≠ 0x0F) ∧
    (let s := world (farRow (armed (vtyOf 5) 2 0x10000 0)); let d := s.cur
     d.phys 1 ∉ group (d.phys 8) 1 ∧ (∀ r ∈ group (d.phys 8) 1, r < d.rowsAlloc) ∧
     ∃ u v f, s.ReadAll 4 (((List.range 1).filter (s.active false)).map (fun i => (s.address 5 (toSigned 32 (d.vec.elem (d.phys 8) 1 32 i)), 0))) u ∧
       u.loadAt (s.agentOf s.sel) (s.address 5 (toSigned 32 (d.vec.elem (d.phys 8) 1 32 1))) 4 = .fail v f ∧ f.cause ≠ 0x0F) := by
  refine ⟨?_, by decide, by decide, fails_ (by decide +kernel)⟩
  intro x m
  simp only [List.mem_cons, List.not_mem_nil, or_false] at m
  rcases m with rfl | rfl
  all_goals
    refine ⟨?_, by decide, by decide, rfl, by decide, by decide, by decide, rfl, fails_ (by decide +kernel)⟩
    exact ⟨rfl, rfl, rfl, rfl, rfl, rfl, rfl, rfl, by decide, by decide, by decide⟩

/-- BL 5: spans of 32 elements. -/
def spanned (f : Nat) : Word := vtyOf f + 0x14000
set_option exponentiation.threshold 600 in
theorem wit_BlocksAreUnpackedAndPacked :
    (∀ f ∈ [13, 9, 10, 11, 3, 5], (world (ready (spanned f) 8)).cur.vfmt ∈ [Fmt.h8, .f16, .bf16, .f32, .i16, .i32]) ∧
    (∀ b ∈ [5, 7], vtyBl (.ofNat 64 (5 + 2 ^ 14 * b)) = b) ∧
    (∀ c ∈ [15, 1, 2, 13, 14, 9, 10], Fmt.ofCode c ∈ [Fmt.i4, .i8, .n8, .h8, .g8, .f16, .bf16]) ∧
    (let s := world (armed (spanned 13) 40 0x10000 0); let d := s.cur; let S := 2 ^ vtyBl d.vec.vty; let e0 := d.startAt [d.phys 1]
     let spans := (List.range ((d.vec.vl + S - 1) / S)).filter (fun j => decide (e0 / S ≤ j) && decide (e0 < d.vec.vl))
     d.VectorReady ∧ d.phys 1 < d.rowsAlloc ∧ 5 ≤ vtyBl d.vec.vty ∧ vtyBl d.vec.vty ≤ 7 ∧ d.fee = 0 ∧ d.rounds ∧ vtyPs d.vec.vty ≠ (2#7).toNat ∧
     (d.vec.vl - 1) / S < 512 ∧ (∀ j ∈ spans, 0 < 2 ^ 512) ∧ vtyKa d.vec.vty = false ∧
     (∃ s', s.ReadAll 64 (spans.map (fun j => (d.getG 5 + BitVec.ofNat 64 (64 * j), 0))) s') ∧
     ∃ s', s.WriteAll 64 (spans.map (fun j => (d.getG 5 + BitVec.ofNat 64 (64 * j), 1 + 256 * d.vec.kent (vtyKs d.vec.vty) j))) s') := by
  refine ⟨by decide, by decide, by decide, armed_ready _ _ _ _ (by decide) (by decide), by decide, by decide, by decide, rfl, ?_, by decide, by decide,
    fun _ _ => Nat.two_pow_pos _, by decide, reads_ (by decide +kernel), writes_ (by decide +kernel)⟩
  exact (by decide : vtyRm (spanned 13) ≤ 4)

theorem readsBehind_ {n : Nat} {s : State} {l : List Word} {r : List (Word × Nat)}
    (h : ((landAll .read n s l).bind (fun y => readsOf none n y.1 r)).isSome = true) : ∃ u ps, State.LandAll .read n s l u ps ∧ ∃ t, u.ReadAll n r t := by
  obtain ⟨t, e⟩ := some_of h
  obtain ⟨⟨u, ps⟩, a, b⟩ := Option.bind_eq_some_iff.mp e
  exact ⟨u, ps, landAll_of a, t, readAll_of b⟩
theorem storesBehind_ {n : Nat} {s : State} {l : List Word} {r : List (List (Word × Nat))}
    (h : ((landAll .write n s l).bind (fun y => storesOf n y.1 r)).isSome = true) : ∃ u ps, State.LandAll .write n s l u ps ∧ ∃ t, u.StoreAll n r t := by
  obtain ⟨t, e⟩ := some_of h
  obtain ⟨⟨u, ps⟩, a, b⟩ := Option.bind_eq_some_iff.mp e
  exact ⟨u, ps, landAll_of a, t, storeAll_of b⟩

theorem wit_VectorAtomicsAndScaleRegisters :
    (∀ f ∈ [5, 6, 7, 8, 11, 12], (world (ready (vtyOf f) 2)).cur.vfmt ∈ [Fmt.i32, .n32, .i64, .n64, .f32, .f64]) ∧
    (let s := world (armed (vtyOf 5) 2 0x10000 4); let d := s.cur; let at_ := fun (i : Nat) => s.address 5 (toSigned 32 (d.vec.elem (d.phys 8) 1 32 i))
     d.VectorReady ∧ (∀ r ∈ d.phys 1 :: group (d.phys 8) 1, r < d.rowsAlloc) ∧ d.phys 1 ∉ group (d.phys 8) 1 ∧ d.fee = 0 ∧
     (∃ s', s.AmoAll 4 (fun i y => (y + s.source 1 i) % 2 ^ 32) ((s.todo false (d.startAt [d.phys 1])).map (fun i => (i, at_ i, 0))) s') ∧
     -- scale registers
     (let ns := (d.vec.vl + 2 ^ vtyBl d.vec.vty - 1) / 2 ^ vtyBl d.vec.vty; let k := fun (j : Nat) => s.address 5 (j * (d.getG 6).toInt)
      d.vw ≠ 4 ∧ (63#7).toNat < 64 ∧ 64 ≤ (64#7).toNat ∧ ns ≤ 512 ∧
      (∃ u ps, State.LandAll .read 1 s ((List.range ns).map k) u ps ∧ ∃ s', u.ReadAll 1 ((List.range ns).map (fun j => (k j, 0))) s') ∧
      ∃ u ps, State.LandAll .write 1 s ((List.range ns).map k) u ps ∧
        ∃ s', u.StoreAll 1 [(List.range ns).map (fun j => (k j, d.vec.kent (63#7).toNat j))] s')) ∧
    (let s := world (armed (vtyOf 11) 2 0x10000 0); let d := s.cur; let at_ := fun (i : Nat) => s.address 5 (toSigned 32 (d.vec.elem (d.phys 8) 1 32 i))
     d.rounds ∧ ∃ s', s.AmoAll 4 (fun i y => (fAdd .f32 (vtyRm d.vec.vty) (s.operand y) (s.operand (s.source 1 i))).1)
       ((s.todo false (d.startAt [d.phys 1])).map (fun i => (i, at_ i, 0))) s') ∧
    (((with5 255).cur.getG 5).toNat ≤ 255 ∧ 255 < ((with5 256).cur.getG 5).toNat ∧ (with5 256).cur.handles) ∧ (world (ready (vtyOf 15) 2)).cur.vw = 4 := by
  refine ⟨by decide, ⟨armed_ready _ _ _ _ (by decide) (by decide), by decide, by decide, rfl, amos_ (by decide +kernel), by decide, by decide, by decide, by decide, ?_, ?_⟩,
    ⟨(by decide : vtyRm (vtyOf 11) ≤ 4), amos_ (by decide +kernel)⟩, ⟨by decide, by decide, ⟨by decide, rfl⟩⟩, by decide⟩
  · exact readsBehind_ (by decide +kernel)
  · exact storesBehind_ (by decide +kernel)

theorem wit_LengthsAndTypesAreSet :
    (let d := (world drover).cur; d.unheld ∧ d.vfmt = .ill ∧ d.handles) ∧
    (let d := (world (ready (vtyOf 17) 0)).cur; d.unheld ∧ d.vfmt ≠ .ill ∧ d.vfmt.legal = false ∧ d.handles) ∧
    (let s := world (put (ready (vtyOf 5) 8) 6 0); s.cur.unheld ∧ s.cur.vfmt.legal = true ∧ s.untraced ∧ (s.cur.getG 6).toNat = 0 ∧ s.cur.lgm ≠ 0) ∧
    (let s := world (put (ready (vtyOf 5) 8) 6 1025); s.cur.vfmt.legal = true ∧ s.untraced ∧ (s.cur.getG 6).toNat ≠ 0 ∧ s.AtHand) ∧
    ((with56 0 0x20000000).cur.getG 6).toNat ≥ 2 ^ 29 ∧ ((with56 0 0x1FFFFFFF).cur.getG 6).toNat < 2 ^ 29 := by
  refine ⟨⟨⟨rfl, rfl⟩, rfl, handles_⟩, ⟨⟨rfl, rfl⟩, by decide, by decide, ⟨by decide, rfl⟩⟩, ⟨⟨rfl, rfl⟩, by decide, ⟨by decide, by decide⟩, by decide, by decide⟩,
    ⟨by decide, ⟨by decide, by decide⟩, by decide, ⟨by decide +kernel, rfl, ?_, by decide +kernel, by decide +kernel⟩⟩, by decide, by decide⟩
  intro e m n
  simp only [world, List.mem_singleton] at m
  subst m
  exact absurd rfl n

/-! ### Tiles, copies, streams -/

/-- A READY tile of 64 rows of 256 bytes at the start of tile memory, the drover's own. -/
def tile : Tile :=
  { st := .ready, err := false, sh := false, own := 3, flock := 7, rows := 64, rb := 256, base := 0, pend := none
    range := ⟨[0, 0, 0, 0], [0, 0, 0, 0], 0, 0, 0, 0⟩, prev := .empty, saved := [] }
/-- A package whose core 2 holds that tile, changed, as tile 1. -/
def tiled (t : Tile) (d : Drover) : State := { world d with cores := [(2, { Core.reset with tiles := [(1, t)] })] }

theorem wit_TilesAreAllocatedAndAccessed :
    let legal := fun (gb gc : Nat) => 1 ≤ gb ∧ gb ≤ 4096 ∧ gc % 2 ^ 17 % 64 = 0 ∧ 64 ≤ gc % 2 ^ 17 ∧ gc % 2 ^ 17 ≤ 65536 ∧ gb * (gc % 2 ^ 17) ≤ 4194304 ∧
      gc / 2 ^ 17 % 2 ^ 15 = 0 ∧ gc < 2 ^ 33
    (world drover).flock drover.flock = some flock ∧ (world drover).cur.handles ∧ ¬ legal 0 64 ∧ ¬ legal 4097 64 ∧ ¬ legal 4096 2048 ∧ legal 4096 1024 ∧
    (∀ k ∈ flock.cores, ∀ e ∈ ((world drover).core k).tiles, e.2.flock = drover.flock) ∧
    -- room at once
    (let s := world drover; let free := fun (h : Nat) => h < 256 ∧ ∀ k ∈ [2], assocGet (s.core k).tiles h = none
     free 0 ∧ (∀ h' < 0, ¬ free h') ∧ 0 % 4096 = 0 ∧ 0 < 2 ^ 22 ∧ ∀ k ∈ [2], (s.core k).roomAt (assocGetD flock.tmemBase 0 k)
       (assocGetD flock.tmemBase 0 k + flock.tmemLen) 0 (regionSize 64 256)) ∧
    -- no handle, and no room
    (∀ h, h < 256 → ¬ ∀ k ∈ [2], assocGet (({ world drover with cores := [(2, { Core.reset with tiles := (List.range 256).map (fun i => (i, tile)) })] } : State).core k).tiles h = none) ∧
    (∀ base, ¬ ∀ k ∈ [2], ((world drover).core k).roomAt (assocGetD flock.tmemBase 0 k) (assocGetD flock.tmemBase 0 k + flock.tmemLen) base (regionSize 64 65536)) := by
  refine ⟨rfl, handles_, by decide, by decide, by decide, by decide, by decide, ⟨by decide, by omega, rfl, by decide, ?_⟩, ?_, ?_⟩
  · intro k m
    simp only [List.mem_singleton] at m
    subst m
    exact ⟨by decide, by decide, by decide⟩
  · decide +kernel
  · intro base h
    have := (h 2 (by decide)).2.1
    have e : regionSize 64 65536 = 4194304 := by decide
    have f : assocGetD flock.tmemBase 0 2 = 0 := by decide
    have g : flock.tmemLen = 1048576 := rfl
    omega

theorem wit_TilesAreAllocatedAndAccessed_tfree :
    (let s := tiled tile drover; s.mayName 1 tile ∧ s.flock drover.flock = some flock ∧ (∀ k ∈ [2], rising (s.core k).tiles = true) ∧
      ¬ ∃ k ∈ [2], ∃ y, assocGet (s.core k).tiles 1 = some y ∧ (y.pend ≠ none ∨
        ∃ j ∈ keysOf k, j ≠ s.sel ∧ (s.drover j).resident = true ∧ (s.drover j).tileUse = some 1)) ∧
    (let s := tiled { tile with pend := some (0x13, 0, 1) } drover; s.mayName 1 { tile with pend := some (0x13, 0, 1) } ∧
      ∃ k ∈ [2], ∃ y, assocGet (s.core k).tiles 1 = some y ∧ y.pend ≠ none) ∧
    (let s := world drover; (∀ x, ¬ s.mayName 1 x) ∧ s.cur.handles) ∧
    (let s := tiled tile drover; s.tileAt 0 = none ∧ s.tileAt 1 = some tile ∧ 0 ≤ 255 ∧ 63 < tile.rows) ∧
    (((with5 5).cur.getG 5).toNat > 4 ∧ ((with5 4).cur.getG 5).toNat ≤ 4 ∧ ((with5 256).cur.getG 5).toNat > 255) ∧
    (let d := drover; 1 ≤ (15#7).toNat ∧ (15#7).toNat ≤ 15 ∧ d.ecc = [] ∧ d.vec.vl ≤ 32768) := by
  refine ⟨⟨⟨by decide, rfl, rfl, .inr rfl⟩, rfl, by decide, ?_⟩, ⟨⟨by decide, rfl, rfl, .inr rfl⟩, 2, by decide, _, rfl, by decide⟩, ⟨?_, handles_⟩,
    ⟨by decide, rfl, by decide, by decide⟩, by decide, by decide⟩
  · rintro ⟨k, m, y, e, h⟩
    simp only [List.mem_singleton] at m
    subst m
    cases (show assocGet ((tiled tile drover).core 2).tiles 1 = some tile from rfl).symm.trans e
    rcases h with h | ⟨j, m, n, r, u⟩
    · exact h rfl
    · revert j; decide +kernel
  · rintro x ⟨_, e, _⟩
    cases (show (world drover).tileAt 1 = none from rfl).symm.trans e

theorem wit_TilesAreAllocatedAndAccessed_moves :
    (∀ t ∈ [tile, { tile with st := .empty }, { tile with st := .filling }, { tile with st := .draining }], let s := tiled t (ready (vtyOf 5) 8); let d := s.cur
      d.VectorReady ∧ d.resumesPart = false ∧ d.vfmt.legal = true ∧ (∀ k < d.vec.tl, d.phys 1 + k < d.rowsAlloc) ∧ s.unbooked ∧ s.mayName 1 t ∧ t.err = false ∧ d.handles ∧
      (s.core (coreOf s.sel)).terr = [] ∧ Memory.wf (s.core (coreOf s.sel)).tmem = true ∧ t.rb % 64 = 0 ∧
      -- by row and by column, within and outside
      ¬ (62 + d.vec.tl > t.rows ∨ d.vec.vl * d.vw > 8 * t.rb) ∧ (63 + d.vec.tl > t.rows ∨ d.vec.vl * d.vw > 8 * t.rb) ∧
      ¬ (d.vec.vl > t.rows ∨ (62 + d.vec.tl) * d.vw > 8 * t.rb) ∧ (d.vec.vl > t.rows ∨ (63 + d.vec.tl) * d.vw > 8 * t.rb)) ∧
    ({ tile with st := TileSt.empty }.st = .empty ∧ { tile with st := TileSt.empty }.pend = none) := by
  refine ⟨?_, rfl, rfl⟩
  intro t m
  simp only [List.mem_cons, List.not_mem_nil, or_false] at m
  rcases m with rfl | rfl | rfl | rfl
  all_goals
    refine ⟨?_, rfl, by decide, by decide, (fun _ m => nomatch m), ⟨by decide, rfl, rfl, .inr rfl⟩, rfl, ⟨by decide, rfl⟩, rfl, rfl, rfl, by decide, by decide, by decide, by decide⟩
    exact ⟨rfl, rfl, rfl, rfl, rfl, rfl, rfl, rfl, by decide, by decide, by decide⟩

/-- An access that lands, with the number its bytes read as. -/
theorem landsWith_ {s : State} {ag : Agent} {want : Want} {va : Word} {n D : Nat}
    (h : (land s ag want va n).map (fun x => x.1.number x.2.key x.2.pa n) = some D) : ∃ s' p, s.LandsFor ag want va n s' p ∧ s'.number p.key p.pa n = D := by
  obtain ⟨⟨s', p⟩, e, f⟩ := Option.map_eq_some_iff.mp h
  exact ⟨s', p, land_for e, f⟩

theorem readsTwice_ {ag bg : Agent} {n m : Nat} {s : State} {l r : List (Word × Nat)}
    (h : ((readsOf (some ag) n s l).bind (fun u => readsOf (some bg) m u r)).isSome = true) : ∃ u, s.ReadsFor ag n l u ∧ ∃ t, u.ReadsFor bg m r t := by
  obtain ⟨t, e⟩ := some_of h
  obtain ⟨u, a, b⟩ := Option.bind_eq_some_iff.mp e
  exact ⟨u, readsFor_of a, t, readsFor_of b⟩

/-- A descriptor of 2 rows of 4 elements of 4 bytes in a tensor of 8 by 8, from element (−1, 0) of it on; and of a gather. -/
def descBlock : Nat := 0x10100 + 2 * 2 ^ 64 + 2 * 2 ^ 72 + 4 * 2 ^ 128 + 2 * 2 ^ 144 + 0xFFFF * 2 ^ 192 + 8 * 2 ^ 256 + 8 * 2 ^ 288 + 8 * 2 ^ 384
def descOf : Desc := ⟨0x10100, 4, 2, [4, 2, 1, 1], [-1, 0, 0, 0], [8, 8, 1, 1], [8, 0, 0], 0⟩
def gatherBlock : Nat := 0x10100 + 2 * 2 ^ 64 + 2 * 2 ^ 72 + 4 * 2 ^ 128 + 2 * 2 ^ 144 + 0xFFFF * 2 ^ 192 + 8 * 2 ^ 256 + 8 * 2 ^ 288 + 0x10200 * 2 ^ 384
def gatherOf : Desc := ⟨0x10100, 4, 2, [4, 2, 1, 1], [-1, 0, 0, 0], [8, 8, 1, 1], [0x10200, 0, 0], 0x10200⟩
set_option exponentiation.threshold 600 in
theorem describes_ : Describes descBlock false descOf ∧ Describes gatherBlock true gatherOf := by
  constructor <;> constructor <;> decide

theorem wit_CopiesAndStreamsStart :
    (∀ x ∈ [(tile, descBlock), ({ tile with st := .empty }, gatherBlock), ({ tile with sh := true }, descBlock)],
      let s := storing (tiled x.1 (put (put drover 5 0x10000) 6 0x3E0301)) 0x10000 (leBytes 64 x.2); let d := s.cur; let g := d.getG 6
      (d.cnx.toList.getD (bits g 8 2) 1 - 1 - d.cwm.toList.getD (bits g 8 2) 0 - (d.doneIds.filter (fun e => e.1 == bits g 8 2)).length < 32) ∧
      s.mayName (bits g 0 8) x.1 ∧ x.1.err = false ∧ (x.1.st = .ready ∨ x.1.st = .empty) ∧ g.toNat < 2 ^ 28 ∧ bits g 10 6 = 0 ∧
      (∃ s' p, s.Lands .read (d.getG 5) 64 s' p ∧ s'.number p.key p.pa 64 = x.2) ∧ bits g 16 12 + Nat.min d.vec.tl (2 * 1 * 1) ≤ x.1.rows ∧ 4 * 4 ≤ x.1.rb ∧
      s.tren d.flock 3 = false ∧ s.flock d.flock = some flock ∧ coreOf s.sel ∈ flock.cores ∧
      (∀ k ∈ flock.cores, ∀ y, assocGet (s.core k).tiles 1 = some y → (y.st = .empty ∨ y.st = .ready) ∧ y.pend = none ∧
        ∀ j ∈ keysOf k, j ≠ s.sel → (s.drover j).tileUse ≠ some 1)) ∧
    (Describes descBlock false descOf ∧ Describes gatherBlock true gatherOf ∧ ({ tile with sh := true } : Tile).sh = true ∧ tile.sh = false ∧ (world drover).cur.handles) ∧
    (let s := world (put { drover with cnx := drover.cnx.set 3 3 } 5 0x3000000000002); let gw := s.cur.getG 5
     gw.toNat < 2 ^ 50 ∧ bits gw 0 48 < s.cur.cnx.toList.getD (bits gw 48 2) 1 ∧ bits gw 0 48 > s.cur.cwm.toList.getD (bits gw 48 2) 0) ∧
    (let s := with5 0; let gw := s.cur.getG 5
     gw.toNat < 2 ^ 50 ∧ bits gw 0 48 < s.cur.cnx.toList.getD (bits gw 48 2) 1 ∧ bits gw 0 48 ≤ s.cur.cwm.toList.getD (bits gw 48 2) 0) ∧
    (((with5 0x4000000000000).cur.getG 5).toNat ≥ 2 ^ 50 ∧ bits ((with5 1).cur.getG 5) 0 48 ≥ (with5 1).cur.cnx.toList.getD (bits ((with5 1).cur.getG 5) 48 2) 1) := by
  refine ⟨?_, ⟨describes_.1, describes_.2, rfl, rfl, handles_⟩, by decide, by decide, by decide⟩
  intro x m
  simp only [List.mem_cons, List.not_mem_nil, or_false] at m
  rcases m with rfl | rfl | rfl
  all_goals
    refine ⟨by decide, ⟨by decide, rfl, rfl, by decide⟩, rfl, by decide, by decide, by decide, landsWith_ (by decide +kernel), by decide, by decide, by decide, rfl, by decide, ?_⟩
    intro k m y e
    simp only [flock, List.mem_singleton] at m
    subst m
    cases e
    exact ⟨by decide, rfl, by decide⟩

/-- A bound stream over 8 elements. -/
def stream : Stream := ⟨1, ⟨0x10100, 4, 1, [8, 1, 1, 1], [0, 0, 0, 0], [8, 1, 1, 1], [0, 0, 0], 0⟩, false, 4, some 0⟩
theorem wit_CopiesAndStreamsStart_streams :
    (let s := storing (world (armed (vtyOf 5) 4 0x10000 1)) 0x10000 (leBytes 64 descBlock); let d := s.cur
     d.unheld ∧ d.typed = true ∧ d.configured = true ∧ (∀ t ∈ d.streams, t.row ≠ d.phys 1) ∧ (d.getG 6).toNat ≤ 1 ∧ d.phys 1 < d.rowsAlloc ∧ d.streams.length < 4 ∧
     s.unbooked ∧ d.vw ≠ 4 ∧ (∀ e ∈ s.drovers, e.2.run = none) ∧ ((keysOf (coreOf s.sel)).map (fun k => (s.drover k).streams.length)).sum < 4 ∧
     (∃ s' p, s.Lands .read (d.getG 5) 64 s' p ∧ s'.number p.key p.pa 64 = descBlock) ∧ d.handles) ∧
    (let s := world { ready (vtyOf 5) 4 with streams := [stream] }; let d := s.cur
     d.unheld ∧ d.typed = true ∧ d.configured = true ∧ d.streams.find? (fun t => t.row == d.phys 1) = some stream ∧ d.phys 1 < d.rowsAlloc ∧ d.vw ≠ 4 ∧
     (∀ e ∈ s.unacked, e.2 ≠ s.sel) ∧ d.ecc = [] ∧ d.phys 1 < 256 ∧ d.vec.vl ≤ 32768 ∧ stream.lastP = some 0 ∧ d.handles) ∧
    ((world (ready (vtyOf 15) 4)).cur.vw = 4 ∧ ((with56 0 2).cur.getG 6).toNat ≥ 2) := by
  refine ⟨⟨⟨rfl, rfl⟩, rfl, rfl, by decide, by decide, by decide, by decide, (fun _ m => nomatch m), by decide, by decide, by decide, landsWith_ (by decide +kernel), by decide, rfl⟩,
    ⟨⟨rfl, rfl⟩, rfl, rfl, rfl, by decide, by decide, by decide, rfl, by decide, by decide, rfl, by decide, rfl⟩, by decide, by decide⟩

/-- A transfer of the descriptor into rows 0 and 1 of tile 1, and the package in which it goes on. -/
def transfer (k : CopyKind) (q : Desc) : Transfer :=
  { drv := 0x13, ch := 3, id := 1, kind := k, tile := 1, row0 := 0, nrows := 2, desc := q, ctx := 1, sup := false, flock := 7, left := [2], pos := 0, tag := none }
def moving (t : Transfer) : State :=
  let x := { tile with st := if t.kind = .cpyout then .draining else .filling, pend := some (0x13, 3, 1) }
  { tiled x { drover with cnx := drover.cnx.set 3 2 } with cores := [(2, { Core.reset with tiles := [(1, x)], transfers := [t] })] }

theorem wit_TransfersMoveTheirElements :
    (∀ t ∈ [transfer .cpyin descOf, transfer .cpymc descOf, transfer .cpyg gatherOf, transfer .cpyout descOf], let s := moving t; let q := t.desc
      s.transferOf 0x13 3 1 = some t ∧ t.drv = 0x13 ∧ t.ch = 3 ∧ t.id = 1 ∧ t.tag = none ∧ 3 < 4 ∧ s.bookings = [] ∧ s.tren t.flock 3 = false ∧ 1 ≤ q.c.getD 0 1 ∧
      q.c.length = 4 ∧ (∀ k < 4, q.c.getD k 1 ≠ 0) ∧ q.esz ∈ [1, 2, 4, 8] ∧ t.left.Nodup ∧ t.nrows ≤ q.c.getD 1 1 * q.c.getD 2 1 * q.c.getD 3 1 ∧
      (s.drover 0x13).wait = none) ∧
    (let s := moving (transfer .cpyin descOf); let q := descOf; let ag := s.engineOf 0x13 3 1 false
     (∀ n < 8, q.inside n = true → 0 ≤ q.place n ∧ q.place n < 2 ^ 64) ∧
     ∃ s', s.ReadsFor ag 4 (((List.range 8).filter q.inside).map (fun n => (BitVec.ofInt 64 (q.place n), 0))) s') ∧
    (let s := moving (transfer .cpyg gatherOf); let q := gatherOf; let ag := s.engineOf 0x13 3 1 false; let idx := fun (_ : Nat) => 0
     let there := fun (n : Nat) => decide (0 ≤ twos 32 (idx (n / 4))) && decide (q.within 0 (n % 4))
     let at_ := fun (n : Nat) => (q.base : Int) + q.esz * (twos 32 (idx (n / 4)) + ((n % 4 : Nat) : Int) + q.i.getD 0 0)
     (∀ n < 8, there n = true → 0 ≤ at_ n ∧ at_ n < 2 ^ 64) ∧
     ∃ u, s.ReadsFor ag 4 ((List.range 2).map (fun j => (.ofNat 64 (q.idxVa + 4 * j), idx j))) u ∧
       ∃ s', u.ReadsFor ag 4 (((List.range 8).filter there).map (fun n => (BitVec.ofInt 64 (at_ n), 0))) s') ∧
    (let s := moving (transfer .cpyout descOf); let q := descOf; let ag := s.engineOf 0x13 3 1 false
     (transfer .cpyout descOf).left = [2] ∧ s.poison = [] ∧ s.bad = [] ∧ (s.core 2).terr = [] ∧ (∀ e ∈ s.unacked, e.2 ≠ 0x13) ∧
     ∃ x, assocGet (s.core 2).tiles 1 = some x ∧
       ∃ s', s.WritesFor ag 4 (((List.range 8).filter q.inside).map (fun n => (BitVec.ofInt 64 (q.place n), (s.core 2).cell x 32 (0 + n / 4) (n % 4)))) s') := by
  refine ⟨?_, ⟨by decide, readsFor_ (by decide +kernel)⟩, ⟨by decide, ?_⟩, rfl, rfl, rfl, rfl, by decide, _, rfl, writesFor_ (by decide +kernel)⟩
  · intro t m
    simp only [List.mem_cons, List.not_mem_nil, or_false] at m
    rcases m with rfl | rfl | rfl | rfl
    all_goals exact ⟨rfl, rfl, rfl, rfl, rfl, by decide, rfl, by decide, by decide, rfl, by decide, by decide, by decide, by decide, rfl⟩
  · exact readsTwice_ (by decide +kernel)

/-! ### Matrices -/

/-- A drover with accumulators of 4 by 4 elements of F32 in use over 2 by 2 of them, g5 and g6 set. -/
def shaped (v u : Word) : Drover :=
  let d := armed (vtyOf 11) 2 v u
  { d with vec := { d.vec with tl := 2, kl := 2, am := 4, an := 4, af := .f32 } }
theorem shaped_ready (v u : Word) : (world (shaped v u)).matrixReady :=
  ⟨⟨rfl, rfl, rfl, rfl, rfl, rfl, rfl, rfl, by exact (by decide : 64 ≤ 256), (armed_ready (vtyOf 11) 2 v u (by decide) (by decide)).length, by exact (by decide : 2 ≤ 32768)⟩, fun _ m => nomatch m⟩

theorem readsChecked_ {n : Nat} {s : State} {l : List (Word × Nat)}
    (h : ((landAll .read n s (l.map (·.1))).bind (fun y => readsOf none n y.1 l)).isSome = true) : ∃ t, s.ReadsChecked n l t := by
  obtain ⟨u, ps, a, t, b⟩ := readsBehind_ h
  exact ⟨t, u, ps, a, b⟩
theorem writesChecked_ {n : Nat} {s : State} {l : List (Word × Nat)}
    (h : ((landAll .write n s (l.map (·.1))).bind (fun y => writesOf none n y.1 l)).isSome = true) : ∃ t, s.WritesChecked n l t := by
  obtain ⟨t, e⟩ := some_of h
  obtain ⟨⟨u, ps⟩, a, b⟩ := Option.bind_eq_some_iff.mp e
  exact ⟨t, u, ps, landAll_of a, writeAll_of b⟩

theorem wit_MatricesAreUpdatedAndMoved :
    (let s := world (shaped 4 4); let d := s.cur; let v := d.vec
     s.matrixReady ∧ v.shaped ∧ d.handles ∧ matrixIn d.vfmt = some (.f32, 1) ∧ d.getG 5 ≠ 0 ∧ d.getG 6 ≠ 0 ∧ v.af ≠ .none ∧ (1#7).toNat < d.accAlloc ∧
     d.accAlloc ≤ (2#7).toNat ∧ 1 ≤ v.am ∧ 1 ≤ v.an ∧ v.am ≤ 64 ∧ v.an ≤ 64 ∧ v.tl ≤ v.am ∧ v.vl ≤ v.an ∧ 1 ≤ v.tl ∧ 1 ≤ v.vl ∧ vtyKa v.vty = false ∧ d.rounds ∧ vtyFwl v.vty ≤ 10 ∧
     d.phys 1 < d.rowsAlloc ∧ d.phys 2 < d.rowsAlloc ∧ d.phys 1 + v.tl ≤ d.rowsAlloc ∧ d.fee = 0) ∧
    (∀ f ∈ [13, 14, 9, 10, 11], (matrixIn (Fmt.ofCode f)).map (·.1) = some .f32) ∧ (∀ f ∈ [1, 2, 15], (matrixIn (Fmt.ofCode f)).map (·.1) = some .i32) ∧
    (matrixIn (Fmt.ofCode 12)).map (·.1) = some .f64 ∧ matrixIn (Fmt.ofCode 5) = none ∧
    (let d := { shaped 0 0 with vec := { (shaped 0 0).vec with af := .none } }; d.vec.af = .none ∧ d.getG 5 = 0) ∧
    (let v := { (shaped 0 0).vec with tl := 5, vl := 5 }; v.am < v.tl ∧ v.an < v.vl) := by
  refine ⟨⟨shaped_ready _ _, ?_, ⟨by decide, rfl⟩, by decide, by decide, by decide, by decide, by decide, by decide, by decide, by decide, by decide, by decide, by decide, by decide,
    by decide, by decide, by decide, ?_, by decide, by decide, by decide, by decide, rfl⟩, by decide, by decide, by decide, by decide, by decide, by decide⟩
  · exact (by decide : 4 * 4 * (8 * 4) ≤ 131072)
  · exact (by decide : vtyRm (vtyOf 11) ≤ 4)

theorem wit_MatricesAreUpdatedAndMoved_memory :
    (∀ g ∈ [(0x10 : Word), 0x1000000000010, 0xFFFFFFFFFFF0 + 0x8000000000000000], let s := world (shaped 0x10000 g); let d := s.cur; let v := d.vec; let side := (d.getG 6).getLsbD 48
      bits (d.getG 6) 49 14 = 0 ∧ (d.getG 6).getLsbD 63 = (d.getG 6).getLsbD 47 ∧ (if side then v.tl ≤ v.am else v.vl ≤ v.an) ∧ d.phys 1 + v.kl ≤ d.rowsAlloc ∧
      1 ≤ v.kl ∧ 1 ≤ v.tl ∧ 1 ≤ v.vl ∧ v.kl ≤ 64 ∧
      ∃ s', s.ReadsChecked 4 ((s.regionOf 5 (twos 48 (bits (d.getG 6) 0 48)) 2 2 4).zip ((List.range 2).flatMap (fun _ => (List.range 2).map (fun _ => 0)))) s') ∧
    (let s := world (shaped 0x10000 0x10); let d := s.cur
     (1#7).toNat < 4 ∧ s.poison = [] ∧ s.bad = [] ∧
     (∃ s', s.ReadsChecked 4 ((s.regionOf 5 (d.getG 6).toInt 2 2 4).zip ((List.range 2).flatMap (fun _ => (List.range 2).map (fun _ => 0)))) s') ∧
     ∃ s', s.WritesChecked 4 ((s.regionOf 5 (d.getG 6).toInt 2 2 4).zip ((List.range 2).flatMap (fun m => (List.range 2).map (fun n => d.vec.accAt 1 m n)))) s') ∧
    (bits (0x2000000000000 : Word) 49 14 ≠ 0 ∧ (0x8000000000000000 : Word).getLsbD 63 ≠ (0x8000000000000000 : Word).getLsbD 47) ∧
    { (shaped 0 0).vec with kl := 0 }.kl = 0 := by
  refine ⟨?_, ⟨by decide, rfl, rfl, readsChecked_ (by decide +kernel), writesChecked_ (by decide +kernel)⟩, by decide, rfl⟩
  intro g m
  simp only [List.mem_cons, List.not_mem_nil, or_false] at m
  rcases m with rfl | rfl | rfl
  all_goals exact ⟨by decide, by decide, by decide, by decide, by decide, by decide, by decide, by decide, readsChecked_ (by decide +kernel)⟩

/-- The first row of the panel lands and its second does not: MLDOP.ff goes on with one. -/
theorem wit_MatricesAreUpdatedAndMoved_shortened :
    let s := world (shaped 0x10000 0x1000000); let d := s.cur; let v := d.vec; let all := s.regionOf 5 0x1000000 2 2 4
    bits (d.getG 6) 49 14 = 0 ∧ (d.getG 6).getLsbD 48 = false ∧ twos 48 (bits (d.getG 6) 0 48) = 0x1000000 ∧ 1 < v.kl ∧ 0 < v.vl ∧
    ∃ u ps u' f, State.LandAll .read 4 s (all.take (1 * 2 + 0)) u ps ∧ u.loadProbe (s.agentOf s.sel) (all.getD (1 * 2 + 0) 0) 4 = .fail u' f ∧ f.cause ≠ 0x0F ∧
      ∃ s', (u'.setCur { u'.cur with vec := { v with kl := 1 } }).ReadsChecked 4
        ((s.regionOf 5 0x1000000 1 2 4).zip ((List.range 1).flatMap (fun _ => (List.range 2).map (fun _ => 0)))) s' := by
  refine ⟨by decide, by decide, by decide, by decide, by decide, ?_⟩
  generalize hs : world (shaped 0x10000 0x1000000) = s
  have h : ((landAll .read 4 s ((s.regionOf 5 0x1000000 2 2 4).take (1 * 2 + 0))).bind (fun x =>
      match x.1.loadProbe (s.agentOf s.sel) ((s.regionOf 5 0x1000000 2 2 4).getD (1 * 2 + 0) 0) 4 with
      | .fail u' f => if f.cause = 0x0F then none else
        let w := u'.setCur { u'.cur with vec := { s.cur.vec with kl := 1 } }
        let l := (s.regionOf 5 0x1000000 1 2 4).zip ((List.range 1).flatMap (fun _ => (List.range 2).map (fun _ => 0)))
        (landAll .read 4 w (l.map (·.1))).bind (fun y => readsOf none 4 y.1 l)
      | _ => none)).isSome = true := by
    subst hs; decide +kernel
  obtain ⟨t, e⟩ := some_of h
  obtain ⟨⟨u, ps⟩, a, b⟩ := Option.bind_eq_some_iff.mp e
  split at b
  · next u' f g =>
    split at b
    · cases b
    · next c => exact ⟨u, ps, u', f, landAll_of a, g, c, readsChecked_ (by rw [b]; rfl)⟩
  · cases b

/-- Dimensions 6, 6, 6 in SMS, and p[2] for PF. -/
def lanes (f : Nat) : Drover := { ready (vtyOf f) 2 with sms := .ofNat 64 (6 + 8 * 6 + 64 * 6 + 512 * 2), rowsAlloc := 256 }
theorem wit_SmallMatricesAreComputedByLanes :
    (∀ f ∈ [11, 12], let s := world (lanes f); let d := s.cur; let v := d.vec
      let R := bits d.sms 0 3; let C := bits d.sms 3 3; let K := bits d.sms 6 3; let pf := bits d.sms 9 4
      d.VectorReady ∧ (d.vfmt = .f32 ∨ d.vfmt = .f64) ∧ vtyKa v.vty = false ∧ d.rounds ∧ d.fee = 0 ∧ (1 ≤ R ∧ R ≤ 6) ∧ (1 ≤ C ∧ C ≤ 6) ∧ (1 ≤ K ∧ K ≤ 6) ∧ R = C ∧ pf ≠ 0 ∧ pf ≠ vtyPs v.vty ∧
      (∀ r ∈ group (d.phys 0) 36, r ∉ group (d.phys 36) 36 ++ group (d.phys 72) 36) ∧ d.phys 108 ∉ group (d.phys 0) 36 ∧ d.phys 108 ∉ group (d.phys 36) 36 ∧
      ∀ r ∈ (group (d.phys 36) 36 ++ group (d.phys 72) 36) ++ group (d.phys 0) 36 ++ [d.phys 108], r < d.rowsAlloc) ∧
    -- the lanes' functions
    (let positive := fun (z : Nat) => (floatValue .f32 z).isNaN = false ∧ (floatValue .f32 z).isZero = false ∧ (floatValue .f32 z).neg = false
     [0x3F800000].length = 1 * 1 ∧ positive (mat [0x3F800000] 1 0 0) ∧ ¬ positive (mat [0] 1 0 0)) ∧
    (let legal := fun (perm : Option Nat) (R : Nat) => let P := fun (i : Nat) => (perm.map (fun p => p / 8 ^ i % 8)).getD i
       perm.all (fun p => decide (p < 8 ^ R)) = true ∧ (∀ i < R, P i < R) ∧ ∀ i < R, ∀ j < R, P i = P j → i = j
     legal none 6 ∧ legal (some 1) 2 ∧ ¬ legal (some 9) 2 ∧ ¬ legal (some 64) 2) := by
  refine ⟨?_, by decide +kernel, by decide⟩
  intro f m
  simp only [List.mem_cons, List.not_mem_nil, or_false] at m
  rcases m with rfl | rfl
  all_goals
    refine ⟨?_, by decide, by decide, ?_, rfl, by decide, by decide, by decide, by decide, by decide, by decide, by decide, by decide, by decide, by decide +kernel⟩
    · exact ⟨rfl, rfl, rfl, rfl, rfl, rfl, rfl, rfl, by decide, by decide, by decide⟩
    · show vtyRm _ ≤ 4; decide

/-! ### Chains -/

/-- Nodes: VLD r1 from g5, VADD r2 of r1 and r1, VST r2 to g6, VRSUM of r2 into r3 from r4, a feed, each of 32-bit integers. -/
def node (w : BitVec 32) : Node := ⟨w, 0x2000, vtyOf 5, 2, 2, 64, 0, 0⟩
def nVld : Node := node 0x000140B0
def nVadd : Node := node 0x00204121
def nVst : Node := node 0x00018131
def nVrsum : Node := node 0x008081AD
def nFeed : Node := node 0x1000023A

def body : Capture := ⟨0, false, 0x1000, 0, 0, [], none⟩
def capturing (c : Capture) : Drover := { put (ready (vtyOf 5) 8) 5 5 with capture := some c }
theorem wit_ChainsAreCaptured :
    (let s := world (put (ready (vtyOf 5) 8) 5 31); s.cur.unheld ∧ s.cur.typed = true ∧ s.cur.configured = true ∧ s.cur.cst.live = false ∧ (s.cur.getG 5).toNat < 32 ∧
      (∀ e ∈ (s.core (coreOf s.sel)).slots, e.1 = bits (s.cur.getG 5) 0 4 → e.2 = s.sel) ∧ s.cur.handles) ∧
    (let s := { world (put (ready (vtyOf 5) 8) 5 32) with cores := [(2, { Core.reset with slots := [(0, 0x12)] })] }
     (s.cur.getG 5).toNat ≥ 32 ∧ s.cur.unheld ∧ ∃ e ∈ (s.core (coreOf s.sel)).slots, e.1 = bits (s.cur.getG 5) 0 4 ∧ e.2 ≠ s.sel) ∧
    (let d := { drover with cst := { drover.cst with run := true } }; d.cst.run = true ∧ d.handles) ∧
    -- the words of a body
    (let s := world (capturing body); s.cur.capture = some body ∧ body.words < 64 ∧ body.nodes.length < 32 ∧ s.cur.tr.tvec ≠ 0 ∧
      (decodeRow 0x00204121 = .ok .vadd ∧ Row.vadd.wf 0x00204121 = true ∧ nodeWord 0x00204121 .vadd) ∧
      (decodeRow 0x200080A0 = .ok .settl ∧ decodeRow 0x100080A0 = .ok .setvty ∧ decodeRow 0x006080B7 = .ok .tshape ∧ decodeRow 0x90008039 = .ok .link ∧
        decodeRow 0x10000039 = .ok .chend) ∧
      (decodeRow 0x10000000 = .ok .nop ∧ Row.nop.wf 0x10000000 = true ∧ Row.nop ∉ [Row.settl, .setvty, .tshape, .link, .chend] ∧ ¬ nodeWord 0x10000000 .nop) ∧
      (∃ e, decodeRow 0x00000000 = .error e) ∧ { body with words := 64 }.words ≥ 64 ∧ { body with nodes := List.replicate 32 nVadd }.nodes.length ≥ 32) ∧
    -- LINK and CHEND
    (let s := world (capturing body); s.linked 0 ∧ ¬ s.linked (s.cur.getG 5) ∧ body.badLink = none ∧ body.nodes = []) ∧
    (let c := { body with nodes := [nVld, nVadd, nVst] }; let d := (world (capturing c)).cur; c.nodes ≠ [] ∧ badNode d c.nodes = none ∧ c.badLink = none) ∧
    (let c := { body with nodes := [nVld, { nVadd with vty := 0 }] }; let d := (world (capturing c)).cur
     badNode d c.nodes = some 1 ∧ c.badLink = none ∧ c.nodes[1]? = some { nVadd with vty := 0 } ∧ 1 < 32) ∧
    (let c := { body with nodes := [nVld, nVadd], badLink := some (0x1008, 63) }; let d := (world (capturing c)).cur
     c.nodes ≠ [] ∧ badNode d c.nodes = none ∧ c.badLink = some (0x1008, 63) ∧ 63 < 64) := by
  refine ⟨⟨⟨rfl, rfl⟩, rfl, rfl, rfl, by decide, by decide, by decide, rfl⟩, ⟨by decide, ⟨rfl, rfl⟩, by decide⟩, ⟨rfl, by decide, rfl⟩,
    ⟨rfl, by decide, by decide, by decide, ⟨rfl, rfl, .inl ⟨by decide, by decide⟩⟩, ⟨rfl, rfl, rfl, rfl, rfl⟩, ⟨rfl, rfl, by decide, ?_⟩, ⟨_, rfl⟩, by decide, by decide⟩,
    ⟨.inl ⟨rfl, flock, rfl, by decide⟩, ?_, rfl, rfl⟩, ⟨by decide, by decide +kernel, rfl⟩, ⟨by decide +kernel, rfl, rfl, by decide⟩, by decide, by decide +kernel, rfl, by decide⟩
  · unfold nodeWord; decide
  · rintro (⟨h, _⟩ | ⟨h, _⟩ | ⟨h, _⟩ | ⟨h, _⟩ | ⟨h, _⟩) <;> exact absurd h (by decide)

def template (tf : Bool) : Template := ⟨0, tf, [nVld, nVadd, nVst]⟩
/-- A drover with a live template, g5 its slot, g6 a count. -/
def live (tf : Bool) (n : Word) : Drover :=
  { put (put (ready (vtyOf 5) 8) 5 0) 6 n with template := some (template tf), cst := { drover.cst with live := true, csab := 0x40000 } }
/-- A run of it over n elements as CHRUN starts it, placed. -/
def run (tf : Bool) (n : Nat) : Run := { freshRun (live tf (.ofNat 64 n)) (template tf) n 0x1000 with placed := true }
def running (tf : Bool) (n : Nat) : Drover :=
  { live tf (.ofNat 64 n) with cst := { (live tf 0).cst with run := true }, run := some (run tf n) }
/-- The same after a fault break at element 1 of node 0. -/
def broken (tf : Bool) (n : Nat) (k : Break) : Drover :=
  { live tf (.ofNat 64 n) with cst := { (live tf 0).cst with rs := true, icause := k.icause }, run := some { run tf n with brk := some k } }

theorem wit_ChrunStartsARun :
    ((running false 64).cst.run = true ∧ (live false 64).unheld ∧ (live false 64).handles ∧ (ready (vtyOf 5) 8).template = none) ∧
    (∀ x ∈ [(false, (0x1000000000000 : Word)), (true, 1), (true, 0)], let s := world (live x.1 x.2); let d := s.cur; let t := template x.1
      d.unheld ∧ d.template = some t ∧ d.cst.live = true ∧ (d.getG 5).toNat = d.cst.slot ∧ d.cst.slot < 16 ∧ (d.getG 6).toNat ≤ 2 ^ 48 ∧ d.cst.csab ≠ 0 ∧ d.bks.st = 0 ∧
      d.state = .issuing ∧ d.ecc = [] ∧ s.sequenced s.sel t = none ∧ (∀ n ∈ t.nodes, n.row ≠ some .vscanlin) ∧ operandsBad d t = false) ∧
    (((live false 1).getG 6).toNat > 0 ∧ ((live true 0).getG 6).toNat = 0 ∧ ((live false 0x1000000000001).getG 6).toNat > 2 ^ 48) ∧
    (let k : Break := ⟨1, 7, 0, 1, none, false⟩; let s := world (broken true 64 k); let d := s.cur
     d.cst.run = false ∧ d.cst.rs = true ∧ d.template = some (template true) ∧ (∃ r, d.run = some r ∧ r.area = none ∧ r.brk = some k) ∧ k.owed = false ∧ d.state = .issuing ∧
     (s.core (coreOf s.sel)).srs.owner ≠ some s.sel) ∧
    (let s := { world { running false 64 with run := some { run false 64 with placed := false, since := 45 } } with tasks := [], cycle := 300 }
     s.Lone 0x13 ∧ (∃ r, (s.drover 0x13).run = some r ∧ r.placed = false ∧ r.booked = false ∧ r.since + 256 = s.cycle + 1) ∧ (s.drover 0x13).cst.run = true ∧
     (s.drover 0x13).state = .issuing ∧ (s.cycle + 1) % 8 ≠ 0) := by
  refine ⟨⟨rfl, ⟨rfl, rfl⟩, ⟨by decide, rfl⟩, rfl⟩, ?_, by decide, ⟨rfl, rfl, rfl, ⟨_, rfl, rfl, rfl⟩, rfl, rfl, by decide⟩, ⟨rfl, rfl, rfl, quiet_ rfl, rfl⟩, ⟨_, rfl, rfl, rfl, rfl⟩, rfl, rfl, by decide⟩
  · intro x m
    simp only [List.mem_cons, List.not_mem_nil, or_false] at m
    rcases m with rfl | rfl | rfl
    all_goals exact ⟨⟨rfl, rfl⟩, rfl, rfl, rfl, by decide, by decide, by decide, rfl, rfl, rfl, rfl, by decide, by decide⟩

/-- A drover with a live template of nodes, and its run of n elements, the first queue holding tokens. -/
def armedWith (ns : List Node) : Drover :=
  { ready (vtyOf 5) 8 with template := some ⟨0, false, ns⟩, cst := { drover.cst with live := true, csab := 0x40000 } }
def runOf (ns : List Node) (toks : List Token) (n : Nat) : Run :=
  { freshRun (armedWith ns) ⟨0, false, ns⟩ n 0x1000 with placed := true, queues := ns.zipIdx.map (fun e => ⟨0, if e.2 = 0 then toks else []⟩) }
def going (ns : List Node) (r : Run) : Drover := { armedWith ns with cst := { (armedWith ns).cst with run := true }, run := some r }
def firing (ns : List Node) (toks : List Token) (n : Nat) : Drover := going ns (runOf ns toks n)
/-- The same with every strip of every node done. -/
def doneRun (ns : List Node) (n : Nat) : Run := { runOf ns [] n with nodes := (runOf ns [] n).nodes.map (fun x => { x with strip := (n + 63) / 64, pix := n }) }
def nScan : Node := node 0xB08081AD

theorem wit_RunsAreAwaitedAndEnd :
    (let s := world (live false 64); s.cur.unheld ∧ s.unacked = [] ∧ s.cur.cst.live = true ∧ s.cur.cst.run = false ∧
      (s.core (coreOf s.sel)).srs.owner ≠ some s.sel ∧ s.cur.wait = none) ∧
    (let s := { world (live false 64) with unacked := [(1, 0x13)] }; s.cur.unheld ∧ ∃ e ∈ s.unacked, e.2 = s.sel) := by
  refine ⟨⟨⟨rfl, rfl⟩, rfl, rfl, rfl, ?_, rfl⟩, ⟨⟨rfl, rfl⟩, ?_⟩⟩
  · exact (by decide : Srs.reset.owner ≠ some 0x13)
  · exact ⟨(1, 0x13), List.mem_singleton.mpr rfl, rfl⟩
theorem wit_RunsAreAwaited :
    (let s := { world (running false 64) with unacked := [(1, 0x13)] }; s.cur.cst.run = true ∧ s.cur.cst.live = true ∧ s.cur.run = some (run false 64) ∧ ∃ e ∈ s.unacked, e.2 = s.sel) ∧
    (0 ∈ (run false 64).nodes.map (·.pix) ∧ ∀ x ∈ (run false 64).nodes, 0 ≤ x.pix) := by
  refine ⟨⟨rfl, rfl, rfl, ?_⟩, by decide +kernel⟩
  exact ⟨(1, 0x13), List.mem_singleton.mpr rfl, rfl⟩
theorem wit_RunsAreQueried :
    let s := world (put (running false 64) 5 2); s.cur.cst.live = true ∧ s.cur.cst.run = true ∧ s.unacked = [] ∧ s.reqs = [] ∧ s.reps = [] ∧ (s.cur.getG 5).toNat = 2 ∧
      s.cur.run = some (run false 64) :=
  ⟨rfl, rfl, rfl, rfl, rfl, rfl, rfl⟩
theorem wit_ChainQueryTraps :
    (drover.cst.live = false) ∧ drover.handles ∧ (∀ v ∈ [3, 0x1F, 0x40], ((with5 (.ofNat 64 v)).cur.getG 5).toNat ∉ [0, 1, 2] ∧
      (((with5 (.ofNat 64 v)).cur.getG 5).toNat < 0x20 ∨ 0x3F < ((with5 (.ofNat 64 v)).cur.getG 5).toNat)) :=
  ⟨rfl, handles_, by decide +kernel⟩

def sinkNodes : List Node := [nVld, nVadd, nVrsum, nScan]
theorem wit_RunsAreAwaitedAndEnd_end :
    let s := world (going sinkNodes (doneRun sinkNodes 64)); let d := s.drover 0x13; let r := doneRun sinkNodes 64
    d.run = some r ∧ d.template = some ⟨0, false, sinkNodes⟩ ∧ d.cst.run = true ∧ d.wait = none ∧ d.state = .issuing ∧ s.plainRun 0x13 r ∧ d.ecc = [] ∧
    (∀ x ∈ r.nodes, (r.count + 63) / 64 ≤ x.strip) ∧ (∀ e ∈ sinkNodes.zip r.nodes, e.1.kind = 6 → (foldNode e.1 e.2).2 = []) ∧
    (let sinks := (sinkNodes.zip r.nodes).zipIdx.filter (fun e => e.1.1.kind == 6 || e.1.1.kind == 7)
     let rowOf := fun (e : (Node × NodeRun) × Nat) => if e.1.1.kind = 6 then e.1.1.fa else e.1.1.fc
     (sinks.map rowOf).Nodup ∧ ∀ e ∈ sinks, rowOf e < 256 ∧ e.1.1.row ≠ some .vscanlin ∧ 8 ≤ e.1.1.w ∧ e.1.1.w ≤ 64 ∧ (e.1.1.kind = 7 → e.1.2.entries ≠ [])) :=
  ⟨rfl, rfl, rfl, rfl, rfl, ⟨rfl, rfl, rfl, rfl, rfl, rfl, by decide⟩, rfl, by decide +kernel, by decide +kernel, by decide +kernel⟩

/-- What every firing asks, of node k. -/
def mayFire (d : Drover) (k : Nat) : Prop := let s := world d; let e := s.drover 0x13
  ∃ t r n x, e.run = some r ∧ e.template = some t ∧ t.nodes[k]? = some n ∧ r.nodes[k]? = some x ∧ r.placed = true ∧ s.plainRun 0x13 r ∧ canFire e k = true ∧ s.unitFree 0x13 k = true ∧
    x.pix = 64 * x.strip ∧ x.spos = 0 ∧ e.streams = [] ∧ e.ecc = [] ∧ (∀ c, s.tren e.flock c = false) ∧ (∀ q, r.queues[k]? = some q → q.hs + q.tokens.length = x.strip) ∧ n.masked = false ∧
    (∀ q ∈ inputs t.nodes k, ∃ y T, r.queues[q]? = some y ∧ y.at_ x.strip = some T ∧ T.elems.length = Nat.min 64 (r.count - 64 * x.strip) ∧ ∀ e ∈ T.elems, e < 2 ^ n.w)
def nVlds : Node := node 0x20C140B0
def nVst1 : Node := node 0x000180B1
def nVsts : Node := node 0x10C140B1
def pair : List Token := [⟨[7, 0xFFFFFFFF], true⟩]
theorem wit_NodesFireInTheReferenceOrder :
    (∀ ns ∈ [[nVld, nVadd], [nVlds, nVadd]], mayFire (firing ns [] 2) 0) ∧ (∀ ns ∈ [[nVld, nVst1], [nVld, nVsts], [nVld, nVadd], [nVld, { nVrsum with word := 0x008041AD }]], mayFire (firing ns pair 2) 1) := by
  have pr : ∀ ns toks, (world (firing ns toks 2)).plainRun 0x13 (runOf ns toks 2) := fun _ _ => ⟨rfl, rfl, rfl, rfl, rfl, rfl, (by decide : Srs.reset.owner ≠ some 0x13)⟩
  constructor
  · intro ns m
    simp only [List.mem_cons, List.not_mem_nil, or_false] at m
    rcases m with rfl | rfl
    all_goals
      refine ⟨⟨0, false, _⟩, runOf _ [] 2, _, _, rfl, rfl, rfl, rfl, rfl, pr _ _, by decide +kernel, by decide +kernel, rfl, rfl, rfl, rfl, quiet_ rfl, ?_, rfl, ?_⟩
      · intro q h; cases h; rfl
      · intro q m
        exact absurd m (by clear m; revert q; exact List.eq_nil_iff_forall_not_mem.mp (by decide +kernel))
  · intro ns m
    simp only [List.mem_cons, List.not_mem_nil, or_false] at m
    rcases m with rfl | rfl | rfl | rfl
    all_goals
      refine ⟨⟨0, false, _⟩, runOf _ pair 2, _, _, rfl, rfl, rfl, rfl, rfl, pr _ _, by decide +kernel, by decide +kernel, rfl, rfl, rfl, rfl, quiet_ rfl, ?_, rfl, ?_⟩
      · intro q h; cases h; rfl
      · intro q m
        have : q = 0 := by
          revert m; revert q; decide +kernel
        subst this
        exact ⟨_, _, rfl, rfl, rfl, by decide⟩

/-- The world with a memory. -/
def worldMem (d : Drover) (m : List (Nat × Byte)) : State := { world d with mem := m }

theorem page_check (d : Drover) (m : List (Nat × Byte)) (ag : Agent) (want : Want) (a : Nat) (hw : want = .read ∨ want = .write) (hc : ag.ctx = 1) :
    checkLeaf (worldMem d m) ag want a ⟨0x60F, 0x700000, 2, none⟩ = none := by
  obtain ⟨ctx, die, sup, fl, key, own, eng, src, strip, who, l1⟩ := ag
  subst hc
  rcases hw with rfl | rfl <;> rfl

theorem page_leaf (d : Drover) (m : List (Nat × Byte)) (ag : Agent) (want : Want) (a : Nat) (hw : want = .read ∨ want = .write) (hc : ag.ctx = 1)
    (hd : ag.die = 0) (ha : a < 2 ^ 24) : (worldMem d m).findLeaf ag want a = .ok (⟨0x60F, 0x700000, 2, none⟩, true) := by
  have hl : ((worldMem d m).die ag.die).lookup ag (a / 4096) = some page := by
    have h1 : (worldMem d m).die ag.die = { Die.reset with tlb := [page] } := by rw [hd]; rfl
    have h2 : tlbFind [page] 1 (a / 4096) = some page := by
      have : a / 4096 < 0 + 2 ^ 12 := by omega
      simp [tlbFind, page] <;> omega
    have h3 : tlbFind [] 1 (a / 4096) = none := rfl
    rw [h1, Die.lookup, hc]
    show (match (if ag.l1 then tlbFind [] 1 (a / 4096) else none) with | some e => some e | none => tlbFind [page] 1 (a / 4096)) = _
    rw [h3, h2]; split <;> simp_all
  have ht : touched want page.pte = page.pte := by rcases hw with rfl | rfl <;> rfl
  rw [State.findLeaf, hl]
  have hk := page_check d m ag want a hw hc
  change checkLeaf _ ag want a ⟨page.pte, page.pteAddr, leafLevel page.pages, none⟩ = none at hk
  simp only [hk, ht]
  rfl

/-- With no watchpoint set nothing is matched. -/
theorem quiet_watch {s : State} {ag : Agent} {want : Want} {va n : Nat} (h : s.debug ag.flock = Debug.reset) (hf : ag.flock ≠ 0)
    (hw : want = .read ∨ want = .write) : s.watchCheck ag want va n = (s, false) := by
  have hh : ∀ (a b : Bool) (c : Nat) (e f : Bool) (va' m' : Nat), (watchHits Debug.reset a c b e f va' m').isEmpty = true := fun _ _ _ _ _ _ _ => rfl
  have hfe : (want == .fetch) = false := by rcases hw with rfl | rfl <;> rfl
  have hn : s.noteWatch ag want va n ag.flock = s := by unfold State.noteWatch; rw [h]; exact if_pos (hh ..)
  unfold State.watchCheck
  rw [hfe, h, State.watchedBy, if_pos hf]
  cases ag.own
  · cases ag.eng
    · rfl
    · exact congrArg (·, false) hn
  · have ho : ∀ (x y : Bool) (t u : State × Bool), x = true → (if (x || y) = true then t else u) = t := by rintro x y t u rfl; rfl
    rw [if_neg (by decide), if_pos rfl]
    exact ho _ _ _ _ (hh ..)

/-- An access of context 1 below 16 MiB lands at its own address. -/
theorem page_locate (d : Drover) (m : List (Nat × Byte)) (ag : Agent) (want : Want) (va : Word) (n : Nat) (hw : want = .read ∨ want = .write)
    (hc : ag.ctx = 1) (hd : ag.die = 0) (hf : ag.flock = 7) (ha : va.toNat < 2 ^ 24) (hn : va.toNat % n = 0) :
    (worldMem d m).locate ag want va n = .ok (worldMem d m, ⟨va.toNat, 0x60F, 0⟩) := by
  have hlow : (va.extractLsb' 0 56).toNat = va.toNat := by
    rw [BitVec.extractLsb'_toNat]; simp; omega
  have hcanon : isCanon va = true := by
    have hm : (va.extractLsb' 0 56).msb = false := by
      rw [BitVec.msb_eq_decide, hlow]; simp; omega
    simp only [isCanon, canon, beq_iff_eq]
    apply BitVec.eq_of_toNat_eq
    rw [BitVec.toNat_signExtend, hm, BitVec.toNat_setWidth, hlow]; simp; omega
  have hp : (worldMem d m).placeOf ag 0x60F 2 va.toNat = ⟨va.toNat, 0x60F, 0⟩ := by
    simp only [State.placeOf, ptePPN, leafPages, Place.mk.injEq, true_and]
    refine ⟨?_, rfl⟩
    have h1 : ((0x60F : Word).extractLsb' 12 40).toNat = 0 := by decide
    have h2 : pow2 18 = 262144 := rfl
    rw [h1, if_pos trivial, h2]; omega
  have htr : (worldMem d m).translate ag want va = .ok (worldMem d m, ⟨va.toNat, 0x60F, 0⟩) := by
    have ht : touched want 0x60F = 0x60F := by rcases hw with rfl | rfl <;> rfl
    simp only [State.translate, hlow, page_leaf d m ag want va.toNat hw hc hd ha, page_check d m ag want va.toNat hw hc, ht, if_true, hp]
  have hdb : (worldMem d m).debug ag.flock = Debug.reset := by rw [hf]; rfl
  have hwatch : (worldMem d m).watchCheck ag want va.toNat n = (worldMem d m, false) := by
    exact quiet_watch hdb (by rw [hf]; decide) hw
  have hn' : (va.toNat % n != 0) = false := by rw [hn]; rfl
  rw [State.locate, hcanon, hn', htr]
  simp only [hwatch, Bool.not_true, Bool.false_eq_true, if_false]
theorem putBytes_world (d : Drover) (m : List (Nat × Byte)) (l : List Byte) (pa : Nat) : ∃ m', (worldMem d m).putBytes 0 pa l = worldMem d m' := by
  induction l generalizing m pa with
  | nil => exact ⟨m, rfl⟩
  | cons b l ih => exact ih (Memory.set m pa b) (pa + 1)

theorem page_sound (d : Drover) (m : List (Nat × Byte)) (l : Nat) : (worldMem d m).Sound l := ⟨rfl, rfl⟩
theorem page_hbm (a n : Nat) (h : a < 2 ^ 24) (hn : n ≤ 64) : isHbm a n = true := by
  have : 2 ^ 24 + 64 ≤ hbmSize := by decide
  simp [isHbm]; omega

/-- Any lines below 16 MiB can be written. -/
theorem page_writes (d : Drover) (ag : Agent) (hc : ag.ctx = 1) (hd : ag.die = 0) (hf : ag.flock = 7) (l : List (Word × Nat))
    (hl : ∀ e ∈ l, e.1.toNat < 2 ^ 24 ∧ e.1.toNat % 64 = 0) (m : List (Nat × Byte)) : ∃ m', State.WritesFor ag 64 (worldMem d m) l (worldMem d m') := by
  induction l generalizing m with
  | nil => exact ⟨m, .nil _⟩
  | cons e l ih =>
    obtain ⟨h1, h2⟩ := hl e (.head _)
    obtain ⟨m1, e1⟩ := putBytes_world d m (leBytes 64 e.2) e.1.toNat
    obtain ⟨m2, e2⟩ := ih (fun x hx => hl x (.tail _ hx)) m1
    exact ⟨m2, .cons ⟨page_locate d m ag .write e.1 64 (.inr rfl) hc hd hf h1 h2, page_hbm _ _ h1 (by decide), fun _ _ => page_sound d m _⟩ (e1 ▸ e2)⟩

theorem number_empty (d : Drover) (a n : Nat) : (worldMem d []).number 0 a n = 0 := by
  induction n with
  | zero => rfl
  | succ n ih =>
    have : (worldMem d []).viewByte 0 (a + n) = 0 := rfl
    simp [State.number, ih, this]
/-- Lines of zeros below 16 MiB read from an empty memory. -/
theorem page_reads (d : Drover) (ag : Agent) (hc : ag.ctx = 1) (hd : ag.die = 0) (hf : ag.flock = 7) (l : List (Word × Nat))
    (hl : ∀ e ∈ l, e.1.toNat < 2 ^ 24 ∧ e.1.toNat % 64 = 0 ∧ e.2 = 0) : State.ReadsFor ag 64 (worldMem d []) l (worldMem d []) := by
  induction l with
  | nil => exact .nil _
  | cons e l ih =>
    obtain ⟨h1, h2, h3⟩ := hl e (.head _)
    exact .cons ⟨page_locate d [] ag .read e.1 64 (.inl rfl) hc hd hf h1 h2, page_hbm _ _ h1 (by decide), fun _ _ => page_sound d [] _⟩
      ((number_empty d _ _).trans h3.symm) (ih (fun x hx => hl x (.tail _ hx)))
theorem area_low (D : Nat) : ∀ e ∈ areaLines 0x40000 D 0x7B900, e.1.toNat < 2 ^ 24 ∧ e.1.toNat % 64 = 0 := by
  intro e m
  obtain ⟨k, hk, rfl⟩ := List.mem_map.mp m
  have : k < 7908 := List.mem_range.mp hk
  have h : (0x40000 + BitVec.ofNat 64 (64 * k) : Word).toNat = 0x40000 + 64 * k := by
    rw [BitVec.toNat_add, BitVec.toNat_ofNat]; simp; omega
  simp only [h]; omega
theorem area_zero : ∀ e ∈ areaLines 0x40000 0 0x7B900, e.1.toNat < 2 ^ 24 ∧ e.1.toNat % 64 = 0 ∧ e.2 = 0 := by
  intro e m
  obtain ⟨h1, h2⟩ := area_low 0 e m
  obtain ⟨k, _, rfl⟩ := List.mem_map.mp m
  exact ⟨h1, h2, by simp [fieldOf]⟩

/-- A block of whole lines below 16 MiB is written. -/
theorem page_storeLines (d : Drover) (ag : Agent) (hc : ag.ctx = 1) (hd : ag.die = 0) (hf : ag.flock = 7) (fuel : Nat) (l : List Byte) (va : Word)
    (m : List (Nat × Byte)) (hl : l.length % 64 = 0) (ha : va.toNat % 64 = 0) (hv : va.toNat + l.length < 2 ^ 24) :
    ∃ m', storeLines (worldMem d m) ag va l fuel = .ok (worldMem d m') () := by
  induction fuel generalizing l va m with
  | zero => exact ⟨m, rfl⟩
  | succ fuel ih =>
    by_cases he : l = []
    · subst he; exact ⟨m, rfl⟩
    have hpos : 64 ≤ l.length := by
      have : 0 < l.length := List.length_pos_iff.mpr he
      omega
    have ht : (l.take 64).length = 64 := by simp; omega
    obtain ⟨m1, e1⟩ := putBytes_world d m (l.take 64) va.toNat
    have hs : (worldMem d m).storeAt ag va (l.take 64) = .ok (worldMem d m1) () := by
      rw [State.storeAt, State.storeCover, ht, page_locate d m ag .write va 64 (.inr rfl) hc hd hf (by omega) ha]
      have hln : linesOf va.toNat 64 = [va.toNat / 64] := by
        have : (va.toNat + 64 - 1) / 64 + 1 - va.toNat / 64 = 1 := by omega
        rw [linesOf, if_neg (by decide), this]; simp
      have hcp : ∀ x, (worldMem d m).clearPoison x = worldMem d m := fun _ => rfl
      simp [State.writePlace, ht, page_hbm va.toNat 64 (by omega) (by decide), hln, ha, hcp, e1]
    have hva : (va + 64).toNat = va.toNat + 64 := by rw [BitVec.toNat_add]; simp; omega
    obtain ⟨m2, e2⟩ := ih (l.drop 64) (va + 64) m1 (by simp; omega) (by rw [hva]; omega) (by rw [hva]; simp; omega)
    refine ⟨m2, ?_⟩
    have hne : l.isEmpty = false := by cases l <;> simp_all
    rw [storeLines, hne]
    simp only [Bool.false_eq_true, if_false, hs]
    exact e2

/-! ### Chain state areas -/

theorem flat_len (f : Nat → List Byte) (n : Nat) (l : List Nat) (h : ∀ k ∈ l, (f k).length = n) : (l.flatMap f).length = l.length * n := by
  induction l with
  | nil => simp
  | cons k l ih =>
    have h1 := h k (.head _)
    have h2 := ih (fun x hx => h x (.tail _ hx))
    simp only [List.flatMap_cons, List.length_append, List.length_cons, h1, h2, Nat.add_mul, Nat.one_mul, Nat.add_comm]
theorem padTo_length (n : Nat) (l : List Byte) : (padTo n l).length = n := by simp [padTo]; omega
theorem bytes_length (n v : Nat) : (leBytes n v).length = n := by simp [leBytes]
theorem snapBytes_length (l : List (Nat × List Nat)) (t : Nat) : (snapBytes l t).length = 512 := by
  unfold snapBytes; split
  · exact bytes_length _ _
  · exact List.length_replicate
theorem nodeRecord_length (ns : List Node) (r : Run) (k : Nat) : (nodeRecord ns r k).length = 128 := by
  unfold nodeRecord; split
  · exact padTo_length _ _
  · exact List.length_replicate
theorem queueRecord_length (d : Drover) (ns : List Node) (r : Run) (k : Nat) : (queueRecord d ns r k).length = 4160 := by
  unfold queueRecord; split
  · split
    · exact padTo_length _ _
    · exact List.length_replicate
  · exact List.length_replicate
theorem stateBlock_length (ns : List Node) (r : Run) (k : Nat) : (stateBlock ns r k).length = 8448 := by
  unfold stateBlock; split
  · split
    · rw [List.length_append, padTo_length, bytes_length]
    · exact padTo_length _ _
  · exact List.length_replicate
/-- The area of R318 has 0x7B900 bytes. -/
theorem area_length (d : Drover) (key : Nat) (t : Template) (r : Run) (owed : Bool) : (areaBytes d key t r owed).length = 0x7B900 := by
  unfold areaBytes
  simp only [List.length_append, padTo_length]
  rw [flat_len _ 128 _ (fun k _ => nodeRecord_length t.nodes r k), flat_len _ 4160 _ (fun k _ => queueRecord_length d t.nodes r k),
    flat_len _ 8448 _ (fun k _ => stateBlock_length t.nodes r k), flat_len _ 1024 (List.range 32), flat_len _ 16384 (List.range 4)]
  · rw [List.length_range, List.length_range]
  · intro k _; split
    · split
      · exact bytes_length _ _
      · exact List.length_replicate
    · exact List.length_replicate
  · intro k _; split
    · rw [List.length_append, snapBytes_length, snapBytes_length]
    · exact List.length_replicate

/-- The area at 0x40000 is stored whole. -/
theorem area_stored (d : Drover) (t : Template) (r : Run) (owed : Bool) {s : State} {va : Word} {l : List Byte} {ag : Agent}
    (hs : s = worldMem d [] := by rfl) (hv : va = 0x40000 := by rfl) (hl : l = areaBytes d 0x13 t r owed := by rfl) (hc : ag.ctx = 1 := by rfl)
    (hd : ag.die = 0 := by rfl) (hf : ag.flock = 7 := by rfl) : ∃ u, s.storeWhole ag va l = .ok u () ∧ u.cur = d ∧ u.sel = 0x13 := by
  have h := area_length d 0x13 t r owed
  rw [← hl] at h
  subst hs hv
  obtain ⟨m, e⟩ := page_storeLines d ag hc hd hf (l.length / 64 + 1) l 0x40000 [] (by rw [h]) (by decide) (by rw [h]; decide)
  exact ⟨worldMem d m, by rw [State.storeWhole, e], rfl, rfl⟩

/-- A drover whose broken run of one feed owes its CHAINF. -/
def fed : Template := ⟨0, true, [nFeed]⟩
def fedRun (owed : Bool) : Run := { freshRun (put (ready (vtyOf 5) 8) 5 0x40000) fed 64 0x1000 with brk := some ⟨1, 6, 0, 3, none, owed⟩ }
def owing (owed : Bool) : Drover :=
  { put (ready (vtyOf 5) 8) 5 0x40000 with
    template := some fed, cst := { drover.cst with live := true, rs := true, icause := 6, csab := 0x40000 }, run := some (fedRun owed) }
theorem wit_RunsAreAwaitedAndEnd_owed : let s := world (owing true); let d := s.cur; let k : Break := ⟨1, 6, 0, 3, none, true⟩
    d.cst.run = false ∧ d.cst.rs = true ∧ d.run = some (fedRun true) ∧ d.template = some fed ∧ (fedRun true).brk = some k ∧ k.owed = true ∧ k.fault = none ∧
      k.elem < 2 ^ 48 ∧ k.icause < 64 ∧ d.handles ∧
      ∃ u, s.storeWhole { s.agentOf s.sel with own := false } d.cst.csab (areaBytes d s.sel fed (fedRun true) true) = .ok u () ∧ u.cur = d ∧ u.sel = s.sel := by
  refine ⟨rfl, rfl, rfl, rfl, rfl, rfl, rfl, by decide, by decide, handles_, ?_⟩
  exact area_stored (owing true) fed (fedRun true) true

theorem wit_ChainStateMovesThroughItsArea :
    -- CHSAVE of a template in which no run has begun, and of a broken run
    (let s := world (put (live true 64) 5 0x40000); let d := s.cur; let r := freshRun d (template true) 0 0; let E := leNat (areaBytes d s.sel (template true) r false)
     d.template = some (template true) ∧ d.cst.live = true ∧ d.cst.run = false ∧ (d.getG 5).toNat % 64 = 0 ∧ (template true).slot < 16 ∧
       (template true).nodes.length ≤ 32 ∧ (∀ n ∈ (template true).nodes, n.core ≤ 4) ∧ d.cst.rs = false ∧ r.count ≤ 2 ^ 48 ∧ (∀ x ∈ r.nodes, x.pix < 2 ^ 64) ∧
       ∃ u, s.WritesFor (s.agentOf s.sel) 64 (areaLines (d.getG 5) E 0x7B900) u) ∧
    (let s := world (owing false); let d := s.cur; let r := fedRun false; let E := leNat (areaBytes d s.sel fed r false)
     d.template = some fed ∧ d.cst.live = true ∧ d.cst.run = false ∧ (d.getG 5).toNat % 64 = 0 ∧ d.cst.rs = true ∧ d.run = some r ∧ r.count ≤ 2 ^ 48 ∧
       (∀ n ∈ fed.nodes, n.core ≤ 4) ∧ (∀ x ∈ r.nodes, x.pix < 2 ^ 64) ∧ ∃ u, s.WritesFor (s.agentOf s.sel) 64 (areaLines (d.getG 5) E 0x7B900) u) ∧
    (let d := put (live true 64) 5 0x40008; d.template = some (template true) ∧ d.cst.live = true ∧ d.cst.run = false ∧ (d.getG 5).toNat % 64 ≠ 0 ∧ d.handles) ∧
    (drover.template = none ∧ drover.handles) ∧
    -- CHLOAD of an area of zeros, whose version is not 1
    (let s := world (put (live true 64) 5 0x40000); let d := s.cur
     d.template = some (template true) ∧ d.cst.live = true ∧ d.unheld ∧ s.ReadsFor (s.agentOf s.sel) 64 (areaLines (d.getG 5) 0 0x7B900) s ∧
       s.srsOf s.sel = Srs.reset ∧ fieldOf 0 0 2 ≠ 1 ∧ d.handles) := by
  refine ⟨⟨rfl, rfl, rfl, rfl, by decide, by decide, by decide, rfl, by decide, by decide +kernel, ?_⟩,
    ⟨rfl, rfl, rfl, rfl, rfl, rfl, by decide, by decide, by decide +kernel, ?_⟩, ⟨rfl, rfl, rfl, by decide, handles_⟩, ⟨rfl, handles_⟩,
    ⟨rfl, rfl, ⟨rfl, rfl⟩, ?_, rfl, by decide, handles_⟩⟩
  · obtain ⟨m, h⟩ := page_writes (put (live true 64) 5 0x40000) ((world (put (live true 64) 5 0x40000)).agentOf 0x13) rfl rfl rfl _ (area_low _) []
    exact ⟨_, h⟩
  · obtain ⟨m, h⟩ := page_writes (owing false) ((world (owing false)).agentOf 0x13) rfl rfl rfl _ (area_low _) []
    exact ⟨_, h⟩
  · exact page_reads (put (live true 64) 5 0x40000) ((world (put (live true 64) 5 0x40000)).agentOf 0x13) rfl rfl rfl _ area_zero

/-! ### Queues -/

/-- A run over 64 elements of a feed that nothing consumes and a VLD: queue 0 is the feed's, 1 a tap of the load. -/
def queueNodes : List Node := [nFeed, nVld]
def queued (toks : List Token) (hs n : Nat) : Drover :=
  going queueNodes { runOf queueNodes [] n with queues := [⟨hs, toks⟩, ⟨0, []⟩] }
def eight : List Token := List.replicate 8 ⟨List.replicate 64 1, true⟩
theorem wit_QueuesPassTokens :
    let t : Template := ⟨0, false, queueNodes⟩
    let r := fun toks hs n => ({ runOf queueNodes [] n with queues := [⟨hs, toks⟩, ⟨0, []⟩] } : Run)
    let ok := fun (d : Drover) (toks : List Token) (hs n : Nat) => d.template = some t ∧ d.cst.live = true ∧ t.nodes[0]? = some nFeed ∧
      (r toks hs n).queues[0]? = some ⟨hs, toks⟩ ∧ d.run = some (r toks hs n) ∧ d.streams = [] ∧ d.ecc = [] ∧ d.rowsAlloc ≤ 256 ∧ d.cst.rs = false ∧ nFeed.kind = 9 ∧
      d.cst.run = true ∧ d.handles
    (ok (queued [] 0 64) [] 0 64 ∧ 0 + 0 < (64 + 63) / 64 ∧ (queued [] 0 64).phys 2 < (queued [] 0 64).rowsAlloc ∧ (r [] 0 64).nodes.length = t.nodes.length ∧
      (∀ c ∈ consumers t.nodes 0, False)) ∧
    (ok (queued eight 0 1024) eight 0 1024 ∧ 0 + eight.length < (1024 + 63) / 64 ∧ eight.length ≥ 8) ∧
    (ok (queued [] 1 64) [] 1 64 ∧ (64 + 63) / 64 ≤ 1 + 0) ∧
    (nVld.kind ≠ 9) ∧
    -- the feed's queue has no consumer: it is a tap
    (isTap (queued eight 0 1024) t.nodes 0 = true ∧ nFeed.tokW (queued eight 0 1024).vec.af ∈ [8, 16, 32, 64] ∧ eight = ⟨List.replicate 64 1, true⟩ :: List.replicate 7 ⟨List.replicate 64 1, true⟩) ∧
    (let d := { queued [] 0 64 with cst := { (queued [] 0 64).cst with run := false } }; d.unheld ∧ d.template = some t ∧ d.run = some (r [] 0 64)) ∧
    (let ns := [nVld, nVadd]; isTap (firing ns [] 2) ns 0 = false) ∧ drover.template = none := by
  refine ⟨⟨⟨rfl, rfl, rfl, rfl, rfl, rfl, rfl, by decide, rfl, rfl, rfl, handles_⟩, by decide, by decide, rfl, by decide +kernel⟩,
    ⟨⟨rfl, rfl, rfl, rfl, rfl, rfl, rfl, by decide, rfl, rfl, rfl, handles_⟩, by decide, by decide⟩,
    ⟨⟨rfl, rfl, rfl, rfl, rfl, rfl, rfl, by decide, rfl, rfl, rfl, handles_⟩, by decide⟩, by decide, ⟨by decide +kernel, by decide, rfl⟩,
    ⟨⟨rfl, rfl⟩, rfl, rfl⟩, by decide +kernel, rfl⟩

/-! ### Bookings -/

/-- The profile of one lane-group entry: quanta 1 and 2 of four groups. -/
def profileMem : List (Nat × Byte) := [(0x2000, 1), (0x2002, 1), (0x2024, 1), (0x2026, 2), (0x2028, 0xF)]
def profile : Nat := 1 + 1 * 2 ^ 16 + (1 * 2 ^ 32 + 2 * 2 ^ 48 + 0xF * 2 ^ 64) * 2 ^ 256
def entry : BookEntry := ⟨0, 1, 3, 2, 0xF, 0⟩
theorem profile_is : Profiles profile 1 4 [entry] where
  header := by decide
  entries := by
    intro i e h
    match i with
    | 0 => cases h; decide +kernel
    | _ + 1 => cases h
  timed := by decide
  limits := by decide
  apart := .cons (fun _ h => nomatch h) .nil

def booker (st : Nat) (f : Option Search) : Drover := { put drover 5 0x2000 with bks := ⟨st, 0, 0, f⟩ }
def booking (start : Nat) (started runs : Bool) (l : List BookEntry) : Booking := ⟨2, some 0x13, none, start, started, runs, l⟩
theorem wit_BookingInstructionsActOnTheState :
    (∀ x ∈ [(booker 0 none), booker 1 (some ⟨4, none, false⟩), booker 2 none, booker 3 none], let s := world x
      s.cur.state = .issuing ∧ s.cur.wait = none ∧ (∀ c, s.tren s.cur.flock c = false) ∧ s.cur.cst.run = false ∧ s.cur.handles) ∧
    ((booker 1 (some ⟨4, none, false⟩)).bks.search.isSome = true) ∧
    ((put (booker 0 none) 5 0x2008).getG 5).toNat % 64 ≠ 0 ∧
    (∀ st ∈ [0, 2], let s := { world (booker st none) with mem := profileMem }; let va := s.cur.getG 5
      (∃ u, s.ReadsFor (s.agentOf s.sel) 8 (wordsAt va profile (4 + 4 * 1)) u) ∧ va.toNat % 64 = 0 ∧ Profiles profile s.cur.lgMin s.cur.lgMax [entry] ∧ s.cur.bks.st = st ∧
        s.cur.bks.search = none) ∧
    (let s := { world (booker 2 none) with bookings := [booking 40 false false [entry.from 40]] }
     s.bookingOf s.sel = some (booking 40 false false [entry.from 40]) ∧ (booking 40 false false [entry.from 40]).core = coreOf s.sel) := by
  refine ⟨?_, rfl, by decide, ?_, rfl, rfl⟩
  · intro x m
    simp only [List.mem_cons, List.not_mem_nil, or_false] at m
    rcases m with rfl | rfl | rfl | rfl
    all_goals exact ⟨rfl, rfl, quiet_ rfl, rfl, ⟨by decide, rfl⟩⟩
  · intro st m
    simp only [List.mem_cons, List.not_mem_nil, or_false] at m
    rcases m with rfl | rfl
    all_goals exact ⟨readsFor_ (by decide +kernel), by decide, profile_is, rfl, rfl⟩

/-- A package whose only drover is d, one cycle before a quantum boundary. -/
def lone (d : Drover) (bs : List Booking) (freed : Bool) : State :=
  { world d with tasks := [], cycle := 111, bookings := bs, cores := [(2, { Core.reset with freed := freed })] }
theorem lone_is {d : Drover} {bs : List Booking} {f : Bool} (h : d.flock = 7) : (lone d bs f).Lone 0x13 :=
  ⟨rfl, rfl, rfl, by
    change ∀ c, (lone d bs f).tren d.flock c = false
    rw [h]; exact quiet_ rfl, by
    change ((lone d bs f).debug d.flock).dctl.getLsbD 2 = false
    rw [h]; exact (by decide : Debug.reset.dctl.getLsbD 2 = false)⟩
def unitEntry (b : Nat) : BookEntry := ⟨1, b, b + 2, 2, 1, 0⟩
theorem wit_BookingsStartAndEnd :
    -- a search that ends: malformed, off the mesh, past the horizon, in a start; and none
    (∀ x ∈ [none, some [entry], some [⟨4, 0, 2, 2, 8, 0⟩], some [⟨1, 1000, 1024, 24, 1, 0⟩]], let s := lone (booker 1 (some ⟨4, x, false⟩)) [] false; let d := s.drover 0x13
      s.Lone 0x13 ∧ s.cycle % 8 = 7 ∧ d.state = .issuing ∧ d.wait = none ∧ d.run = none ∧ s.bookings = [] ∧ (∀ e ∈ s.cores, e.2.freed = false) ∧ d.bks.st = 1 ∧
        d.bks.search = some ⟨4, x, false⟩) ∧
    ((lone (booker 0 none) [] false).drover 0x13).bks.search = none ∧
    (∀ e ∈ [entry], e.cls < 4 ∧ e.mask < 2 ^ 16) ∧ (∀ e ∈ [entry], e.until_ ≤ 1022) ∧ 1022 < (⟨1, 1000, 1024, 24, 1, 0⟩ : BookEntry).until_ ∧
    ((8 : Nat).testBit 3 = true ∧ neighbour (coreOf 0x13) (3 + 1) = none) ∧
    -- quanta freed before the start, the start itself, the end with no run
    (let b := booking 40 false false [entry.from 40]; let s := lone (booker 2 none) [b] true
     s.Lone 0x13 ∧ (s.core 2).freed = true ∧ b.started = false ∧ s.cycle / 8 + 1 + 2 < b.start ∧ b.entries = [entry].map (fun e => e.from b.start) ∧ s.bookings = [b]) ∧
    (∀ d ∈ [booker 2 none, { booker 2 none with state := .awaiting, wait := some .booking, lgm := 0 }], let b := booking 14 false false [entry.from 14]; let s := lone d [b] false
     s.Lone 0x13 ∧ b.started = false ∧ b.start = s.cycle / 8 + 1 ∧ d.bks.st = 2 ∧ b.runStarted = false ∧ (∃ e ∈ b.entries, e.cls < 7 ∧ s.cycle / 8 + 1 < e.until_) ∧
       b.withholds ≠ 0 ∧ d.run = none ∧ d.bks.search = none) ∧
    (let b := booking 9 true false [unitEntry 12]; let s := lone (booker 3 none) [b] false
     s.Lone 0x13 ∧ b.started = true ∧ b.runStarted = false ∧ (∃ e ∈ b.entries, e.cls < 7 ∧ e.until_ = s.cycle / 8 + 1) ∧ (∀ e ∈ b.entries, e.cls < 7 → e.until_ ≤ s.cycle / 8 + 1)) ∧
    -- an entry that ends under a run
    (let b := booking 9 true true [unitEntry 12]; let d := { running false 64 with bks := ⟨3, 0, 72, none⟩, run := some { run false 64 with booked := true } }; let s := lone d [b] false
     s.Lone 0x13 ∧ b.runStarted = true ∧ d.bks.st = 3 ∧ d.cst.run = true ∧ (∃ r, d.run = some r ∧ r.placed = true ∧ r.booked = true ∧ ∃ x ∈ r.nodes, x.pix < r.count) ∧
       (s.core 2).srs.owner ≠ some 0x13 ∧ d.state = .issuing ∧ d.wait = none ∧ (∃ e ∈ b.entries, e.cls ∈ [0, 1, 3] ∧ e.until_ = s.cycle / 8 + 1) ∧
       (∀ e ∈ b.entries, e.cls ∈ [0, 1, 3] → s.cycle / 8 + 1 ≤ e.until_)) := by
  refine ⟨?_, rfl, by decide, by decide, by decide, by decide, ⟨lone_is rfl, rfl, rfl, by decide, rfl, rfl⟩, ?_, ⟨lone_is rfl, rfl, rfl, by decide, by decide⟩,
    ⟨lone_is rfl, rfl, rfl, rfl, ⟨_, rfl, rfl, rfl, by decide +kernel⟩, by decide, rfl, rfl, by decide, by decide⟩⟩
  · intro x m
    simp only [List.mem_cons, List.not_mem_nil, or_false] at m
    rcases m with rfl | rfl | rfl | rfl
    all_goals exact ⟨lone_is rfl, rfl, rfl, rfl, rfl, rfl, by decide, rfl, rfl⟩
  · intro d m
    simp only [List.mem_cons, List.not_mem_nil, or_false] at m
    rcases m with rfl | rfl
    all_goals exact ⟨lone_is rfl, rfl, rfl, rfl, rfl, by decide, by decide, rfl, rfl⟩

theorem nil_all {α : Type} {P : α → Prop} : ∀ x ∈ ([] : List α), P x := fun _ m => nomatch m

/-! ### The sequencer -/

/-- A block that configures slot 0, nodes 0 and 1, one tile of 8 × 8, signed at 0x4000; the words that hold it. -/
def srsCfg : SrsCfg := ⟨0, 0, 1, 3, 3, 1, 0, 0x4000, 0x5000, 0x6000⟩
def srsMem : List (Nat × Byte) := [(0x2002, 1), (0x2003, 0x33), (0x2004, 1), (0x2011, 0x40), (0x2019, 0x50), (0x2021, 0x60)]
def srsBlock : Nat := 1 * 256 ^ 2 + 0x33 * 256 ^ 3 + 256 ^ 4 + 0x40 * 256 ^ 0x11 + 0x50 * 256 ^ 0x19 + 0x60 * 256 ^ 0x21
theorem srsBlock_is : Configures srsBlock srsCfg := ⟨by decide, by decide, by decide⟩
def srs (act : Bool) : Srs := ⟨some 0x13, some srsCfg, true, act, false, 3, 0, 1⟩
def sequencing (r : Srs) (v : Word) : State :=
  { world (put (ready (vtyOf 11) 8) 5 v) with mem := srsMem, cores := [(2, { Core.reset with srs := r })] }
set_option exponentiation.threshold 9000 in
theorem wit_TheSequencerIsConfiguredAndRead :
    (∀ r ∈ [Srs.reset, srs false], let s := sequencing r 0x2000; (s.core (coreOf s.sel)).srs = r ∧ (r.owner = none ∨ r.owner = some s.sel) ∧ r.act = false ∧
      (∃ u p, s.Lands .read (s.cur.getG 5) 64 u p ∧ u.number p.key p.pa 64 = srsBlock) ∧ Configures srsBlock srsCfg) ∧
    (let s := sequencing Srs.reset 0x3000; (∃ u p, s.Lands .read (s.cur.getG 5) 64 u p ∧ u.number p.key p.pa 64 = 0) ∧ (∀ c, ¬ Configures 0 c) ∧ s.cur.handles) ∧
    (let s := sequencing { srs false with owner := some 0x12 } 0; (s.core (coreOf s.sel)).srs.owner ≠ some s.sel ∧ s.cur.typed = true ∧ s.cur.configured = true) ∧
    (let s := sequencing (srs true) 0; (s.core (coreOf s.sel)).srs.owner = some s.sel ∧ (srs true).act = true) ∧
    (∀ b ∈ [0, 1], let s := sequencing (srs false) (.ofNat 64 b); s.sequencer (srs false) srsCfg ∧ (s.cur.getG 5).toNat = b) ∧
    (0 < srsCfg.nt ∧ (srs false).skm.getLsbD 0 = true) ∧
    (let s := sequencing (srs false) 0x10000; s.cur.vfmt = .f32 ∧ srsCfg.isig ≠ 0 ∧ (signed32 (fun _ => 0) 64).2.2.2 = false ∧
      ∃ u, s.SignsTiles (s.agentOf s.sel) srsCfg (s.cur.getG 5) 3 64 (fun _ _ => 0) 0 1 u) ∧
    ((world (ready (vtyOf 5) 8)).cur.vfmt ∉ [.f16, .bf16, .f32]) := by
  refine ⟨?_, ⟨landsWith_ (by decide +kernel), ?_, handles_⟩, ⟨by decide, rfl, rfl⟩, ⟨rfl, rfl⟩, ?_, by decide, ⟨by decide, by decide, by decide +kernel, ?_⟩, by decide⟩
  · intro r m
    simp only [List.mem_cons, List.not_mem_nil, or_false] at m
    rcases m with rfl | rfl
    · exact ⟨rfl, .inl rfl, rfl, landsWith_ (by decide +kernel), srsBlock_is⟩
    · exact ⟨rfl, .inr rfl, rfl, landsWith_ (by decide +kernel), srsBlock_is⟩
  · intro c h
    have h1 : fieldOf 0 4 2 = c.nt := h.fields.2.2.2.2.1
    have h2 := h.limits.2.2.2.2.2.2.2.1
    have : fieldOf 0 4 2 = 0 := by decide
    omega
  · intro b m
    simp only [List.mem_cons, List.not_mem_nil, or_false] at m
    rcases m with rfl | rfl
    all_goals exact ⟨⟨rfl, rfl, rfl, rfl⟩, by decide⟩
  · let s := sequencing (srs false) 0x10000
    let rs := (List.range 64).map (fun j => ((0x10000 + .ofNat 64 (4 * (0 * 64 + j)) : Word), 0))
    have h : ((readsOf (some (s.agentOf s.sel)) 4 s rs).bind (fun u => writesOf (some (s.agentOf s.sel)) 16 u [(.ofNat 64 (srsCfg.isig + 16 * (srsCfg.nt * (3 % 2) + 0)),
        let g := signed32 (fun _ => 0) 64
        g.1 + 2 ^ 32 * g.2.1 + 2 ^ 64 * g.2.2.1 + 2 ^ 96 * 3 + 2 ^ 112 * g.2.2.2.toNat)])).isSome = true := by decide +kernel
    obtain ⟨v, e⟩ := some_of h
    obtain ⟨u, e1, e2⟩ := Option.bind_eq_some_iff.mp e
    exact ⟨v, .tile (readsFor_of e1) (writesFor_of e2) (.done _ _)⟩

/-! ### Barriers, commands, queues -/

theorem wit_BarriersAndSignalsSynchronise :
    ((with5 2).cur.getG 5).toNat ≥ 2 ∧
    (∀ v ∈ [0, 1], let s := { with5 (.ofNat 64 v) with drovers := [(0x12, drover), (0x13, (with5 (.ofNat 64 v)).cur)] }
      (s.cur.getG 5).toNat < 2 ∧ s.flock s.cur.flock = some flock ∧ rising s.drovers = true ∧ s.tren s.cur.flock 4 = false ∧
      ∃ e ∈ s.drovers, e.1 ≠ s.sel ∧ (s.drover e.1).flock = s.cur.flock ∧ coreOf e.1 = coreOf s.sel ∧
        ¬ ((s.drover e.1).state = .exited ∨ (s.drover e.1).wait = some (.barrier (v = 1) 0))) ∧
    (∀ v ∈ [0, 1], let x := { drover with state := .awaiting, wait := some (.barrier (v == 1) 0) }
      let s := { with5 (.ofNat 64 v) with drovers := [(0x12, x), (0x13, (with5 (.ofNat 64 v)).cur), (0x14, { drover with state := .exited })] }
      s.flock s.cur.flock = some flock ∧ rising s.drovers = true ∧ ∀ e ∈ s.drovers, e.1 ≠ s.sel → (e.2.state = .exited ∨ e.2.wait = some (.barrier (v == 1) 0))) ∧
    (let s := with56 0x10000 0; s.memOk ∧ (∃ s' p, s.Lands .write (s.cur.getG 5) 8 s' p) ∧ (∀ x ∈ s.unacked, x.2 ≠ s.sel) ∧
      ∃ s' p, s.Lands .read (s.cur.getG 5) 8 s' p ∧ s'.number p.key p.pa 8 = 0 ∧ (s.cur.getG 6).toNat ≤ 0) ∧
    (0 < ((with56 0x10000 1).cur.getG 6).toNat) ∧
    (let x := { drover with state := .awaiting, wait := some (.value 0x10000 1) }; let s := world x
     (s.drover 0x13).wait = some (.value 0x10000 1) ∧ ∃ s' p, s.LandsFor (s.agentOf 0x13) .read 0x10000 8 s' p ∧ s'.number p.key p.pa 8 = 0) := by
  refine ⟨by decide, ?_, ?_, ⟨⟨rfl, rfl⟩, lands_ (by decide +kernel), nil_all, ?_⟩, by decide, ⟨rfl, landsWith_ (by decide +kernel)⟩⟩
  · intro v m
    simp only [List.mem_cons, List.not_mem_nil, or_false] at m
    rcases m with rfl | rfl
    all_goals exact ⟨by decide, rfl, rfl, rfl, (0x12, drover), .head _, by decide, rfl, rfl, by decide⟩
  · intro v m
    simp only [List.mem_cons, List.not_mem_nil, or_false] at m
    rcases m with rfl | rfl
    all_goals
      refine ⟨rfl, rfl, ?_⟩
      intro e h n
      simp only [List.mem_cons, List.not_mem_nil, or_false] at h
      rcases h with rfl | rfl | rfl
      · exact .inr rfl
      · exact absurd rfl n
      · exact .inl rfl
  · obtain ⟨s', p, h, e⟩ := landsWith_ (s := with56 0x10000 0) (ag := (with56 0x10000 0).agentOf 0x13) (want := .read) (va := 0x10000) (n := 8) (D := 0) (by decide +kernel)
    exact ⟨s', p, h, e, by decide⟩

/-- A resident queue of context 1, of 16 records at 0x12000, home on die 0. -/
def wq : WorkQueue :=
  { ctx := 1, resident := true, ring := 0x12000, lcap := 4, prio := 0, valid := true, sup := false, err := false, home := 0, head := 5, tail := 5, stkb := 0x20000
    stkl := 0x100000, hold := .none, pend := [], touches := [], stackBlocks := [], fresh := 3, launchRead := none, launchSeq := none, tag := none, old := none }
def queueing (d : Drover) (q : WorkQueue) : State := { world d with queues := [(5, q)], nextAge := 9 }
theorem wit_CommandsAndReleasesOfDrovers :
    let d := put (put drover 5 5) 6 0x3000; let s := queueing d wq
    ((with5 0x20000).cur.getG 5).toNat ≥ 2 ^ 17 ∧ s.cur.answers = [] ∧ (∃ s' p, s.Lands .read (s.cur.getG 6) 64 s' p ∧ s'.number p.key p.pa 64 = 0) ∧
    (∀ x ∈ s.dies, x.2.awaited = [] ∧ x.2.backlog = []) ∧ (s.cur.getG 5).toNat = 5 ∧ (world d).queue 5 = none ∧
    (∀ q ∈ [wq, { wq with valid := false }, { wq with sup := true }, { wq with tail := 21 }], (queueing d q).queue 5 = some q ∧ q.ctx = d.ctx ∧ q.resident = true ∧ q.touches = []) ∧
    ({ wq with ctx := 2 }.ctx ≠ d.ctx) ∧ (2 ^ wq.lcap ≤ (21 + 2 ^ 32 - wq.head % 2 ^ 32) % 2 ^ 32) ∧
    (∀ x ∈ s.unacked, x.2 ≠ s.sel) ∧ (∃ u, s.WritesFor (queueAgent wq 5 s.sel) 64 [(wq.place wq.tail, 0)] u) ∧
    -- TDONE and DSIG
    (s.memOk ∧ s.flock s.cur.flock = some flock ∧ s.task flock.task = some task) ∧
    ((with5 0x3001).cur.getG 5).toNat % 128 ≠ 0 ∧
    (let s := with5 0x3000; (s.cur.getG 5).toNat % 128 = 0 ∧ (∃ s' p, s.Lands (.amo none) (s.cur.getG 5 + 0x22) 2 s' p ∧ s'.number p.key p.pa 2 = 0) ∧ (s.die (dieOf s.sel)).frqb = none) ∧
    (let s := { with5 0x3000 with mem := [(0x3022, 2)] }; s.memOk ∧ ∃ s' p, s.Lands (.amo none) (s.cur.getG 5 + 0x22) 2 s' p ∧ s'.number p.key p.pa 2 = 2) := by
  refine ⟨by decide, rfl, landsWith_ (by decide +kernel), by decide, by decide, rfl, ?_, by decide, by decide, nil_all, writesFor_ (by decide +kernel),
    ⟨⟨rfl, rfl⟩, rfl, rfl⟩, by decide, ⟨by decide, landsWith_ (by decide +kernel), rfl⟩, ⟨rfl, rfl⟩, landsWith_ (by decide +kernel)⟩
  intro q m
  simp only [List.mem_cons, List.not_mem_nil, or_false] at m
  rcases m with rfl | rfl | rfl | rfl
  all_goals exact ⟨rfl, rfl, rfl, rfl⟩

/-! ### Queues and tasks -/

/-- Bytes of a number listed from an address on. -/
def listed (a : Nat) (l : List (Nat × Nat)) : List (Nat × Byte) := l.map (fun e => (a + e.1, .ofNat 8 e.2))
def managing (s : State) : State := { s with mgmt := { s.mgmt with ready := true, fns := [(1, { MgmtFn.reset with ctxs := [1], ranges := [(0, 100)] })] } }
def qEntry : Nat := 0x12000 + 4 * 256 ^ 8 + 256 ^ 0x0A + 5 * 256 ^ 0x10
theorem wit_TailWritesReachTheirQueues :
    (∀ q ∈ [wq, { wq with old := some (99, 4) }], let s := managing (queueing drover q)
      s.queue 5 = some q ∧ q.resident = true ∧ q.touches = [] ∧ s.mgmt.ready = true ∧ s.reaches 1 5 = true ∧ (∀ c m, q.old = some (c, m) → c ≠ s.cycle) ∧
        (s.die q.home).frqb = none) ∧
    ((21 + 2 ^ 32 - wq.head % 2 ^ 32) % 2 ^ 32 ≤ 2 ^ wq.lcap ∧ 2 ^ wq.lcap < (22 + 2 ^ 32 - wq.head % 2 ^ 32) % 2 ^ 32 ∧ (0x100000000 : Word).toNat ≥ 2 ^ 32) ∧
    (managing (queueing drover wq)).reaches 2 5 = false ∧
    (let q := { wq with resident := false, touches := [.tail 6] }; let s := { queueing drover q with mem := listed (0x900000 + 64 * 5) [(1, 0x20), (2, 1), (8, 4), (0x0A, 1), (0x10, 5)] }
     s.queue 5 = some q ∧ q.tag = none ∧ s.context q.ctx = some context ∧ (s.residentOn (fieldOf qEntry 0x0B 1)).length < 4096 ∧
       (∃ s' p, s.LandsFor (sideAgent q.ctx 0 0 (4096 + 5) true (.record 5 0)) .read (context.qtab + .ofNat 64 (64 * 5)) 64 s' p ∧ s'.number p.key p.pa 64 = qEntry) ∧
       fieldOf qEntry 0x0C 4 = 0 ∧ fieldOf qEntry 0x28 24 = 0 ∧ fieldOf qEntry 0x0A 1 < 8 ∧ 4 ≤ fieldOf qEntry 8 1 ∧ fieldOf qEntry 8 1 ≤ 16 ∧ fieldOf qEntry 9 1 ≤ 7 ∧
       fieldOf qEntry 0x0B 1 ≤ 3 ∧ ((6 : Word).toNat + 2 ^ 32 - fieldOf qEntry 0x10 4) % 2 ^ 32 ≤ 2 ^ fieldOf qEntry 8 1) := by
  refine ⟨?_, by decide, by decide, ⟨rfl, rfl, rfl, by decide, landsWith_ (by decide +kernel), by decide, by decide, by decide, by decide, by decide, by decide, by decide, by decide⟩⟩
  intro q m
  simp only [List.mem_cons, List.not_mem_nil, or_false] at m
  rcases m with rfl | rfl
  · exact ⟨rfl, rfl, rfl, rfl, by decide, (fun _ _ h => nomatch h), rfl⟩
  · exact ⟨rfl, rfl, rfl, rfl, by decide, (fun c m h => by cases h; decide), rfl⟩

def copiesOf (ag : Agent) : Word → Word → Nat → State → Option State
  | _, _, 0, s => some s
  | a, b, n + 1, s => (land s ag .read a 1).bind (fun x => (land x.1 ag .write b 1).bind (fun y =>
      copiesOf ag (a + 1) (b + 1) n (y.1.putBytes y.2.key y.2.pa (leBytes 1 (x.1.number x.2.key x.2.pa 1)))))
theorem copies_ {ag : Agent} {a b : Word} {n : Nat} {s : State} (h : (copiesOf ag a b n s).isSome = true) : ∃ u, State.CopiesBytes ag a b n s u := by
  induction n generalizing a b s with
  | zero => exact ⟨s, .nil _ _ _⟩
  | succ n ih =>
    obtain ⟨u, e⟩ := some_of h
    simp only [copiesOf, Option.bind_eq_some_iff] at e
    obtain ⟨x, e1, y, e2, e3⟩ := e
    obtain ⟨u, k⟩ := ih (by rw [e3]; rfl)
    exact ⟨u, .byte (land_for e1) rfl (land_for e2) rfl k⟩
theorem readsWrites_ {ag ag' : Agent} {n m : Nat} {l k : List (Word × Nat)} {s : State}
    (h : ((readsOf (some ag) n s l).bind (fun v => writesOf (some ag') m v k)).isSome = true) : ∃ v, s.ReadsFor ag n l v ∧ ∃ u, v.WritesFor ag' m k u := by
  obtain ⟨u, e⟩ := some_of h
  obtain ⟨v, e1, e2⟩ := Option.bind_eq_some_iff.mp e
  exact ⟨v, readsFor_of e1, u, writesFor_of e2⟩
set_option exponentiation.threshold 400 in
theorem unitProfile_is : Profiles (profile + 2 ^ 256 - 0xE * 2 ^ 320) 1 16 [⟨1, 1, 3, 2, 1, 0⟩] where
  header := by decide
  entries := by
    intro i e h
    match i with
    | 0 => cases h; decide +kernel
    | _ + 1 => cases h
  timed := by decide
  limits := by decide
  apart := .cons (fun _ h => nomatch h) .nil

/-- The die accepts record 5 of queue 5, which lies at 0x12140. -/
def accepting (q : WorkQueue) (l : List (Nat × Nat)) : State := { queueing drover q with tasks := [], mem := listed 0x12140 l }
def full : WorkQueue := { wq with tail := 6 }
theorem accepts_ {s : State} {q : WorkQueue} {D kind use : Nat} (hq : s.queue 5 = some q) (hn : s.chosen q.home = some 5) (hp : q.launchRead = none)
    (hl : (land s (queueAgent q 5 4096) .read (q.place q.head) 64).map (fun x => x.1.number x.2.key x.2.pa 64) = some D)
    (hk : fieldOf D 0 1 = kind ∧ fieldOf D 1 7 = 0 ∧ fieldOf D use (64 - use) = 0) : ∃ s' p, Accepts s s' 5 q p D kind use :=
  let ⟨s', p, h, e⟩ := landsWith_ hl
  ⟨s', p, hq, hn, hp, h, e, hk⟩
theorem wit_RecordsTakeEffectAtAcceptance :
    (∀ k ∈ [0, 2, 7], ∃ s' p, Accepts (accepting full [(0, k)]) s' 5 full p k k 8) ∧
    -- a SIGNAL and a WAITVAL of 1 at 0x10000, a COPY of 2 bytes from 0x10000 to 0x11000
    (∃ s' p, Accepts (accepting full [(0, 3), (10, 1), (16, 1)]) s' 5 full p (3 + 256 ^ 10 + 256 ^ 16) 3 24) ∧
    (∃ s' p, Accepts (accepting full [(0, 4), (10, 1), (16, 1)]) s' 5 full p (4 + 256 ^ 10 + 256 ^ 16) 4 24) ∧
    (∃ s' p, Accepts (accepting full [(0, 5), (10, 1), (17, 0x10), (18, 1), (24, 2)]) s' 5 full p (5 + 256 ^ 10 + 0x10 * 256 ^ 17 + 256 ^ 18 + 2 * 256 ^ 24) 5 32) ∧
    (fieldOf (3 + 256 ^ 10 + 256 ^ 16) 8 8 % 8 = 0 ∧ full.pend = [] ∧ full.tag = none ∧ fieldOf (5 + 2 * 256 ^ 24) 0x18 8 ≤ 2 ^ 32) ∧
    (let s := accepting full [(0, 3), (10, 1), (16, 1)]; (∀ e ∈ s.unacked, e.2 ≠ 4096 + 5) ∧ s.tasks = [] ∧
      (∃ u, s.WritesFor (queueAgent full 5 4096) 8 [(0x10000, 1)] u) ∧ ∃ u, s.ReadsFor (queueAgent full 5 4096) 8 [(0x10000, 0)] u) ∧
    (let s := { accepting full [(0, 3), (10, 1), (16, 1)] with tasks := [(3, { task with handle := 5 })] }
     ((s.tasks.filter (fun e => e.2.handle == 5 && e.2.st != .ended)).map (·.1)) ≠ [] ∧ rising s.tasks = true) ∧
    -- the bytes of the COPY move
    (let q := { full with pend := [.copy 5 0x10000 0x11000 2 none] }; let s := accepting q []
     s.queue 5 = some q ∧ q.pending 5 = some (.copy 5 0x10000 0x11000 2 none) ∧ s.poison = [] ∧ s.bad = [] ∧ s.unacked = [] ∧
       ∃ u, s.CopiesBytes (queueAgent full 5 4096) 0x10000 0x11000 2 u) ∧
    -- a BOOK of the profile at 0x2000, its result to 0x11000
    (let D := 6 + 0x20 * 256 ^ 9 + 0x10 * 256 ^ 25 + 256 ^ 26
     let s := { accepting full [(0, 6), (9, 0x20), (25, 0x10), (26, 1)] with mem := [(0x2000, 1), (0x2002, 1), (0x2020, 1), (0x2024, 1), (0x2026, 2), (0x2028, 1)] ++ listed 0x12140 [(0, 6), (9, 0x20), (25, 0x10), (26, 1)] }
     (∃ s' p, Accepts s s' 5 full p D 6 32) ∧ fieldOf D 0x10 8 ≤ 255 ∧ fieldOf D 0x18 8 % 8 = 0 ∧ fieldOf D 8 8 % 64 = 0 ∧ s.bookings = [] ∧
       (∃ v, s.ReadsFor (queueAgent full 5 4096) 8 (wordsAt 0x2000 (profile + 2 ^ 256 - 0xE * 2 ^ 320) (4 + 4 * 1)) v ∧
         ∃ u, v.WritesFor (queueAgent full 5 4096) 8 [(0x11000, 8 * (s.cycle / 8 + 2))] u) ∧
       Profiles (profile + 2 ^ 256 - 0xE * 2 ^ 320) 1 16 [⟨1, 1, 3, 2, 1, 0⟩]) := by
  refine ⟨?_, accepts_ rfl (by decide +kernel) rfl (by decide +kernel) (by decide), accepts_ rfl (by decide +kernel) rfl (by decide +kernel) (by decide),
    accepts_ rfl (by decide +kernel) rfl (by decide +kernel) (by decide), by decide, ⟨nil_all, rfl, writesFor_ (by decide +kernel), readsFor_ (by decide +kernel)⟩,
    ⟨by decide, rfl⟩, ⟨rfl, rfl, rfl, rfl, rfl, ?_⟩, ⟨accepts_ rfl (by decide +kernel) rfl (by decide +kernel) (by decide), by decide, by decide, by decide, rfl, ?_, ?_⟩⟩
  · intro k m
    simp only [List.mem_cons, List.not_mem_nil, or_false] at m
    rcases m with rfl | rfl | rfl
    all_goals exact accepts_ rfl (by decide +kernel) rfl (by decide +kernel) (by decide)
  · exact copies_ (by decide +kernel)
  · exact readsWrites_ (by decide +kernel)
  · exact unitProfile_is

/-- A TCB at 0x3000 of one core and one drover, its counter n, and a LAUNCH of it. -/
def tcbBytes (n : Nat) : List (Nat × Nat) := [(1, 0x10), (0x10, 1), (0x12, 1), (0x14, 1), (0x15, 1), (0x16, 1), (0x17, 1)] ++ (if n = 0 then [] else [(0x22, n)])
def tcbWord (n : Nat) : Nat := (tcbBytes n).foldl (fun a e => a + e.2 * 256 ^ e.1) 0
def launching (l : List (Nat × Nat)) (low : Nat) : State :=
  { accepting full [] with flocks := [], drovers := [], mem := listed 0x3000 l ++ listed 0x12140 ([(0, 1)] ++ (if low = 0 then [] else [(8, low)]) ++ [(9, 0x30)]) }
/-- There is room for the task of counter n, its number can be written and its counter read. -/
def enters (n : Nat) (u : State) : Bool :=
  decide (u.tableUse full.home + (Tcb.ofBytes (leBytes 128 (tcbWord n))).ranges.length ≤ 4096) &&
    ((writesOf (some (queueAgent full 5 4096)) 8 u [(0x3000 + 0x78, 1)]).bind (fun v => readsOf (some (queueAgent full 5 4096)) 2 v [(0x3000 + 0x22, n)])).isSome
theorem writesReads_ {ag ag' : Agent} {n m : Nat} {l k : List (Word × Nat)} {s : State}
    (h : ((writesOf (some ag) n s l).bind (fun v => readsOf (some ag') m v k)).isSome = true) : ∃ v, s.WritesFor ag n l v ∧ ∃ u, v.ReadsFor ag' m k u := by
  obtain ⟨u, e⟩ := some_of h
  obtain ⟨v, e1, e2⟩ := Option.bind_eq_some_iff.mp e
  exact ⟨v, writesFor_of e1, u, readsFor_of e2⟩
set_option exponentiation.threshold 2000 in
theorem wit_LaunchesEnterTheirTasks :
    let D := 1 + 0x30 * 256 ^ 9; let ag := queueAgent full 5 4096; let va : Word := BitVec.ofNat 64 (fieldOf D 8 8)
    (∃ s' p, Accepts (launching [] 1) s' 5 full p (D + 256 ^ 8) 1 16) ∧ fieldOf (D + 256 ^ 8) 8 8 % 128 ≠ 0 ∧ full.launchSeq = none ∧ fieldOf D 8 8 % 128 = 0 ∧
    (∀ n ∈ [0, 1], let s := launching (tcbBytes n) 0; let T := Tcb.ofBytes (leBytes 128 (tcbWord n))
      (∃ s' p, Accepts s s' 5 full p D 1 16 ∧ (∃ u p', s'.LandsFor ag .read va 128 u p' ∧ u.number p'.key p'.pa 128 = tcbWord n ∧
        u.tableUse full.home + T.ranges.length ≤ 4096 ∧ ∃ v, u.WritesFor ag 8 [(va + 0x78, s.seqNo)] v ∧ ∃ v', v.ReadsFor ag 2 [(va + 0x22, n)] v')) ∧
      s.task s.nextKey = none ∧ s.marks = [] ∧ tcbBad (leBytes 128 (tcbWord n)) full.stkl = false ∧ T.sup = false ∧ s.tasks = []) ∧
    (let s := launching [] 0;
      (∃ s' p, Accepts s s' 5 full p D 1 16 ∧ ∃ u p', s'.LandsFor ag .read va 128 u p' ∧ u.number p'.key p'.pa 128 = 0 ∧ (u.die full.home).frqb = none ∧
        (u.die full.home).backlog = []) ∧
      tcbBad (leBytes 128 0) full.stkl = true ∧ (Tcb.ofBytes (leBytes 128 0)).succVa = 0 ∧ s.bookings = [] ∧ s.flocks = []) := by
  have chain : ∀ (s : State) (q : Option (State × Place)) (D E : Nat) (P : State → Bool),
      land s (queueAgent full 5 4096) .read (full.place full.head) 64 = q →
      (q.any (fun x => x.1.number x.2.key x.2.pa 64 == D && (land x.1 (queueAgent full 5 4096) .read (.ofNat 64 (fieldOf D 8 8)) 128).any (fun y =>
        y.1.number y.2.key y.2.pa 128 == E && P y.1))) = true →
      s.queue 5 = some full → s.chosen full.home = some 5 → fieldOf D 0 1 = 1 ∧ fieldOf D 1 7 = 0 ∧ fieldOf D 16 (64 - 16) = 0 →
      ∃ s' p, Accepts s s' 5 full p D 1 16 ∧ ∃ u p', s'.LandsFor (queueAgent full 5 4096) .read (.ofNat 64 (fieldOf D 8 8)) 128 u p' ∧
        u.number p'.key p'.pa 128 = E ∧ P u = true := by
    intro s q D E P hq h h1 h2 h3
    cases q with
    | none => cases h
    | some x =>
      rw [Option.any_some, Bool.and_eq_true] at h
      cases e : land x.1 (queueAgent full 5 4096) .read (.ofNat 64 (fieldOf D 8 8)) 128 with
      | none => rw [e] at h; cases h.2
      | some y =>
        rw [e, Option.any_some, Bool.and_eq_true] at h
        exact ⟨x.1, x.2, ⟨h1, h2, rfl, land_for hq, eq_of_beq h.1, h3⟩, y.1, y.2, land_for e, eq_of_beq h.2.1, h.2.2⟩
  refine ⟨accepts_ rfl (by decide +kernel) rfl (by decide +kernel) (by decide), by decide, rfl, by decide, ?_, ⟨?_, by decide +kernel, by decide, rfl, rfl⟩⟩
  · have one : ∀ n, (launching (tcbBytes n) 0).chosen full.home = some 5 ∧
          (land (launching (tcbBytes n) 0) (queueAgent full 5 4096) .read (full.place full.head) 64).any (fun x =>
            x.1.number x.2.key x.2.pa 64 == 1 + 0x30 * 256 ^ 9 && (land x.1 (queueAgent full 5 4096) .read (.ofNat 64 (fieldOf (1 + 0x30 * 256 ^ 9) 8 8)) 128).any (fun y =>
              y.1.number y.2.key y.2.pa 128 == tcbWord n && enters n y.1)) = true →
        ∃ s' p, Accepts (launching (tcbBytes n) 0) s' 5 full p (1 + 0x30 * 256 ^ 9) 1 16 ∧ ∃ u p', s'.LandsFor (queueAgent full 5 4096) .read 0x3000 128 u p' ∧
          u.number p'.key p'.pa 128 = tcbWord n ∧ u.tableUse full.home + (Tcb.ofBytes (leBytes 128 (tcbWord n))).ranges.length ≤ 4096 ∧
          ∃ v, u.WritesFor (queueAgent full 5 4096) 8 [(0x3000 + 0x78, 1)] v ∧ ∃ v', v.ReadsFor (queueAgent full 5 4096) 2 [(0x3000 + 0x22, n)] v' := by
      intro n ⟨hc, hn⟩
      obtain ⟨s', p, h, u, p', h1, h2, h3⟩ := chain _ _ _ _ _ rfl hn rfl hc (by decide)
      rw [enters, Bool.and_eq_true, decide_eq_true_iff] at h3
      exact ⟨s', p, h, u, p', h1, h2, h3.1, writesReads_ h3.2⟩
    intro n m
    simp only [List.mem_cons, List.not_mem_nil, or_false] at m
    rcases m with rfl | rfl
    · exact ⟨one 0 (by decide +kernel), rfl, rfl, by decide +kernel, by decide +kernel, rfl⟩
    · exact ⟨one 1 (by decide +kernel), rfl, rfl, by decide +kernel, by decide +kernel, rfl⟩
  · obtain ⟨s', p, h, u, p', h1, h2, h3⟩ := chain (launching [] 0) _ (1 + 0x30 * 256 ^ 9) 0
      (fun u => decide ((u.die full.home).frqb = none) && decide ((u.die full.home).backlog = [])) rfl (by decide +kernel) rfl (by decide +kernel) (by decide)
    rw [Bool.and_eq_true, decide_eq_true_iff, decide_eq_true_iff] at h3
    exact ⟨s', p, h, u, p', h1, h2, h3.1, h3.2⟩

/-- Task 3, launched from queue 5, alone in the package. -/
def waiting (st : TaskSt) (place stack : Nat) : Task :=
  { task with st := st, handle := 5, tcb := { tcb with cores := 2, drovers := 2, place := place, stack := stack }, place := [] }
def dispatching (T : Task) : State :=
  { queueing drover wq with drovers := [], flocks := [], cores := [], tasks := [(3, T)], cycle := 70000 }
theorem wit_ReadyTasksStartTheirFlocks :
    (∀ place ∈ [0, 2], let T := waiting .ready place 64; let s := dispatching T
      s.tasks = [(3, T)] ∧ T.st = .ready ∧ T.blocked = false ∧ T.tryAt ≤ s.cycle ∧ s.drovers = [] ∧ s.flocks = [] ∧ s.bookings = [] ∧ s.cores = [] ∧
        s.queue T.handle = some wq ∧ wq.stackBlocks = [] ∧ T.tcb.bookVa = 0 ∧ T.tcb.drovers * T.tcb.lgMin ≤ 16 ∧ T.tcb.drovers * T.tcb.accs ≤ 16 ∧ T.tcb.tmem ≤ 0x400000 ∧
        T.tcb.cores * T.tcb.drovers * T.tcb.stack ≤ wq.stkl ∧ T.tcb.place = place) ∧
    (2 ≤ 2 * 2 ∧ (2 - 1) * (2 - 1) < 2 ∧ 2 = Nat.min 16 2) ∧
    (let T := waiting .ready 0 64; let s := dispatching T; s.readyOrder = (3, T) :: [] ∧ T.readyAt + 65536 ≤ s.cycle ∧
      { s with cycle := 100 }.readyOrder = (3, T) :: [] ∧ 100 < T.readyAt + 65536) ∧
    (let T := waiting .ready 0 64; let x := { waiting .ready 0 64 with seq := 1, aged := true }; let s := { dispatching T with tasks := [(3, T), (4, x)], cycle := 100 }
     rising s.tasks = true ∧ s.task 3 = some T ∧ s.cycle < T.readyAt + 65536 ∧ s.task 4 = some x ∧ x.seq ≠ T.seq ∧ x.aged = true ∧ x.tcb.prio ≤ T.tcb.prio ∧
       ∀ e ∈ s.tasks, e.2.tcb.bookVa = 0) ∧
    (let T := { task with st := .held 14, tcb := { tcb with drovers := 1, stack := 64 }, stack := some (0x20000, 64), place := [2] }
     let b : Booking := ⟨2, none, some 3, 14, false, false, [entry.from 14]⟩
     let s := { dispatching T with queues := [], bookings := [b], cycle := 111 }
     s.tasks = [(3, T)] ∧ T.st = .held ((s.cycle + 1) / 8) ∧ (s.cycle + 1) % 8 = 0 ∧ T.stack = some (0x20000, T.tcb.stack) ∧ T.place = [2] ∧ T.tcb.cores = 1 ∧ T.tcb.drovers = 1 ∧
       s.bookings = [b] ∧ b.task = some 3 ∧ b.owner = none ∧ b.start = (s.cycle + 1) / 8) := by
  refine ⟨?_, by decide, ⟨by decide, by decide, by decide, by decide⟩, ⟨rfl, rfl, by decide, rfl, by decide, rfl, by decide, by decide⟩,
    ⟨rfl, rfl, rfl, rfl, rfl, rfl, rfl, rfl, rfl, rfl, rfl⟩⟩
  intro place m
  simp only [List.mem_cons, List.not_mem_nil, or_false] at m
  rcases m with rfl | rfl
  all_goals exact ⟨rfl, rfl, rfl, by decide, rfl, rfl, rfl, rfl, rfl, rfl, rfl, by decide, by decide, by decide, by decide, rfl⟩

/-- Task 3 whose drover has exited, to store a completion value, or with a successor list at an address. -/
def finished (sig succ : Word) : Task := { task with st := .ending, tcb := { tcb with sigVa := sig, sigVal := 7, succVa := succ } }
def finishing (T : Task) (m : List (Nat × Byte)) : State :=
  { world { drover with state := .exited } with tasks := [(3, T), (4, { task with st := .waiting, ranges := false, flock := 0 })], mem := m }
theorem wit_TasksEndInOrder :
    (∀ T ∈ [finished 0 0, finished 0x10000 0, finished 0 0x4000], let s := finishing T []
      s.task 3 = some T ∧ T.st = .ending ∧ T.blocked = false ∧ T.stage = 0 ∧ T.aborted = false ∧ T.stored = false ∧ rising s.tasks = true ∧ rising s.drovers = true ∧
        rising s.flocks = true ∧ s.queues = [] ∧ s.flock T.flock = some flock ∧ s.flockKeys T.flock = [0x13] ∧ s.unacked = [] ∧
        (∀ e ∈ s.tasks, e.1 ≠ 3 → e.2.ranges = false) ∧ (∃ x, s.task 4 = some x ∧ x.st = .waiting)) ∧
    (let T := finished 0x10000 0; ∃ u, ((finishing T []).releaseFlock T.flock).WritesFor T.agent 8 [(T.tcb.sigVa, T.tcb.sigVal.toNat)] u) ∧
    -- the list at 0x4000 has one successor, the TCB at 0x3000, whose counter is 1
    (let T := finished 0 0x4000; let m := [(0x3022, 1), (0x4000, 1), (0x4009, 0x30)]; let v := (finishing T m).releaseFlock T.flock; let x : Word := 0x3000
     x.toNat % 128 = 0 ∧ (∀ e ∈ (finishing T m).tasks, e.2.st ≠ .armed) ∧ ∃ u1 u2 u3 p, v.ReadsFor T.agent 8 [(T.tcb.succVa, 1)] u1 ∧
       u1.ReadsFor T.agent 8 [(T.tcb.succVa + 8, x.toNat)] u2 ∧ u2.LandsFor T.agent (.amo none) (x + 0x22) 2 u3 p ∧ u3.number p.key p.pa 2 = 1) := by
  refine ⟨?_, writesFor_ (by decide +kernel), by decide, by decide, ?_⟩
  · intro T m
    simp only [List.mem_cons, List.not_mem_nil, or_false] at m
    rcases m with rfl | rfl | rfl
    all_goals exact ⟨rfl, rfl, rfl, rfl, rfl, rfl, rfl, rfl, rfl, rfl, rfl, by decide, rfl, by decide, ⟨_, rfl, rfl⟩⟩
  · let T := finished 0 0x4000
    let v := (finishing T [(0x3022, 1), (0x4000, 1), (0x4009, 0x30)]).releaseFlock T.flock
    have h : ((readsOf (some T.agent) 8 v [(0x4000, 1)]).bind (fun u1 => (readsOf (some T.agent) 8 u1 [(0x4008, 0x3000)]).bind (fun u2 =>
      (land u2 T.agent (.amo none) 0x3022 2).bind (fun x => if x.1.number x.2.key x.2.pa 2 = 1 then some x else none)))).isSome = true := by decide +kernel
    obtain ⟨y, e⟩ := some_of h
    obtain ⟨u1, e1, e⟩ := Option.bind_eq_some_iff.mp e
    obtain ⟨u2, e2, e⟩ := Option.bind_eq_some_iff.mp e
    obtain ⟨x, e3, e⟩ := Option.bind_eq_some_iff.mp e
    split at e
    · next g => exact ⟨u1, u2, x.1, x.2, readsFor_of e1, readsFor_of e2, land_for e3, g⟩
    · cases e

/-! ### Commands, contexts, the host -/

def function (f : MgmtFn) : State := { world drover with mgmt := { Mgmt.reset with ready := true, fns := [(0, f)] } }
set_option exponentiation.threshold 600 in
theorem wit_CommandsRunOneAtATime :
    (let s := function { MgmtFn.reset with busy := true, pendCode := 2, pendRes := 9 }; (s.fn 0).busy = true ∧ s.mgmt.ready = true) ∧
    (let s := managing (world drover); (s.fn 1).busy = false ∧ s.mgmt.ready = true ∧ (world drover).mgmt.ready = false ∧ s.context 9 = none ∧ s.context 1 = some context ∧ context.fn ≠ 1) ∧
    (commandBy (.qrange 1 0 0 0) = some (1, true) ∧ commandBy (.ctxdel 1 9) = some (1, false) ∧ commandOn (.ctxdel 1 9) = some 9) ∧
    (let f := { MgmtFn.reset with cmd := 19 }; (f.cmd.toNat % 256 = 0 ∨ 18 < f.cmd.toNat % 256) ∧ (function f).fn 0 = f) ∧ ((0x5000 : Word).toNat < 2 ^ 56 ∧ (0x5000 : Word).toNat % 4096 = 0) :=
  ⟨⟨rfl, rfl⟩, ⟨rfl, rfl, rfl, rfl, rfl, by decide⟩, ⟨rfl, rfl, rfl⟩, ⟨by decide, rfl⟩, by decide⟩

/-- Function 1, which created context 1 and reaches handles 0 to 99, with queue 5 of it. -/
def functioning (d : Drover) : State :=
  { managing (queueing d wq) with ctxs := [(1, { context with fn := 1 }), (2, { context with conf := true })] }
def srAddress (die core slot reg : Nat) : Word := .ofNat 64 (die * 2 ^ 44 + srcDrover * 2 ^ 38 + (8 * core + slot) * 2 ^ 26 + 8 * reg)
theorem wit_CommandsSetTheirRegisters :
    (let s := functioning drover; s.mgmt.ready = true ∧ (s.fn 0).busy = false ∧ (s.fn 1).busy = false ∧ isHbm 0x10000 65544 = true ∧ isHbm 0x10000000 0x10000000 = true ∧
      (s.die 0).backlog = [] ∧ (∃ x, s.owns 1 1 x) ∧ (∃ x, s.owns 0 1 x) ∧ (∀ h ∈ [5, 6], s.reaches 1 h = true ∧ ∀ q, s.queue h = some q → q.ctx = 1) ∧ s.reaches 1 100 = false ∧
      s.queue 5 = some wq ∧ wq.resident = true ∧ (∀ e ∈ s.dies, e.2.awaited = [] ∧ e.2.backlog = [])) ∧
    -- SMRD and SMWR of drover 3 of core 2
    (∀ r ∈ [0x302, 0x322, 0x002, 0x310, 0x330], assignedSr r = true ∧ (0 < 4 ∧ 2 < 64 ∧ 3 < 8)) ∧
    (let s := functioning { drover with ctx := 2 }; s.hidden (s.drover 0x13).ctx) ∧ (let s := functioning drover; ¬ s.hidden (s.drover 0x13).ctx ∧ (s.drover 0x13).state ≠ .halted) ∧
    (let s := functioning { drover with state := .halted, dbgHalt := true }; ¬ s.hidden (s.drover 0x13).ctx ∧ (s.drover 0x13).state = .halted ∧ (s.drover 0x13).dbgHalt = true) ∧
    ((List.replicate 32 (0 : Byte)).length = 32) := by
  have shown_ : ∀ d, d.ctx = 1 → ¬ (functioning d).hidden ((functioning d).drover 0x13).ctx := by
    rintro d h ⟨c, e, f, _⟩
    rw [show ((functioning d).drover 0x13).ctx = 1 from h] at e
    cases (show (functioning d).context 1 = some { context with fn := 1 } from rfl).symm.trans e
    cases f
  refine ⟨⟨rfl, rfl, rfl, by decide, by decide, rfl, ⟨_, rfl, .inr rfl⟩, ⟨_, rfl, .inl rfl⟩, ?_, rfl, rfl, rfl, by decide⟩, by decide, ⟨_, rfl, rfl, rfl, by decide⟩,
    ⟨shown_ _ rfl, by decide⟩, ⟨shown_ _ rfl, rfl, rfl⟩, rfl⟩
  intro h m
  simp only [List.mem_cons, List.not_mem_nil, or_false] at m
  rcases m with rfl | rfl
  · exact ⟨rfl, fun q e => by cases e; rfl⟩
  · exact ⟨rfl, fun q e => by cases e⟩

theorem assoc_all {α : Type} (x : α) (c : Nat) (l : List Nat) (h : c ∈ l) : assocGet (l.map (fun i => (i, x))) c ≠ none := by
  induction l with
  | nil => cases h
  | cons k l ih =>
    rw [List.map_cons, assocGet]
    split
    · exact nofun
    · next n =>
      refine ih ((List.mem_cons.mp h).resolve_left ?_)
      intro e; exact n (by simp [e])
theorem assoc_keys {α : Type} {l : List (Nat × α)} {k : Nat} (h : assocGet l k ≠ none) : k ∈ l.map Prod.fst := by
  induction l with
  | nil => exact absurd rfl h
  | cons e l ih =>
    rw [assocGet] at h
    split at h
    · next n => simp_all
    · exact .tail _ (ih h)
theorem wit_ContextsAreCreatedGrantedAndUnlocked :
    let s := functioning drover; let nat := fun (w : Word) => w.toNat
    let sound := fun (root conf : Word) (owner : Option (List Byte)) => nat root % 4096 = 0 ∧ isHbm (nat root) 4096 = true ∧ (conf = 0 ∨ conf = 1 ∧ ∃ o, owner = some o ∧ o.length = 128)
    sound 0x1000 0 none ∧ sound 0x1000 1 (some (List.replicate 128 0)) ∧ ¬ sound 1 0 none ∧ ¬ sound 0x1000 2 none ∧ (∃ c, 1 ≤ c ∧ c ≤ 65535 ∧ s.context c = none) ∧
    (let s := { world drover with ctxs := (List.range 65536).map (fun i => (i, context)) }; ∀ c, 1 ≤ c → c ≤ 65535 → s.context c ≠ none) ∧
    s.mgmt.ready = true ∧ s.owns 0 2 { context with conf := true } ∧ context.conf = false ∧ s.tasks = [(3, task)] := by
  refine ⟨⟨by decide, by decide, .inl rfl⟩, ⟨by decide, by decide, .inr ⟨rfl, _, rfl, rfl⟩⟩, fun h => absurd h.1 (by decide), ?_, ⟨3, by decide, by decide, rfl⟩, ?_, rfl, ⟨rfl, .inl rfl⟩, rfl, rfl⟩
  · rintro ⟨_, _, h | ⟨h, _⟩⟩ <;> exact absurd h (by decide)
  · intro _ c _ h
    exact assoc_all context c _ (List.mem_range.mpr (by omega))

/-- Drovers of context 1, in their states, and one of context 2. -/
def contexts (ds : List (Nat × Drover)) : State := { functioning drover with drovers := ds, queues := [], tasks := [(3, { task with handle := 0 })] }
theorem wit_ContextsAreDeletedPreemptedAndAborted :
    (let s := functioning drover; s.owns 1 1 { context with fn := 1 } ∧ rising s.tasks = true ∧ rising s.queues = true ∧ rising s.ctxs = true ∧ s.flock 1 = none) ∧
    (let s := contexts [(0x12, { drover with state := .exited }), (0x13, drover), (0x14, { drover with state := .awaiting, wait := some .chain }), (0x15, { drover with ctx := 2, flock := 9 })]
     s.owns 1 1 { context with fn := 1 } ∧ s.quietContext 1) ∧
    (let h := { drover with state := .halted, preempted := true }
     let s := contexts [(0x12, h), (0x13, { h with hold := some (1, 4, 3) }), (0x14, { h with dbgHalt := true }), (0x15, { drover with ctx := 2, flock := 9 })]
     ∀ k, (s.drover k).ctx = 1 → assocGet s.drovers k ≠ none → (s.drover k).state = .halted ∧ (s.drover k).granted = false ∧ (s.drover k).cst.rs = false) ∧
    -- ABORT
    (let s := contexts [(0x13, drover)]; s.flock 7 = some flock ∧ s.owns 1 flock.ctx { context with fn := 1 } ∧ flock.ctx < 2 ^ 16 ∧ s.Ends 7 flock { task with handle := 0 } ∧
      (∀ k, (s.drover k).ctx = flock.ctx → assocGet s.drovers k ≠ none → k ∈ s.flockKeys 7) ∧ s.flockKeys 7 = [0x13]) ∧
    (let f := { flock with abortAsked := true }; let s := { contexts [(0x13, drover)] with flocks := [(7, f)], cycle := 103 }
     s.flock 7 = some f ∧ (∀ e ∈ s.flocks, e.2.abortAsked = true → e.1 = 7) ∧ (s.cycle + 1) % 8 = 0 ∧ s.Ends 7 f { task with handle := 0 } ∧ (∀ e ∈ s.drovers, e.2.flock = 7) ∧
       s.tasks = [(f.task, { task with handle := 0 })]) ∧
    (let f := { flock with abortAsked := true, ending := true }; let s := { contexts [] with flocks := [(7, f)], cycle := 103, tasks := [] }
     s.flock 7 = some f ∧ f.ending = true ∧ rising s.flocks = true ∧ s.tasks = [] ∧ s.queues = [] ∧ s.drovers = []) := by
  have ends : ∀ (f : Flock) (n : Nat) (ds : List (Nat × Drover)), rising ds = true → f.ending = false → f.task = 3 → f.ctx = 1 →
      ({ contexts ds with flocks := [(7, f)], cycle := n } : State).Ends 7 f { task with handle := 0 } := by
    intro f n ds h h1 h2 h3
    refine ⟨rfl, h1, ?_, ⟨rfl, rfl, ?_, rfl⟩, ⟨rfl, h, rfl, rfl, rfl⟩, ⟨rfl, (by decide : ∀ e ∈ [(0, { Die.reset with tlb := [page] })], e.2.awaited = [] ∧ e.2.backlog = [])⟩⟩
    · rw [h2]; rfl
    · rw [h3]; rfl
  refine ⟨⟨⟨rfl, .inr rfl⟩, rfl, rfl, rfl, rfl⟩, ⟨⟨rfl, .inr rfl⟩, rfl, ?_⟩, ?_, ⟨rfl, ⟨rfl, .inr rfl⟩, by decide, ends flock 100 _ rfl rfl rfl rfl, ?_, by decide⟩,
    ⟨rfl, ?_, rfl, ends _ 103 _ rfl rfl rfl rfl, ?_, rfl⟩, ⟨rfl, rfl, rfl, rfl, rfl, rfl⟩⟩
  · intro k _ h
    have m := assoc_keys h
    change k ∈ [0x12, 0x13, 0x14, 0x15] at m
    simp only [List.mem_cons, List.not_mem_nil, or_false] at m
    rcases m with rfl | rfl | rfl | rfl
    all_goals exact ⟨rfl, rfl, rfl, quiet_ rfl 1⟩
  · intro _ _ k c h
    have m := assoc_keys h
    change k ∈ [0x12, 0x13, 0x14, 0x15] at m
    simp only [List.mem_cons, List.not_mem_nil, or_false] at m
    rcases m with rfl | rfl | rfl | rfl
    · exact ⟨rfl, rfl, rfl⟩
    · exact ⟨rfl, rfl, rfl⟩
    · exact ⟨rfl, rfl, rfl⟩
    · exact absurd c (by decide)
  · intro k _ h
    have m := assoc_keys h
    change k ∈ [0x13] at m
    simp only [List.mem_singleton] at m
    subst m
    decide
  · intro e m _
    simp only [List.mem_singleton] at m
    subst m
    rfl
  · intro e m
    change e ∈ [(0x13, drover)] at m
    simp only [List.mem_singleton] at m
    subst m
    rfl

/-- Function 1 with its window bound to context 1 at 0x10000, the page shared with the host. -/
def windowed : State :=
  { functioning drover with
    dies := [(4, { Die.reset with tlb := [{ page with pte := 0x64F }] })]
    mgmt := { (functioning drover).mgmt with fns := [(1, { MgmtFn.reset with ctxs := [1], bar4 := some (1, 0x10000) })] } }
def request (who : Requester) (pa : Nat) : OutReq := ⟨who, 7, pa, 8, .read⟩
theorem barRead_ {s : State} {ctx : Nat} {va : Word} (h : (land s (barAgent ctx) .read va 1).any (fun x => x.2.pte.getLsbD 6) = true) :
    ∃ l s', s.BarReads ctx va l s' ∧ l.length = 1 := by
  cases e : land s (barAgent ctx) .read va 1 with
  | none => rw [e] at h; cases h
  | some x => rw [e] at h; exact ⟨_, x.1, .cons (land_for e) h (.nil _ _), rfl⟩
theorem barWrite_ {s : State} {ctx : Nat} {va : Word} (b : Byte) (h : (land s (barAgent ctx) .write va 1).any (fun x => x.2.pte.getLsbD 6) = true) :
    ∃ s', s.BarWrites ctx va [b] s' := by
  cases e : land s (barAgent ctx) .write va 1 with
  | none => rw [e] at h; cases h
  | some x => rw [e] at h; exact ⟨_, .kept (land_for e) h (.nil _ _)⟩
theorem wit_TheHostAndPeersAreServed :
    (let s := windowed; (world drover).mgmt.ready = false ∧ s.mgmt.ready = true ∧ (s.fn 2).bar4 = none ∧ (s.fn 1).bar4 = some (1, 0x10000) ∧
      2 ^ 36 < 2 ^ 36 + 1 ∧ (∃ l s', s.BarReads 1 0x10000 l s' ∧ l.length = 1) ∧ (∃ s', s.BarWrites 1 0x10000 [3] s') ∧ (s.locate (barAgent 1) .read 0x1010000 1).isOk = false ∧
      ((s.locate (barAgent 1) .read 0x10000 1).toOption.any (fun (x : State × Place) => x.2.pte.getLsbD 6 && isHbm x.2.pa 1)) = true ∧
      (({ s with poison := [0x400] }.locate (barAgent 1) .read 0x10000 1).toOption.any (fun (x : State × Place) => x.1.lineBad (x.2.pa / 64))) = true ∧
      (({ s with dies := [(4, { Die.reset with tlb := [page] })] }.locate (barAgent 1) .read 0x10000 1).toOption.any (fun (x : State × Place) => !x.2.pte.getLsbD 6)) = true) ∧
    -- answers of the host and of a peer
    (let a := request (.drover 0x12) 0xF000000000000; let r := request (.drover 0x13) 0xF000000000040; let s := { world drover with reqs := [a, r] }
     isHost r.pa = true ∧ s.reqs = [a] ++ r :: [] ∧ (∀ x ∈ [a], x.pa ≠ r.pa ∨ x.n ≠ r.n) ∧ r ∉ [a] ∧ isScaleOut 0xE000000000000 = true ∧ isHost 0x10000 = false ∧
       (∀ x ∈ (world drover).reqs, x.pa ≠ r.pa ∨ x.n ≠ r.n)) ∧
    -- what a peer sends
    (let s := { world drover with regions := [(3, 0x10000, 4096)], qpErr := [4] }; s.opened 3 0x10000 8 ∧ ¬ s.opened 4 0x10000 8 ∧ ¬ s.opened 3 0x20000 8 ∧ s.poison = [] ∧ s.bad = [] ∧ s.soft = [] ∧
      (∀ x ∈ linesOf 0x10000 8, s.Sound x) ∧ 3 ∉ s.qpErr ∧ 4 ∈ s.qpErr ∧ { s with poison := [0x400] }.lineBad (0x10000 / 64) = true) ∧
    (let d := { drover with state := .awaiting, wait := some .chain }; let s := { world d with unacked := [(3, 0x13)] }
     (s.drover 0x13).wait = some .chain ∧ (s.drover 0x13).cst.run = false ∧ (∀ e ∈ s.drovers, e.2.granted = false) ∧ rising s.drovers = true) := by
  refine ⟨⟨rfl, rfl, rfl, rfl, by decide, barRead_ (by decide +kernel), barWrite_ 3 (by decide +kernel), by decide +kernel, by decide +kernel, by decide +kernel, by decide +kernel⟩,
    ⟨by decide, rfl, by decide, by decide, by decide, by decide, nil_all⟩,
    ⟨⟨by decide, by decide, _, .head _, rfl, by decide, by decide⟩, fun h => h.1 (.head _), ?_, rfl, rfl, rfl, sound_of (by decide), by decide, .head _, by decide⟩, ⟨rfl, rfl, by decide, rfl⟩⟩
  rintro ⟨_, _, r, m, _, _, h⟩
  change r ∈ [(3, 0x10000, 4096)] at m
  simp only [List.mem_singleton] at m
  subst m
  exact absurd h (by decide)

/-! ### Verdicts, faults of engines, the package -/

def fault : FaultInfo := { FaultInfo.plain 7 with sub := 2, va := 0x10000, wr := true }
def trapped : Drover :=
  { drover with
    state := .trapped, pending := [(0, fault)], answers := []
    susp := some ⟨7, 0, 0x10000, none, true, false, true, false, false, false, 0x1000, 0x1000⟩ }
def awaiting (who : Requester) (s : State) : State := { s with dies := [(0, { Die.reset with tlb := [page], awaited := [⟨9, 1, 0x10, 7, 2, [who]⟩], tail := 10, head := 9 })] }
theorem wit_VerdictsAndInvalidationsAct :
    ((∀ x ∈ ((world drover).die 0).awaited, x.tag ≠ 9) ∧ 2 ^ 33 ≤ (0x200000000 : Word).toNat) ∧
    (let s := awaiting (.drover 0x13) (world trapped); let d := s.drover 0x13; let a : Awaited := ⟨9, 1, 0x10, 7, 2, [.drover 0x13]⟩
     (s.die 0).awaited = [a] ∧ a.tag = 9 ∧ a.who = [.drover 0x13] ∧ d.state = .trapped ∧ d.pending = [(0, fault)] ∧ d.answers = [] ∧ a.region = fault.va.toNat / 4096 ∧
       0x13 = s.sel ∧ d.handles ∧ fault.cause ∈ [6, 7] ∧ (∃ t, d.susp = some t ∧ t.cause = fault.cause ∧ t.icause = 0 ∧ t.elem = none ∧ t.partway = false ∧ t.chb = false ∧
         t.ex = false ∧ t.posted = true ∧ t.rep = d.reps.go)) ∧
    (let T := transfer .cpyin descOf; let s := awaiting (.transfer 0x13 3 1) (moving { T with tag := some 9 }); let x := { tile with st := .filling, pend := some (0x13, 3, 1) }
     assocGet (s.core 2).tiles T.tile = some x ∧ x.pend = some (0x13, 3, 1) ∧ (s.core 2).transfers = [{ T with tag := some 9 }] ∧ T.left = [coreOf 0x13] ∧ T.kind ≠ .cpyout ∧
       (s.drover 0x13).wait = none ∧ s.tren T.flock 3 = false ∧ (s.die 0).awaited = [⟨9, 1, 0x10, 7, 2, [.transfer 0x13 3 1]⟩]) ∧
    -- HEAD: in order, beyond TAIL, with a record held back
    (let s := awaiting (.drover 0x13) (world drover); let dd := s.die 0
     (10 + 2 ^ 32 - dd.head % 2 ^ 32) % 2 ^ 32 ≤ (dd.tail + 2 ^ 32 - dd.head % 2 ^ 32) % 2 ^ 32 ∧ dd.backlog = [] ∧
       (dd.tail + 2 ^ 32 - dd.head % 2 ^ 32) % 2 ^ 32 < (11 + 2 ^ 32 - dd.head % 2 ^ 32) % 2 ^ 32) ∧
    (let r := queueFault 3 0 5 0 0; let s := { world drover with dies := [(0, { Die.reset with backlog := [(r, 1, none)], frqb := some 0x20000, tail := 1024 })] }; let dd := s.die 0
     dd.backlog = [(r, 1, none)] ∧ dd.frqb = some 0x20000 ∧ isHbm 0x20000 65544 = true ∧ (dd.tail + 2 ^ 32 - 1) % 2 ^ 32 < 1024 ∧ dd.tail < 2 ^ 32 ∧
       (1 + 2 ^ 32 - dd.head % 2 ^ 32) % 2 ^ 32 ≤ (dd.tail + 2 ^ 32 - dd.head % 2 ^ 32) % 2 ^ 32 ∧ (∀ c, s.context 1 = some c → c.conf = false)) ∧
    (let s := { world drover with dies := [(0, { Die.reset with tlb := [page], invals := [⟨1, 1, true, 0, 1, false⟩] })] }
     (s.die 0).invals = [⟨1, 1, true, 0, 1, false⟩] ∧ s.unacked = [] ∧ s.reqs = [] ∧ rising s.dies = true ∧ { s with unacked := [(1, 2)] }.unacked ≠ [] ∧ ((world drover).die 0).invals = []) := by
  refine ⟨⟨nil_all, by decide⟩, ⟨rfl, rfl, rfl, rfl, rfl, rfl, by decide, rfl, handles_, by decide, _, rfl, rfl, rfl, rfl, rfl, rfl, rfl, rfl, rfl⟩,
    ⟨rfl, rfl, rfl, rfl, by decide, rfl, quiet_ rfl 3, rfl⟩, ⟨by decide, rfl, by decide⟩, ⟨rfl, rfl, by decide, by decide, by decide, by decide, ?_⟩, ⟨rfl, rfl, rfl, rfl, by decide, rfl⟩⟩
  intro c e
  cases (show (world drover).context 1 = some context from rfl).symm.trans e
  rfl

def denied (s : State) (ag : Agent) (va : Word) (n die : Nat) : Bool :=
  match s.locate ag .read va n with
  | .error (s', f) => decide ((f.cause = 7 ∨ f.cause = 6 ∧ f.sub ≠ 0) ∧ (s'.die die).frqb = none ∧ (s'.die die).awaited = [])
  | .ok _ => false
theorem denied_ {s : State} {ag : Agent} {va : Word} {n die : Nat} (h : denied s ag va n die = true) : ∃ s' f, s.locate ag .read va n = .error (s', f) ∧
    (f.cause = 7 ∨ f.cause = 6 ∧ f.sub ≠ 0) ∧ (s'.die die).frqb = none ∧ (s'.die die).awaited = [] := by
  unfold denied at h
  split at h
  · next s' f e => exact ⟨s', f, e, of_decide_eq_true h⟩
  · cases h
theorem wit_EngineFaultsArePosted :
    let T := transfer .cpyin { descOf with i := [0, 0, 0, 0] }; let s := moving T; let ag := s.engineOf 0x13 3 1 T.sup; let va := BitVec.ofInt 64 (T.desc.place 0)
    s.transferOf 0x13 3 1 = some T ∧ T.tag = none ∧ s.bookings = [] ∧ T.kind = .cpyin ∧ 0 < T.nrows ∧ T.desc.c.length = 4 ∧ (∀ k < 4, T.desc.c.getD k 1 ≠ 0) ∧ T.desc.inside 0 = true ∧
      0 ≤ T.desc.place 0 ∧ T.desc.place 0 < 2 ^ 64 ∧ T.desc.esz ∈ [1, 2, 4, 8] ∧ T.nrows ≤ T.desc.c.getD 1 1 * T.desc.c.getD 2 1 * T.desc.c.getD 3 1 ∧
      (∀ n < T.nrows * T.desc.c.getD 0 1, T.desc.inside n = true → 0 ≤ T.desc.place n ∧ T.desc.place n < 2 ^ 64) ∧
      (∃ s', s.ReadsFor ag T.desc.esz (((List.range (T.nrows * T.desc.c.getD 0 1)).filter T.desc.inside).map (fun n => (.ofInt 64 (T.desc.place n), 0))) s') ∧
      -- a page that is not mapped, and one that may not be read
      (∀ l ∈ [[], listed 0x802000 [(0, 5), (1, 6)]], ∃ s' f, { s with dies := [], mem := listed 0x800000 [(0, 1), (1, 0x10), (2, 0x80), (0x1000, 1), (0x1001, 0x20), (0x1002, 0x80)] ++ l }.locate ag .read va T.desc.esz = .error (s', f) ∧
        (f.cause = 7 ∨ f.cause = 6 ∧ f.sub ≠ 0) ∧ (s'.die (dieOfCore 2)).frqb = none ∧ (s'.die (dieOfCore 2)).awaited = []) := by
  refine ⟨rfl, rfl, rfl, rfl, by decide, rfl, by decide, by decide +kernel, by decide +kernel, by decide +kernel, by decide, by decide, by decide +kernel, readsFor_ (by decide +kernel), ?_⟩
  intro l m
  simp only [List.mem_cons, List.not_mem_nil, or_false] at m
  rcases m with rfl | rfl
  all_goals exact denied_ (by decide +kernel)

theorem wit_ThePackageStartsResetsAndIsWatched :
    (let m := (function MgmtFn.reset).mgmt; m.ready = true) ∧ (let m := (world drover).mgmt; m.ready = false ∧ m.err = false ∧ m.booting = false) ∧
    (let m := { Mgmt.reset with booting := true, lcs := .debug }; m.booting = true ∧ m.lcs = .debug) ∧
    (let s := { world drover with soft := [0x40], bad := [0x41] }; rising s.dies = true ∧ (∀ l ∈ s.soft, ∀ k, l * 64 / 0x3000000000 = k → assocGet s.dies k ≠ none)) ∧
    (world drover).trace.base = none ∧ rising (world drover).drovers = true ∧ (∀ e ∈ (world drover).drovers, e.2.cst.run = false ∧ (world drover).tren e.2.flock 1 = false) := by
  refine ⟨rfl, ⟨rfl, rfl, rfl⟩, ⟨rfl, rfl⟩, ⟨rfl, ?_⟩, rfl, rfl, ?_⟩
  · intro l m k h
    simp only [List.mem_singleton] at m
    subst m h
    decide
  · intro e m
    change e ∈ [(0x13, drover)] at m
    simp only [List.mem_singleton] at m
    subst m
    exact ⟨rfl, rfl⟩

/-- A lone drover whose flock traces by classes, and samples every other cycle. -/
def traced : Flock := { flock with dbg := { Debug.reset with dctl := 0x601000000 } }
def ticking (d : Drover) (f : Flock) : State := { lone d [] false with cycle := 100, flocks := [(7, f)] }
def counting : Drover := { drover with lgm := 1, laneMask := 1, occupied := [], lanes := [(0, ⟨2 ^ 31 - 1, 5, 6, 7, 8, 9⟩)], granted := true, parked := 1 }
theorem ticking_grants (d : Drover) (f : Flock) : ∀ e ∈ (ticking d f).ctxs, ∀ u, e.2.grantUntil = some u → (ticking d f).cycle + 1 < u := by
  intro e m u h
  change e ∈ [(1, context)] at m
  simp only [List.mem_singleton] at m
  subst m
  cases h
theorem wit_CyclesBringWhatIsDue :
    (let d := drover; d.yieldUntil = none ∧ bits ((world d).debug d.flock).dctl 24 5 = 0 ∧ d.lgm.getLsbD 0 = false) ∧
    (let d := { drover with yieldUntil := some 101 }; let s := ticking d flock; s.QuietCycle 0x13 ∧ d.lgm = 0 ∧ d.laneMask = 0 ∧ bits (s.debug d.flock).dctl 24 5 = 0 ∧ d.yieldUntil = some (s.cycle + 1)) ∧
    (∀ d ∈ [{ drover with born := 1 }, { drover with born := 1, state := .awaiting, wait := some .chain }, { trapped with born := 1 }], let s := ticking d traced; let p := bits (s.debug d.flock).dctl 24 5
      (d.state = .issuing ∨ d.state = .awaiting ∨ d.state = .trapped) ∧ s.Passes 0x13 ∧ d.lgm = 0 ∧ d.laneMask = 0 ∧ d.yieldUntil = none ∧ s.tren d.flock 2 = true ∧
        (∀ c, s.context d.ctx = some c → c.conf = false) ∧ p ≠ 0 ∧ d.born ≤ s.cycle ∧ (s.cycle + 1 - d.born) % 2 ^ p = 0 ∧ s.trace.base = none) ∧
    (let d := counting; let s := ticking d { flock with dbg := { Debug.reset with dctl := 0x200000000 } }
     d.state = .issuing ∧ s.Passes 0x13 ∧ d.yieldUntil = none ∧ bits (s.debug d.flock).dctl 24 5 = 0 ∧ s.tren d.flock 1 = true ∧ s.trace.base = none ∧ d.lgm = .ofNat 16 (2 ^ 0) ∧
       d.laneMask = d.lgm ∧ d.occupied = [] ∧ d.lanes = [(0, ⟨2 ^ 31 - 1, 5, 6, 7, 8, 9⟩)]) ∧
    (let c := { context with grantUntil := some 101 }; let s := { world drover with ctxs := [(1, c)], drovers := [], tasks := [] }
     s.context 1 = some c ∧ c.grantUntil = some (s.cycle + 1) ∧ s.drovers = [] ∧ s.queues = [] ∧ s.tasks = [] ∧ (∀ e ∈ s.flocks, e.2.abortAsked = false) ∧ 2 ≤ (s.cycle + 1) % 8 ∧
       rising s.ctxs = true) ∧
    (∀ h ∈ [none, some (1, 4, 3)], let d := { drover with state := .halted, dbgHalt := true, hold := h }
      d.dbgHalt = true ∧ d.state = .halted ∧ d.cst.rs = false ∧ d.granted = false ∧ d.susp = none ∧ d.preempted = false ∧ d.hold = h ∧ (∀ x ∈ (world d).unacked, x.2 ≠ 0x13)) := by
  have passes : ∀ (d : Drover) (f : Flock), d.flock = 7 → d.run = none → d.cst.run = false → f.abortAsked = false → f.dbg.dctl.getLsbD 2 = false → (ticking d f).Passes 0x13 := by
    intro d f h1 h2 h3 h4 h5
    refine ⟨⟨rfl, rfl, rfl⟩, (by decide : 2 ≤ (100 + 1) % 8), ⟨h2, h3⟩, ticking_grants d f, ?_, ?_⟩
    · intro e m
      change e ∈ [(7, f)] at m
      simp only [List.mem_singleton] at m
      subst m; exact h4
    · change ((ticking d f).debug d.flock).dctl.getLsbD 2 = false
      rw [h1]; exact h5
  have plain_ : ∀ d f c, d.ctx = 1 → (ticking d f).context d.ctx = some c → c.conf = false := by
    intro d f c h e
    rw [h] at e
    cases (show (ticking d f).context 1 = some context from rfl).symm.trans e
    rfl
  refine ⟨⟨rfl, by decide, by decide⟩, ⟨⟨⟨rfl, rfl, rfl, quiet_ rfl, by decide⟩, by decide, rfl, ⟨rfl, rfl⟩, ticking_grants _ _, nil_all, by decide⟩, rfl, rfl, by decide, rfl⟩, ?_,
    ⟨rfl, passes _ _ rfl rfl rfl rfl (by decide), rfl, by decide, by decide, rfl, rfl, rfl, rfl, rfl⟩, ⟨rfl, rfl, rfl, rfl, rfl, by decide, by decide, rfl⟩, ?_⟩
  · intro d m
    simp only [List.mem_cons, List.not_mem_nil, or_false] at m
    rcases m with rfl | rfl | rfl
    · exact ⟨.inl rfl, passes _ _ rfl rfl rfl rfl (by decide), rfl, rfl, rfl, by decide, fun c => plain_ _ _ c rfl, by decide, by decide, by decide, rfl⟩
    · exact ⟨.inr (.inl rfl), passes _ _ rfl rfl rfl rfl (by decide), rfl, rfl, rfl, by decide, fun c => plain_ _ _ c rfl, by decide, by decide, by decide, rfl⟩
    · exact ⟨.inr (.inr rfl), passes _ _ rfl rfl rfl rfl (by decide), rfl, rfl, rfl, by decide, fun c => plain_ _ _ c rfl, by decide, by decide, by decide, rfl⟩
  · intro h m
    simp only [List.mem_cons, List.not_mem_nil, or_false] at m
    rcases m with rfl | rfl
    all_goals exact ⟨rfl, rfl, rfl, rfl, rfl, rfl, rfl, nil_all⟩

/-- A drover that asks for groups beside one whose run holds them all. -/
def asking (d : Drover) : Drover := { d with request := some ⟨0, 4⟩ }
def crowded : Run := { run false 64 with units := [(2, 0xFFFF)] }
theorem wit_LanesAreGrantedAndReclaimed :
    (∀ d ∈ [asking drover, asking { ready (vtyOf 5) 8 with lgm := 0, parked := 8 }, asking { ready (vtyOf 5) 8 with lgm := 0, parked := 15 }], let s := world d
      d.request.isSome = true ∧ d.state = .issuing ∧ s.AtHand ∧ d.spilled = false ∧ (d.granted = true → d.vfmt.legal = true)) ∧
    (BitVec.ofNat 16 (world (asking { ready (vtyOf 5) 8 with lgm := 0, parked := 8 })).grantable ≠ 8) ∧
    ((world drover).cur.request = none ∧ (world drover).cur.cst.run = false) ∧
    (let e := { running false 64 with lgm := 0, granted := false, run := some crowded, cst := { (running false 64).cst with tmp := false } }; let f := asking drover
     let s := { world e with drovers := [(0x13, e), (0x14, f)], cycle := 3840 }
     s.drovers = [(0x13, e), (0x14, f)] ∧ coreOf 0x14 = coreOf 0x13 ∧ e.run = some crowded ∧ e.template = some (template false) ∧ e.cst.run = true ∧ e.cst.tmp = false ∧ crowded.placed = true ∧
       s.plainRun 0x13 crowded ∧ crowded.units.isEmpty = false ∧ e.wait = none ∧ e.state = .issuing ∧ e.request = none ∧
       (∀ x ∈ crowded.nodes.zip (template false).nodes, x.1.pix ≤ x.1.strip * x.2.lq) ∧ s.bookings = [] ∧ (∀ c, s.tren e.flock c = false) ∧ f.request = some ⟨0, f.lgMax⟩ ∧
       0 + 3840 ≤ s.cycle ∧ e.runUnits (coreOf 0x13) ≠ 0 ∧ f.run = none ∧ f.granted = false ∧ 1 ≤ f.lgMin ∧ f.lgMin ≤ f.lgMax ∧ f.lgMax ≤ 16 ∧ popcount 16 (s.pastureFor 0x14) < f.lgMin ∧
       popcount 16 (s.drover 0x14).lgm.toNat = 0 ∧ popcount 16 ((s.drover 0x14).lgm.toNat ||| s.pastureFor 0x14) < (s.drover 0x14).lgMin) := by
  refine ⟨?_, by decide +kernel, ⟨rfl, rfl⟩, ⟨rfl, rfl, rfl, rfl, rfl, rfl, rfl, ⟨rfl, rfl, rfl, rfl, rfl, rfl, (by decide : Srs.reset.owner ≠ some 0x13)⟩, rfl, rfl, rfl, rfl, by decide +kernel,
    rfl, quiet_ rfl, rfl, by decide, by decide, rfl, rfl, by decide, by decide, by decide, by decide +kernel, by decide, by decide +kernel⟩⟩
  intro d m
  simp only [List.mem_cons, List.not_mem_nil, or_false] at m
  rcases m with rfl | rfl | rfl
  all_goals
    refine ⟨rfl, rfl, ⟨?_, rfl, ?_, by decide +kernel, by decide +kernel⟩, rfl, by decide +kernel⟩
    · decide +kernel
    · intro e m n
      change e ∈ [(0x13, _)] at m
      simp only [List.mem_singleton] at m
      subst m
      exact absurd rfl n

/-! ### A step -/

/-- The drover's word at 0x1000. -/
def fetching (w : Nat) (d : Drover) : State := { world d with mem := listed 0x1000 ((List.range 4).filterMap (fun i => if w / 256 ^ i % 256 = 0 then none else some (i, w / 256 ^ i % 256))) }
/-- The fetch lands on the word, and the instruction leaves the drover with a stall, or none. -/
def stepsTo (s : State) (i : Instr) (w : BitVec 32) (stall : Bool) : Bool :=
  match land { s with sel := 0x13 } ({ s with sel := 0x13 }.agentOf 0x13) .fetch (s.drover 0x13).pc 4 with
  | some x => x.1.number x.2.key x.2.pa 4 == w.toNat && (match exec i x.1 with | .next t => (t.drover 0x13).stall.isSome == stall | _ => false)
  | none => false
theorem issues_ (s : State) (i : Instr) (w : BitVec 32) (stall : Bool) (h1 : s.turnOrder 2 = [0x13])
    (h2 : (s.drover 0x13).request = none ∧ ((s.drover 0x13).granted = true → (s.drover 0x13).lgm ≠ 0))
    (h3 : ((s.drover 0x13).stepping = true → (s.drover 0x13).stepped = false) ∧ (s.drover 0x13).capture = none ∧ (s.drover 0x13).bks.search = none)
    (h4 : (s.debug (s.drover 0x13).flock).dctl.getLsbD 0 = false ∧ (s.debug (s.drover 0x13).flock).dctl.getLsbD 2 = false) (h5 : (s.drover 0x13).reps.go = false)
    (h6 : decode w = .ok i ∧ i.wf = true) (h7 : stepsTo s i w stall = true) : ∃ u, s.Issues 2 0x13 i u ∧ ∃ t, exec i u = .next t ∧ (t.drover 0x13).stall.isSome = stall := by
  unfold stepsTo at h7
  split at h7
  · next x e =>
    rw [Bool.and_eq_true] at h7
    refine ⟨x.1, ⟨⟨[], h1⟩, h2, h3, h4, w, w, by rw [Drover.issueWord, h5]; rfl, h6.1, h6.2, .inr ⟨h5, x.2, land_for e, eq_of_beq h7.1⟩⟩, ?_⟩
    split at h7
    · next t f => exact ⟨t, f, eq_of_beq h7.2⟩
    · cases h7.2
  · cases h7
theorem wit_AStepRunsTheDecodedInstruction :
    (let s := { fetching 0x09AA8A81 drover with agenda := [.issue 2] }; s.agenda = .issue 2 :: [] ∧ ∃ u, { s with agenda := [] }.Issues 2 0x13 (.add 21 42 77) u ∧
      ∃ t, exec (.add 21 42 77) u = .next t ∧ (t.drover 0x13).stall.isSome = false) ∧
    (let s := { fetching 0x30000039 drover with cores := [(2, Core.reset)], unacked := [(1, 0x13)] }
     s.agenda = [] ∧ s.freshCores.head? = some 2 ∧ s.cycle % 8 ≠ 0 ∧ s.turnOrder 2 = [0x13] ∧
       ∃ u, s.Issues 2 0x13 .chwait u ∧ ∃ t, exec .chwait u = .next t ∧ (t.drover 0x13).stall.isSome = true) ∧
    encode .quantumBoundary = none :=
  ⟨⟨rfl, issues_ { fetching 0x09AA8A81 drover with agenda := [] } (.add 21 42 77) 0x09AA8A81 false (by decide) ⟨rfl, (fun h => nomatch h)⟩ ⟨(fun h => nomatch h), rfl, rfl⟩
      (by decide) rfl ⟨rfl, rfl⟩ (by decide +kernel)⟩,
    ⟨rfl, by decide, by decide, by decide, issues_ { fetching 0x30000039 drover with cores := [(2, Core.reset)], unacked := [(1, 0x13)] } .chwait 0x30000039 true (by decide)
      ⟨rfl, (fun h => nomatch h)⟩ ⟨(fun h => nomatch h), rfl, rfl⟩ (by decide) rfl ⟨rfl, rfl⟩ (by decide +kernel)⟩, rfl⟩

theorem wit_MemoryKeepsItsForm : State.reset.memOk ∧ ∃ t, step State.reset = .next t := ⟨⟨rfl, rfl⟩, _, rfl⟩

/-- The accesses of a firing of two elements: a load's, a store's of the pair, and those of a load that leaves the page after its first. -/
def stopsAt (s : State) (ag : Agent) (l : List (Word × Nat)) (va : Word) : Bool :=
  match readsOf (some ag) 4 s l with
  | some u => (match u.locate ag .read va 4 with | .error e => decide (e.2.cause ≠ 0x0A) | .ok _ => false)
  | none => false
theorem stopsAt_ {s : State} {ag : Agent} {l : List (Word × Nat)} {va : Word} (h : stopsAt s ag l va = true) :
    ∃ s' u e, s.ReadsFor ag 4 l s' ∧ s'.locate ag .read va 4 = .error (u, e) ∧ e.cause ≠ 0x0A := by
  unfold stopsAt at h
  split at h
  · next u e =>
    split at h
    · next x f => exact ⟨u, x.1, x.2, readsFor_of e, f, of_decide_eq_true h⟩
    · cases h
  · cases h
theorem wit_NodesFireInTheReferenceOrder_accesses :
    (let ns := [nVld, nVadd]; let s := world (firing ns [] 2); let r := runOf ns [] 2
     nVld.row = some .vld ∧ nVld.w ∈ [8, 16, 32, 64] ∧ r.nodes.map (·.base) = [0, 0] ∧ ∃ s', s.ReadsFor (s.nodeAgent 0x13 0 0 srcStream r.sup) 4 [(0, 0), (4, 0)] s') ∧
    (let ns := [nVld, nVst1]; let s := world (firing ns pair 2); let r := runOf ns pair 2
     nVst1.row = some .vst ∧ nVst1.w ∈ [8, 16, 32, 64] ∧ ∃ s', s.WritesFor (s.nodeAgent 0x13 1 0 srcStream r.sup) 4 [(0, 7), (4, 0xFFFFFFFF)] s') ∧
    (let ns := [nVld, nVadd]; let r := { runOf ns [] 2 with nodes := (runOf ns [] 2).nodes.map (fun x => { x with base := 0xFFFFFC }) }; let d := going ns r; let s := world d
     d.run = some r ∧ (r.nodes[0]?).map (·.base) = some 0xFFFFFC ∧ d.wait = none ∧ d.resident = true ∧ canFire d 0 = true ∧ s.unitFree 0x13 0 = true ∧
       ∃ s' u e, s.ReadsFor (s.nodeAgent 0x13 0 0 srcStream r.sup) 4 [(0xFFFFFC, 0)] s' ∧ s'.locate (s.nodeAgent 0x13 0 0 srcStream r.sup) .read 0x1000000 4 = .error (u, e) ∧ e.cause ≠ 0x0A) ∧
    (nVadd.row = some .vadd ∧ nVadd.fmt ∈ [.i8, .i16, .i32, .i64] ∧ nVrsum.row = some .vrsum ∧ vtyFwl nVrsum.vty ≤ 10) :=
  ⟨⟨rfl, by decide, by decide +kernel, readsFor_ (by decide +kernel)⟩, ⟨rfl, by decide, writesFor_ (by decide +kernel)⟩,
    ⟨rfl, by decide +kernel, rfl, rfl, by decide +kernel, by decide +kernel, stopsAt_ (by decide +kernel)⟩, ⟨rfl, by decide, rfl, by decide⟩⟩

/-! ### The manual's worked examples -/

/-- The result of one instruction on a state, read by a function. -/
def after {α : Type} (i : Instr) (s : State) (f : Drover → α) : Option α :=
  match exec i s with
  | .next t => some (f t.cur)
  | _ => none
/-- Elements of a row from a list. -/
def rowOf (w : Nat) (l : List Nat) : RowBits := .ofNat _ (l.zipIdx.foldl (fun a e => a + e.1 * 2 ^ (w * e.2)) 0)

/-- 06_numbers_notes.md, 'Narrowing F32 values into H8 and G8'. -/
theorem test_narrowing_edges :
    convertElem .f32 .h8 rmRNE false 0x43740000 = (0x7F, flNX) ∧ convertElem .f32 .h8 rmRNE false 0x43780000 = (0x7F, flOF ||| flNX) ∧
    convertElem .f32 .h8 rmRUP false 0x43710000 = (0x7F, flOF ||| flNX) ∧ convertElem .f32 .h8 rmRNE false 0x3A000000 = (0, flUF ||| flNX) ∧
    convertElem .f32 .h8 rmRNE false 0x3A400000 = (1, flUF ||| flNX) ∧ convertElem .f32 .h8 rmRNE false 0x80000000 = (0, flNone) ∧
    convertElem .f32 .g8 rmRNE false 0x47700000 = (0x7F, flOF ||| flNX) ∧ convertElem .f32 .g8 rmRNE false 0x3F800000 = (0x40, flNone) := by decide +kernel
/-- 06_numbers_notes.md, 'A signalling F16 NaN, out and back'; 05_numbers.md, R82. -/
theorem test_nans_and_integers :
    convertElem .f16 .f32 rmRNE false 0xFC05 = (0xFF80A000, flNone) ∧ convertElem .f32 .f16 rmRNE false 0xFF80A000 = (0xFC05, flNone) ∧
    fAdd .f16 rmRNE (floatOperand .f16 .f16 0xFC05) (floatOperand .f16 .f16 0x3C00) = (0xFE05, flNV) ∧ convertElem .f32 .f16 rmRNE false 0x7F800001 = (0x7C01, flNone) ∧
    convertElem .h8 .f32 rmRNE false 0x80 = (0x7FC00000, flNone) ∧ convertElem .f32 .h8 rmRNE false 0x7FC00000 = (0x80, flNone) ∧
    convertElem .i32 .n32 rmRNE false 0xFFFFFFFB = (0xFFFFFFFB, flNone) ∧ convertElem .i32 .n32 rmRNE true 0xFFFFFFFB = (0, flNone) ∧
    convertElem .n32 .i32 rmRNE true 0xFFFFFFFB = (0x7FFFFFFF, flNone) := by decide +kernel
/-- 06_numbers_notes.md, 'An I4X block with two outliers and a misplaced escape'. -/
theorem test_i4x_block :
    let b := decodeBlock .f32 128 ([0x10, 0x7F, 0x88, 0x35, 0x8F, 0xC4, 0x12, 0x98] ++ List.replicate 56 0)
    b.n = 124 ∧ (List.range 13).map b.val = ([0x41000000, 0, 0, 0x40400000, 0xBF800000, 0xBFC00000, 0, 0, 0x40000000, 0x3F800000].map (·, flNone)) ++
      [(0x7FC00000, flFE), (0xC0E00000, flNone), (0, flNone)] := by decide +kernel
/-- 06_numbers_notes.md, 'One sum, two fold widths': 12 elements, 3 and 11 masked off, folded in 4 and in 8 partials. -/
def summing (fwl : Nat) : State :=
  let d := ready (.ofNat 64 (11 + 64 + 1024 * fwl)) 12
  world { d with vec := { d.vec with
    rows := d.vec.rows.set 2 (rowOf 32 [0x3F800000, 0, 0, 0, 0x3F800000, 0, 0, 0, 0x4B800000, 0, 0, 0]), preds := d.vec.preds.set 1 0x7F7 } }
theorem test_fold_widths :
    after (.vrfsum 3 2 4 true) (summing 2) (fun d => (rowElem (d.vec.row 3) 32 0, d.fef)) = some (0x4B800001, 0) ∧
    after (.vrfsum 3 2 4 true) (summing 3) (fun d => (rowElem (d.vec.row 3) 32 0, d.fef, d.fei[4].idx)) = some (0x4B800000, flNX, 8) := by decide +kernel
/-- 11_vector.md, R189: VWID of five F16 1 to 5 writes elements 0, 2 and 4 to row 6, 1 and 3 to row 7, and keeps what stands behind them. -/
theorem test_vwid_layout :
    let d := ready (vtyOf 9) 5
    let s := world { d with vec := { d.vec with rows := (d.vec.rows.set 2 (rowOf 16 [0x3C00, 0x4000, 0x4200, 0x4400, 0x4500])).set 6 (rowOf 32 [0, 0, 0, 7]) } }
    after (.vwid 6 2 false) s (fun d => ((List.range 4).map (rowElem (d.vec.row 6) 32), (List.range 3).map (rowElem (d.vec.row 7) 32))) =
      some ([0x3F800000, 0x40400000, 0x40A00000, 7], [0x40000000, 0x40800000, 0]) := by decide +kernel
/-- 02_organisation_notes.md, 'Placement of the example flock at origin (7, 7)'. -/
theorem test_placement : [coreAt 7 7, coreAt 8 7, coreAt 7 8, coreAt 8 8] = [63, 120, 135, 192] := by decide

/-! ### Well-formedness and decoding -/

theorem test_wf_refuses_each_bad_field :
    (.fence 0 6 : Instr).wf = false ∧ (.srd 0 0x009 : Instr).wf = false ∧ (.srd 0 0x432 : Instr).wf = false ∧ (.swr 0 0x009 : Instr).wf = false ∧
    (.swr 0 0x432 : Instr).wf = false ∧ (.vcmpEq 0 0 0 false : Instr).wf = false ∧ (.vcmpEq 16 0 0 false : Instr).wf = false ∧
    (.vcmpNe 0 0 0 false : Instr).wf = false ∧ (.vcmpNe 16 0 0 false : Instr).wf = false ∧ (.vcmpLt 0 0 0 false : Instr).wf = false ∧
    (.vcmpLt 16 0 0 false : Instr).wf = false ∧ (.vcmpGe 0 0 0 false : Instr).wf = false ∧ (.vcmpGe 16 0 0 false : Instr).wf = false ∧
    (.vcmpLtu 0 0 0 false : Instr).wf = false ∧ (.vcmpLtu 16 0 0 false : Instr).wf = false ∧ (.vcmpGeu 0 0 0 false : Instr).wf = false ∧
    (.vcmpGeu 16 0 0 false : Instr).wf = false ∧ (.vcmpEqS 0 0 0 false : Instr).wf = false ∧ (.vcmpEqS 16 0 0 false : Instr).wf = false ∧
    (.vcmpNeS 0 0 0 false : Instr).wf = false ∧ (.vcmpNeS 16 0 0 false : Instr).wf = false ∧ (.vcmpLtS 0 0 0 false : Instr).wf = false ∧
    (.vcmpLtS 16 0 0 false : Instr).wf = false ∧ (.vcmpGeS 0 0 0 false : Instr).wf = false ∧ (.vcmpGeS 16 0 0 false : Instr).wf = false ∧
    (.vcmpLtuS 0 0 0 false : Instr).wf = false ∧ (.vcmpLtuS 16 0 0 false : Instr).wf = false ∧ (.vcmpGeuS 0 0 0 false : Instr).wf = false ∧
    (.vcmpGeuS 16 0 0 false : Instr).wf = false ∧ (.vfcmpEq 0 0 0 false : Instr).wf = false ∧ (.vfcmpEq 16 0 0 false : Instr).wf = false ∧
    (.vfcmpNe 0 0 0 false : Instr).wf = false ∧ (.vfcmpNe 16 0 0 false : Instr).wf = false ∧ (.vfcmpLt 0 0 0 false : Instr).wf = false ∧
    (.vfcmpLt 16 0 0 false : Instr).wf = false ∧ (.vfcmpLe 0 0 0 false : Instr).wf = false ∧ (.vfcmpLe 16 0 0 false : Instr).wf = false ∧
    (.vfcmpUn 0 0 0 false : Instr).wf = false ∧ (.vfcmpUn 16 0 0 false : Instr).wf = false ∧ (.vfcmpOr 0 0 0 false : Instr).wf = false ∧
    (.vfcmpOr 16 0 0 false : Instr).wf = false ∧ (.vxch 0 0 15 false : Instr).wf = false ∧ (.pand 0 0 0 : Instr).wf = false ∧
    (.pand 16 0 0 : Instr).wf = false ∧ (.pand 15 16 0 : Instr).wf = false ∧ (.pand 15 0 16 : Instr).wf = false ∧ (.por 0 0 0 : Instr).wf = false ∧
    (.por 16 0 0 : Instr).wf = false ∧ (.por 15 16 0 : Instr).wf = false ∧ (.por 15 0 16 : Instr).wf = false ∧ (.pxor 0 0 0 : Instr).wf = false ∧
    (.pxor 16 0 0 : Instr).wf = false ∧ (.pxor 15 16 0 : Instr).wf = false ∧ (.pxor 15 0 16 : Instr).wf = false ∧ (.pandn 0 0 0 : Instr).wf = false ∧
    (.pandn 16 0 0 : Instr).wf = false ∧ (.pandn 15 16 0 : Instr).wf = false ∧ (.pandn 15 0 16 : Instr).wf = false ∧ (.pnot 0 0 : Instr).wf = false ∧
    (.pnot 16 0 : Instr).wf = false ∧ (.pnot 15 16 : Instr).wf = false ∧ (.pset 0 : Instr).wf = false ∧ (.pset 16 : Instr).wf = false ∧
    (.pclr 0 : Instr).wf = false ∧ (.pclr 16 : Instr).wf = false ∧ (.pcnt 0 16 : Instr).wf = false ∧ (.pfirst 0 16 : Instr).wf = false ∧
    (.pmov 0 0 : Instr).wf = false ∧ (.pmov 16 0 : Instr).wf = false ∧ (.pmov 15 16 : Instr).wf = false ∧ (.pfromv 0 0 : Instr).wf = false ∧
    (.pfromv 16 0 : Instr).wf = false ∧ (.ptov 0 16 : Instr).wf = false ∧ (.vldg 0 0 1 false : Instr).wf = false ∧
    (.vldg 0 0 9 false : Instr).wf = false ∧ (.vldb 0 0 0 false : Instr).wf = false ∧ (.vldb 0 0 16 false : Instr).wf = false ∧
    (.vldbFf 0 0 0 false : Instr).wf = false ∧ (.vldbFf 0 0 16 false : Instr).wf = false ∧ (.vstg 0 0 1 false : Instr).wf = false ∧
    (.vstg 0 0 9 false : Instr).wf = false ∧ (.tstatMask 0 0 0 : Instr).wf = false ∧ (.tstatMask 16 0 0 : Instr).wf = false ∧
    (.sstatMask 0 0 : Instr).wf = false ∧ (.sstatMask 16 0 : Instr).wf = false ∧ (.kld 64 0 0 : Instr).wf = false ∧ (.kst 64 0 0 : Instr).wf = false ∧
    (.kmov 64 63 : Instr).wf = false ∧ (.kmov 63 64 : Instr).wf = false ∧ (.kset 64 0 : Instr).wf = false ∧ (.mzero 4 : Instr).wf = false ∧
    (.mlda 4 0 0 : Instr).wf = false ∧ (.msta 4 0 0 : Instr).wf = false ∧ (.mrd 0 4 : Instr).wf = false ∧ (.mwr 4 0 : Instr).wf = false ∧
    (.qpush 32 0 : Instr).wf = false ∧ (.qpop 0 32 : Instr).wf = false ∧ (.qspace 0 32 : Instr).wf = false ∧ (.qcnt 0 32 : Instr).wf = false ∧
    (.qclr 32 : Instr).wf = false := by
  repeat' apply And.intro
  all_goals rfl

theorem test_wf_admits_the_bounds :
    (.fence 3 5 : Instr).wf = true ∧ (.srd 0 0x431 : Instr).wf = true ∧ (.swr 0 0x431 : Instr).wf = true ∧ (.vcmpEq 15 0 0 false : Instr).wf = true ∧
    (.vcmpNe 15 0 0 false : Instr).wf = true ∧ (.vcmpLt 15 0 0 false : Instr).wf = true ∧ (.vcmpGe 15 0 0 false : Instr).wf = true ∧
    (.vcmpLtu 15 0 0 false : Instr).wf = true ∧ (.vcmpGeu 15 0 0 false : Instr).wf = true ∧ (.vcmpEqS 15 0 0 false : Instr).wf = true ∧
    (.vcmpNeS 15 0 0 false : Instr).wf = true ∧ (.vcmpLtS 15 0 0 false : Instr).wf = true ∧ (.vcmpGeS 15 0 0 false : Instr).wf = true ∧
    (.vcmpLtuS 15 0 0 false : Instr).wf = true ∧ (.vcmpGeuS 15 0 0 false : Instr).wf = true ∧ (.vfcmpEq 15 0 0 false : Instr).wf = true ∧
    (.vfcmpNe 15 0 0 false : Instr).wf = true ∧ (.vfcmpLt 15 0 0 false : Instr).wf = true ∧ (.vfcmpLe 15 0 0 false : Instr).wf = true ∧
    (.vfcmpUn 15 0 0 false : Instr).wf = true ∧ (.vfcmpOr 15 0 0 false : Instr).wf = true ∧ (.vxch 0 0 14 false : Instr).wf = true ∧
    (.pand 15 0 0 : Instr).wf = true ∧ (.por 15 0 0 : Instr).wf = true ∧ (.pxor 15 0 0 : Instr).wf = true ∧ (.pandn 15 0 0 : Instr).wf = true ∧
    (.pnot 15 0 : Instr).wf = true ∧ (.pset 15 : Instr).wf = true ∧ (.pclr 15 : Instr).wf = true ∧ (.pcnt 0 0 : Instr).wf = true ∧
    (.pfirst 0 0 : Instr).wf = true ∧ (.pmov 15 0 : Instr).wf = true ∧ (.pfromv 15 0 : Instr).wf = true ∧ (.ptov 0 0 : Instr).wf = true ∧
    (.vldg 0 0 2 false : Instr).wf = true ∧ (.vldg 0 0 8 false : Instr).wf = true ∧ (.vldb 0 0 15 false : Instr).wf = true ∧
    (.vldbFf 0 0 15 false : Instr).wf = true ∧ (.vstg 0 0 2 false : Instr).wf = true ∧ (.vstg 0 0 8 false : Instr).wf = true ∧
    (.tstatMask 15 0 0 : Instr).wf = true ∧ (.sstatMask 15 0 : Instr).wf = true ∧ (.kld 63 0 0 : Instr).wf = true ∧ (.kst 63 0 0 : Instr).wf = true ∧
    (.kmov 63 63 : Instr).wf = true ∧ (.kset 63 0 : Instr).wf = true ∧ (.mzero 3 : Instr).wf = true ∧ (.mlda 3 0 0 : Instr).wf = true ∧
    (.msta 3 0 0 : Instr).wf = true ∧ (.mrd 0 3 : Instr).wf = true ∧ (.mwr 3 0 : Instr).wf = true ∧ (.qpush 31 0 : Instr).wf = true ∧
    (.qpop 0 31 : Instr).wf = true ∧ (.qspace 0 31 : Instr).wf = true ∧ (.qcnt 0 31 : Instr).wf = true ∧ (.qclr 31 : Instr).wf = true := by
  repeat' apply And.intro
  all_goals rfl

theorem test_decode_sys :
    decode 0x10000000#32 = .ok .nop ∧ decode 0x248d0000#32 = .ok (.trap 4660#14) ∧ decode 0x30000000#32 = .ok .eret ∧
    decode 0x448d0000#32 = .ok (.brk 4660#14) ∧ decode 0x548d0000#32 = .ok (.svc 4660#14) ∧ decode 0x600a8000#32 = .ok (.wait 42#7) ∧
    decode 0x70000000#32 = .ok .yield ∧ decode 0x80c08180#32 = .ok (.srd 3#7 770#14) ∧ decode 0x90c08180#32 = .ok (.swr 3#7 770#14) ∧
    decode 0xa00a8000#32 = .ok (.winb 42#7) ∧ decode 0xb9aa8300#32 = .ok (.rep 42#7 77#7 6#3) ∧ decode 0xc0000000#32 = .ok .exit := by
  repeat' apply And.intro
  all_goals rfl

theorem test_decode_integer :
    decode 0x09aa8a81#32 = .ok (.add 21#7 42#7 77#7) ∧ decode 0x19aa8a81#32 = .ok (.sub 21#7 42#7 77#7) ∧
    decode 0x29aa8a81#32 = .ok (.mul 21#7 42#7 77#7) ∧ decode 0x39aa8a81#32 = .ok (.mulh 21#7 42#7 77#7) ∧
    decode 0x49aa8a81#32 = .ok (.mulhu 21#7 42#7 77#7) ∧ decode 0x59aa8a81#32 = .ok (.mulhsu 21#7 42#7 77#7) ∧
    decode 0x69aa8a81#32 = .ok (.div 21#7 42#7 77#7) ∧ decode 0x79aa8a81#32 = .ok (.divu 21#7 42#7 77#7) ∧
    decode 0x89aa8a81#32 = .ok (.rem 21#7 42#7 77#7) ∧ decode 0x99aa8a81#32 = .ok (.remu 21#7 42#7 77#7) ∧
    decode 0xa9aa8a81#32 = .ok (.and 21#7 42#7 77#7) ∧ decode 0xb9aa8a81#32 = .ok (.or 21#7 42#7 77#7) ∧
    decode 0xc9aa8a81#32 = .ok (.xor 21#7 42#7 77#7) ∧ decode 0xd9aa8a81#32 = .ok (.andn 21#7 42#7 77#7) ∧
    decode 0xe9aa8a81#32 = .ok (.orn 21#7 42#7 77#7) ∧ decode 0xf9aa8a81#32 = .ok (.shl 21#7 42#7 77#7) ∧
    decode 0x09aa8ac1#32 = .ok (.shr 21#7 42#7 77#7) ∧ decode 0x19aa8ac1#32 = .ok (.sra 21#7 42#7 77#7) ∧
    decode 0x29aa8ac1#32 = .ok (.ror 21#7 42#7 77#7) ∧ decode 0x39aa8ac1#32 = .ok (.slt 21#7 42#7 77#7) ∧
    decode 0x49aa8ac1#32 = .ok (.sltu 21#7 42#7 77#7) ∧ decode 0x59aa8ac1#32 = .ok (.min 21#7 42#7 77#7) ∧
    decode 0x69aa8ac1#32 = .ok (.max 21#7 42#7 77#7) ∧ decode 0x79aa8ac1#32 = .ok (.minu 21#7 42#7 77#7) ∧
    decode 0x89aa8ac1#32 = .ok (.maxu 21#7 42#7 77#7) ∧ decode 0x900a8ac1#32 = .ok (.clz 21#7 42#7) ∧ decode 0xa00a8ac1#32 = .ok (.ctz 21#7 42#7) ∧
    decode 0xb00a8ac1#32 = .ok (.popc 21#7 42#7) ∧ decode 0xc9aa8ac1#32 = .ok (.exts 21#7 42#7 77#7) ∧
    decode 0xd9aa8ac1#32 = .ok (.extz 21#7 42#7 77#7) ∧ decode 0xe00a8ac1#32 = .ok (.bswp 21#7 42#7) ∧
    decode 0xf9aa8ac1#32 = .ok (.selnz 21#7 42#7 77#7) := by
  repeat' apply And.intro
  all_goals rfl

theorem test_decode_immediate :
    decode 0x54aa8a82#32 = .ok (.addi 21#7 42#7 677#11) ∧ decode 0x54aa8a83#32 = .ok (.andi 21#7 42#7 677#11) ∧
    decode 0x54aa8a84#32 = .ok (.ori 21#7 42#7 677#11) ∧ decode 0x54aa8a85#32 = .ok (.xori 21#7 42#7 677#11) ∧
    decode 0x54aa8a86#32 = .ok (.slti 21#7 42#7 677#11) ∧ decode 0x54aa8a87#32 = .ok (.sltiu 21#7 42#7 677#11) ∧
    decode 0x04aa8a88#32 = .ok (.shli 21#7 42#7 37#6) ∧ decode 0x0caa8a88#32 = .ok (.shri 21#7 42#7 37#6) ∧
    decode 0x14aa8a88#32 = .ok (.srai 21#7 42#7 37#6) ∧ decode 0x8d158a89#32 = .ok (.li 21#7 144470#18) ∧
    decode 0x8d158a8a#32 = .ok (.lih 21#7 144470#18) ∧ decode 0x8d158a8b#32 = .ok (.adpc 21#7 144470#18) ∧
    decode 0x8d158a8c#32 = .ok (.jal 21#7 144470#18) := by
  repeat' apply And.intro
  all_goals rfl

theorem test_decode_branches :
    decode 0x54aa8a8d#32 = .ok (.jalr 21#7 42#7 677#11) ∧ decode 0x54aa8a8e#32 = .ok (.beq 21#7 42#7 677#11) ∧
    decode 0x54aa8a8f#32 = .ok (.bne 21#7 42#7 677#11) ∧ decode 0x54aa8a90#32 = .ok (.blt 21#7 42#7 677#11) ∧
    decode 0x54aa8a91#32 = .ok (.bge 21#7 42#7 677#11) ∧ decode 0x54aa8a92#32 = .ok (.bltu 21#7 42#7 677#11) ∧
    decode 0x54aa8a93#32 = .ok (.bgeu 21#7 42#7 677#11) := by
  repeat' apply And.intro
  all_goals rfl

theorem test_decode_memory :
    decode 0x54aa8a94#32 = .ok (.ldb 21#7 42#7 677#11) ∧ decode 0x54aa8ad4#32 = .ok (.ldbz 21#7 42#7 677#11) ∧
    decode 0x54aa8a95#32 = .ok (.ldh 21#7 42#7 677#11) ∧ decode 0x54aa8ad5#32 = .ok (.ldhz 21#7 42#7 677#11) ∧
    decode 0x54aa8a96#32 = .ok (.ldw 21#7 42#7 677#11) ∧ decode 0x54aa8ad6#32 = .ok (.ldwz 21#7 42#7 677#11) ∧
    decode 0x54aa8a97#32 = .ok (.ldd 21#7 42#7 677#11) ∧ decode 0x54aa8a98#32 = .ok (.stb 21#7 42#7 677#11) ∧
    decode 0x54aa8a99#32 = .ok (.sth 21#7 42#7 677#11) ∧ decode 0x54aa8a9a#32 = .ok (.stw 21#7 42#7 677#11) ∧
    decode 0x54aa8a9b#32 = .ok (.std 21#7 42#7 677#11) ∧ decode 0x09aa8adc#32 = .ok (.amoswp 21#7 42#7 77#7 true) ∧
    decode 0x19aa8adc#32 = .ok (.amoadd 21#7 42#7 77#7 true) ∧ decode 0x29aa8adc#32 = .ok (.amoand 21#7 42#7 77#7 true) ∧
    decode 0x39aa8adc#32 = .ok (.amoor 21#7 42#7 77#7 true) ∧ decode 0x49aa8adc#32 = .ok (.amoxor 21#7 42#7 77#7 true) ∧
    decode 0x59aa8adc#32 = .ok (.amomin 21#7 42#7 77#7 true) ∧ decode 0x69aa8adc#32 = .ok (.amomax 21#7 42#7 77#7 true) ∧
    decode 0x79aa8adc#32 = .ok (.amominu 21#7 42#7 77#7 true) ∧ decode 0x89aa8adc#32 = .ok (.amomaxu 21#7 42#7 77#7 true) ∧
    decode 0x99aa8adc#32 = .ok (.amocas 21#7 42#7 77#7 true) ∧ decode 0x0260001d#32 = .ok (.fence 2#2 3#3) := by
  repeat' apply And.intro
  all_goals rfl

theorem test_decode_vcfg :
    decode 0x000a8aa0#32 = .ok (.setvl 21#7 42#7) ∧ decode 0x100a8aa0#32 = .ok (.setvty 21#7 42#7) ∧ decode 0x200a8aa0#32 = .ok (.settl 21#7 42#7) ∧
    decode 0x30000aa0#32 = .ok (.getg 21#7) := by
  repeat' apply And.intro
  all_goals rfl

theorem test_decode_integer_vectors :
    decode 0x09aa8ae1#32 = .ok (.vadd 21#7 42#7 77#7 true) ∧ decode 0x19aa8ae1#32 = .ok (.vsub 21#7 42#7 77#7 true) ∧
    decode 0x29aa8ae1#32 = .ok (.vrsub 21#7 42#7 77#7 true) ∧ decode 0x39aa8ae1#32 = .ok (.vmul 21#7 42#7 77#7 true) ∧
    decode 0x49aa8ae1#32 = .ok (.vmulh 21#7 42#7 77#7 true) ∧ decode 0x59aa8ae1#32 = .ok (.vmulhu 21#7 42#7 77#7 true) ∧
    decode 0x69aa8ae1#32 = .ok (.vmacc 21#7 42#7 77#7 true) ∧ decode 0x79aa8ae1#32 = .ok (.vnmsac 21#7 42#7 77#7 true) ∧
    decode 0x89aa8ae1#32 = .ok (.vdiv 21#7 42#7 77#7 true) ∧ decode 0x99aa8ae1#32 = .ok (.vdivu 21#7 42#7 77#7 true) ∧
    decode 0xa9aa8ae1#32 = .ok (.vrem 21#7 42#7 77#7 true) ∧ decode 0xb9aa8ae1#32 = .ok (.vremu 21#7 42#7 77#7 true) ∧
    decode 0xc9aa8ae1#32 = .ok (.vsadd 21#7 42#7 77#7 true) ∧ decode 0xd9aa8ae1#32 = .ok (.vssub 21#7 42#7 77#7 true) ∧
    decode 0xe9aa8ae1#32 = .ok (.vabsd 21#7 42#7 77#7 true) ∧ decode 0x09aa8ae2#32 = .ok (.vaddS 21#7 42#7 77#7 true) ∧
    decode 0x19aa8ae2#32 = .ok (.vsubS 21#7 42#7 77#7 true) ∧ decode 0x29aa8ae2#32 = .ok (.vrsubS 21#7 42#7 77#7 true) ∧
    decode 0x39aa8ae2#32 = .ok (.vmulS 21#7 42#7 77#7 true) ∧ decode 0x49aa8ae2#32 = .ok (.vmulhS 21#7 42#7 77#7 true) ∧
    decode 0x59aa8ae2#32 = .ok (.vmulhuS 21#7 42#7 77#7 true) ∧ decode 0x69aa8ae2#32 = .ok (.vmaccS 21#7 42#7 77#7 true) ∧
    decode 0x79aa8ae2#32 = .ok (.vnmsacS 21#7 42#7 77#7 true) ∧ decode 0x89aa8ae2#32 = .ok (.vdivS 21#7 42#7 77#7 true) ∧
    decode 0x99aa8ae2#32 = .ok (.vdivuS 21#7 42#7 77#7 true) ∧ decode 0xa9aa8ae2#32 = .ok (.vremS 21#7 42#7 77#7 true) ∧
    decode 0xb9aa8ae2#32 = .ok (.vremuS 21#7 42#7 77#7 true) ∧ decode 0xc9aa8ae2#32 = .ok (.vsaddS 21#7 42#7 77#7 true) ∧
    decode 0xd9aa8ae2#32 = .ok (.vssubS 21#7 42#7 77#7 true) ∧ decode 0xe9aa8ae2#32 = .ok (.vabsdS 21#7 42#7 77#7 true) := by
  repeat' apply And.intro
  all_goals rfl

theorem test_decode_bitwise_vectors :
    decode 0x09aa8ae3#32 = .ok (.vand 21#7 42#7 77#7 true) ∧ decode 0x19aa8ae3#32 = .ok (.vor 21#7 42#7 77#7 true) ∧
    decode 0x29aa8ae3#32 = .ok (.vxor 21#7 42#7 77#7 true) ∧ decode 0x39aa8ae3#32 = .ok (.vandn 21#7 42#7 77#7 true) ∧
    decode 0x49aa8ae3#32 = .ok (.vshl 21#7 42#7 77#7 true) ∧ decode 0x59aa8ae3#32 = .ok (.vshr 21#7 42#7 77#7 true) ∧
    decode 0x69aa8ae3#32 = .ok (.vsra 21#7 42#7 77#7 true) ∧ decode 0x79aa8ae3#32 = .ok (.vmin 21#7 42#7 77#7 true) ∧
    decode 0x89aa8ae3#32 = .ok (.vmax 21#7 42#7 77#7 true) ∧ decode 0x99aa8ae3#32 = .ok (.vminu 21#7 42#7 77#7 true) ∧
    decode 0xa9aa8ae3#32 = .ok (.vmaxu 21#7 42#7 77#7 true) ∧ decode 0xb9aa8aa3#32 = .ok (.vsel 21#7 42#7 77#7) ∧
    decode 0xc9a00ae3#32 = .ok (.vmov 21#7 77#7 true) ∧ decode 0x09aa8ae4#32 = .ok (.vandS 21#7 42#7 77#7 true) ∧
    decode 0x19aa8ae4#32 = .ok (.vorS 21#7 42#7 77#7 true) ∧ decode 0x29aa8ae4#32 = .ok (.vxorS 21#7 42#7 77#7 true) ∧
    decode 0x39aa8ae4#32 = .ok (.vandnS 21#7 42#7 77#7 true) ∧ decode 0x49aa8ae4#32 = .ok (.vshlS 21#7 42#7 77#7 true) ∧
    decode 0x59aa8ae4#32 = .ok (.vshrS 21#7 42#7 77#7 true) ∧ decode 0x69aa8ae4#32 = .ok (.vsraS 21#7 42#7 77#7 true) ∧
    decode 0x79aa8ae4#32 = .ok (.vminS 21#7 42#7 77#7 true) ∧ decode 0x89aa8ae4#32 = .ok (.vmaxS 21#7 42#7 77#7 true) ∧
    decode 0x99aa8ae4#32 = .ok (.vminuS 21#7 42#7 77#7 true) ∧ decode 0xa9aa8ae4#32 = .ok (.vmaxuS 21#7 42#7 77#7 true) ∧
    decode 0xb9aa8aa4#32 = .ok (.vselS 21#7 42#7 77#7) ∧ decode 0xc9a00ae4#32 = .ok (.vmovS 21#7 77#7 true) := by
  repeat' apply And.intro
  all_goals rfl

theorem test_decode_float_vectors :
    decode 0x09aa8ae5#32 = .ok (.vfadd 21#7 42#7 77#7 true) ∧ decode 0x19aa8ae5#32 = .ok (.vfsub 21#7 42#7 77#7 true) ∧
    decode 0x29aa8ae5#32 = .ok (.vfmul 21#7 42#7 77#7 true) ∧ decode 0x39aa8ae5#32 = .ok (.vfma 21#7 42#7 77#7 true) ∧
    decode 0x49aa8ae5#32 = .ok (.vfms 21#7 42#7 77#7 true) ∧ decode 0x59aa8ae5#32 = .ok (.vfnma 21#7 42#7 77#7 true) ∧
    decode 0x69aa8ae5#32 = .ok (.vfdiv 21#7 42#7 77#7 true) ∧ decode 0x79aa8ae5#32 = .ok (.vfmin 21#7 42#7 77#7 true) ∧
    decode 0x89aa8ae5#32 = .ok (.vfmax 21#7 42#7 77#7 true) ∧ decode 0x99aa8ae5#32 = .ok (.vfsgn 21#7 42#7 77#7 true) ∧
    decode 0x09aa8ae6#32 = .ok (.vfaddS 21#7 42#7 77#7 true) ∧ decode 0x19aa8ae6#32 = .ok (.vfsubS 21#7 42#7 77#7 true) ∧
    decode 0x29aa8ae6#32 = .ok (.vfmulS 21#7 42#7 77#7 true) ∧ decode 0x39aa8ae6#32 = .ok (.vfmaS 21#7 42#7 77#7 true) ∧
    decode 0x49aa8ae6#32 = .ok (.vfmsS 21#7 42#7 77#7 true) ∧ decode 0x59aa8ae6#32 = .ok (.vfnmaS 21#7 42#7 77#7 true) ∧
    decode 0x69aa8ae6#32 = .ok (.vfdivS 21#7 42#7 77#7 true) ∧ decode 0x79aa8ae6#32 = .ok (.vfminS 21#7 42#7 77#7 true) ∧
    decode 0x89aa8ae6#32 = .ok (.vfmaxS 21#7 42#7 77#7 true) ∧ decode 0x99aa8ae6#32 = .ok (.vfsgnS 21#7 42#7 77#7 true) := by
  repeat' apply And.intro
  all_goals rfl

theorem test_decode_unary_vectors :
    decode 0x000a8ae7#32 = .ok (.vfsqrt 21#7 42#7 true) ∧ decode 0x100a8ae7#32 = .ok (.vfrcp 21#7 42#7 true) ∧
    decode 0x200a8ae7#32 = .ok (.vfrsq 21#7 42#7 true) ∧ decode 0x300a8ae7#32 = .ok (.vfexp2 21#7 42#7 true) ∧
    decode 0x400a8ae7#32 = .ok (.vflog2 21#7 42#7 true) ∧ decode 0x500a8ae7#32 = .ok (.vfsin 21#7 42#7 true) ∧
    decode 0x600a8ae7#32 = .ok (.vfcos 21#7 42#7 true) ∧ decode 0x700a8ae7#32 = .ok (.vftanh 21#7 42#7 true) ∧
    decode 0x800a8ae7#32 = .ok (.vfsigm 21#7 42#7 true) ∧ decode 0x900a8ae7#32 = .ok (.vfabs 21#7 42#7 true) ∧
    decode 0xa00a8ae7#32 = .ok (.vfneg 21#7 42#7 true) ∧ decode 0xb00a8ae7#32 = .ok (.vfclass 21#7 42#7 true) ∧
    decode 0xc00a8ae7#32 = .ok (.vfrnd 21#7 42#7 true) := by
  repeat' apply And.intro
  all_goals rfl

theorem test_decode_compares :
    decode 0x002081e8#32 = .ok (.vcmpEq 3#7 2#7 1#7 true) ∧ decode 0x102081e8#32 = .ok (.vcmpNe 3#7 2#7 1#7 true) ∧
    decode 0x202081e8#32 = .ok (.vcmpLt 3#7 2#7 1#7 true) ∧ decode 0x302081e8#32 = .ok (.vcmpGe 3#7 2#7 1#7 true) ∧
    decode 0x402081e8#32 = .ok (.vcmpLtu 3#7 2#7 1#7 true) ∧ decode 0x502081e8#32 = .ok (.vcmpGeu 3#7 2#7 1#7 true) ∧
    decode 0x002081e9#32 = .ok (.vcmpEqS 3#7 2#7 1#7 true) ∧ decode 0x102081e9#32 = .ok (.vcmpNeS 3#7 2#7 1#7 true) ∧
    decode 0x202081e9#32 = .ok (.vcmpLtS 3#7 2#7 1#7 true) ∧ decode 0x302081e9#32 = .ok (.vcmpGeS 3#7 2#7 1#7 true) ∧
    decode 0x402081e9#32 = .ok (.vcmpLtuS 3#7 2#7 1#7 true) ∧ decode 0x502081e9#32 = .ok (.vcmpGeuS 3#7 2#7 1#7 true) ∧
    decode 0x002081ea#32 = .ok (.vfcmpEq 3#7 2#7 1#7 true) ∧ decode 0x102081ea#32 = .ok (.vfcmpNe 3#7 2#7 1#7 true) ∧
    decode 0x202081ea#32 = .ok (.vfcmpLt 3#7 2#7 1#7 true) ∧ decode 0x302081ea#32 = .ok (.vfcmpLe 3#7 2#7 1#7 true) ∧
    decode 0x402081ea#32 = .ok (.vfcmpUn 3#7 2#7 1#7 true) ∧ decode 0x502081ea#32 = .ok (.vfcmpOr 3#7 2#7 1#7 true) := by
  repeat' apply And.intro
  all_goals rfl

theorem test_decode_conversions :
    decode 0x01aa8aeb#32 = .ok (.vcvt 21#7 42#7 13#5 true) ∧ decode 0x11aa8aeb#32 = .ok (.vcvtk 21#7 42#7 13#5 true) ∧
    decode 0x200a8aeb#32 = .ok (.vwid 21#7 42#7 true) ∧ decode 0x300a8aeb#32 = .ok (.vnar 21#7 42#7 true) := by
  repeat' apply And.intro
  all_goals rfl

theorem test_decode_permutes :
    decode 0x09aa8aec#32 = .ok (.vxchS 21#7 42#7 77#7 true) ∧ decode 0x102081ec#32 = .ok (.vxch 3#7 2#7 1#7 true) ∧
    decode 0x29aa8aec#32 = .ok (.vslup 21#7 42#7 77#7 true) ∧ decode 0x39aa8aec#32 = .ok (.vsldn 21#7 42#7 77#7 true) ∧
    decode 0x49aa8aec#32 = .ok (.vperm 21#7 42#7 77#7 true) ∧ decode 0x59aa8aec#32 = .ok (.vbcast 21#7 42#7 77#7 true) ∧
    decode 0x69aa8aac#32 = .ok (.vextr 21#7 42#7 77#7) ∧ decode 0x79aa8aec#32 = .ok (.vins 21#7 42#7 77#7 true) ∧
    decode 0x800a8aec#32 = .ok (.vcomp 21#7 42#7 true) ∧ decode 0x900a8aec#32 = .ok (.vexpd 21#7 42#7 true) ∧
    decode 0xa0000aec#32 = .ok (.viota 21#7 true) ∧ decode 0xb00a8aec#32 = .ok (.vrev 21#7 42#7 true) := by
  repeat' apply And.intro
  all_goals rfl

theorem test_decode_reductions :
    decode 0x09aa8aed#32 = .ok (.vrsum 21#7 42#7 77#7 true) ∧ decode 0x19aa8aed#32 = .ok (.vrmin 21#7 42#7 77#7 true) ∧
    decode 0x29aa8aed#32 = .ok (.vrmax 21#7 42#7 77#7 true) ∧ decode 0x39aa8aed#32 = .ok (.vrminu 21#7 42#7 77#7 true) ∧
    decode 0x49aa8aed#32 = .ok (.vrmaxu 21#7 42#7 77#7 true) ∧ decode 0x59aa8aed#32 = .ok (.vrand 21#7 42#7 77#7 true) ∧
    decode 0x69aa8aed#32 = .ok (.vror 21#7 42#7 77#7 true) ∧ decode 0x79aa8aed#32 = .ok (.vrxor 21#7 42#7 77#7 true) ∧
    decode 0x89aa8aed#32 = .ok (.vrfsum 21#7 42#7 77#7 true) ∧ decode 0x99aa8aed#32 = .ok (.vrfmin 21#7 42#7 77#7 true) ∧
    decode 0xa9aa8aed#32 = .ok (.vrfmax 21#7 42#7 77#7 true) ∧ decode 0xb9aa8aed#32 = .ok (.vscanAdd 21#7 42#7 77#7 true) ∧
    decode 0xc9aa8aed#32 = .ok (.vfscanAdd 21#7 42#7 77#7 true) ∧ decode 0xd9aa8aed#32 = .ok (.vscanlin 21#7 42#7 77#7 true) := by
  repeat' apply And.intro
  all_goals rfl

theorem test_decode_predicates :
    decode 0x002081ae#32 = .ok (.pand 3#7 2#7 1#7) ∧ decode 0x102081ae#32 = .ok (.por 3#7 2#7 1#7) ∧ decode 0x202081ae#32 = .ok (.pxor 3#7 2#7 1#7) ∧
    decode 0x302081ae#32 = .ok (.pandn 3#7 2#7 1#7) ∧ decode 0x400081ae#32 = .ok (.pnot 3#7 2#7) ∧ decode 0x500001ae#32 = .ok (.pset 3#7) ∧
    decode 0x600001ae#32 = .ok (.pclr 3#7) ∧ decode 0x700081ae#32 = .ok (.pcnt 3#7 2#7) ∧ decode 0x800081ae#32 = .ok (.pfirst 3#7 2#7) ∧
    decode 0x900081ae#32 = .ok (.pmov 3#7 2#7) ∧ decode 0xa00081ae#32 = .ok (.pfromv 3#7 2#7) ∧ decode 0xb00081ae#32 = .ok (.ptov 3#7 2#7) := by
  repeat' apply And.intro
  all_goals rfl

theorem test_decode_vector_immediates :
    decode 0x14aa8aef#32 = .ok (.vaddi 21#7 42#7 165#8 true) ∧ decode 0x34aa8aef#32 = .ok (.vmuli 21#7 42#7 165#8 true) ∧
    decode 0x54aa8aef#32 = .ok (.vshli 21#7 42#7 165#8 true) ∧ decode 0x74aa8aef#32 = .ok (.vshri 21#7 42#7 165#8 true) ∧
    decode 0x94aa8aef#32 = .ok (.vsrai 21#7 42#7 165#8 true) ∧ decode 0xb4aa8aef#32 = .ok (.vandi 21#7 42#7 165#8 true) ∧
    decode 0xd4aa8aef#32 = .ok (.vori 21#7 42#7 165#8 true) ∧ decode 0xf4a00aef#32 = .ok (.vli 21#7 165#8 true) := by
  repeat' apply And.intro
  all_goals rfl

theorem test_decode_vector_memory :
    decode 0x000a8af0#32 = .ok (.vld 21#7 42#7 true) ∧ decode 0x100a8af0#32 = .ok (.vldFf 21#7 42#7 true) ∧
    decode 0x29aa8af0#32 = .ok (.vlds 21#7 42#7 77#7 true) ∧ decode 0x39aa8af0#32 = .ok (.vldsFf 21#7 42#7 77#7 true) ∧
    decode 0x402081f0#32 = .ok (.vldg 3#7 2#7 1#7 true) ∧ decode 0x59aa8af0#32 = .ok (.vldx 21#7 42#7 77#7 true) ∧
    decode 0x69aa8af0#32 = .ok (.vldxFf 21#7 42#7 77#7 true) ∧ decode 0x702081f0#32 = .ok (.vldb 3#7 2#7 1#7 true) ∧
    decode 0x802081f0#32 = .ok (.vldbFf 3#7 2#7 1#7 true) ∧ decode 0x99aa8030#32 = .ok (.vpfd 42#7 77#7) ∧
    decode 0x000a8af1#32 = .ok (.vst 21#7 42#7 true) ∧ decode 0x19aa8af1#32 = .ok (.vsts 21#7 42#7 77#7 true) ∧
    decode 0x202081f1#32 = .ok (.vstg 3#7 2#7 1#7 true) ∧ decode 0x39aa8af1#32 = .ok (.vstx 21#7 42#7 77#7 true) ∧
    decode 0x41aa8af1#32 = .ok (.vstb 21#7 42#7 13#5 true) ∧ decode 0x09aa8af2#32 = .ok (.vamoadd 21#7 42#7 77#7 true) ∧
    decode 0x19aa8af2#32 = .ok (.vamomin 21#7 42#7 77#7 true) ∧ decode 0x29aa8af2#32 = .ok (.vamomax 21#7 42#7 77#7 true) ∧
    decode 0x39aa8af2#32 = .ok (.vamoswp 21#7 42#7 77#7 true) ∧ decode 0x49aa8af2#32 = .ok (.vamofadd 21#7 42#7 77#7 true) := by
  repeat' apply And.intro
  all_goals rfl

theorem test_decode_tiles :
    decode 0x09aa8ab3#32 = .ok (.talloc 21#7 42#7 77#7) ∧ decode 0x19aa8ab3#32 = .ok (.tallocZ 21#7 42#7 77#7) ∧
    decode 0x200a8033#32 = .ok (.tfree 42#7) ∧ decode 0x39aa8ab3#32 = .ok (.tstat 21#7 42#7 77#7) ∧
    decode 0x402081b3#32 = .ok (.tstatMask 3#7 2#7 1#7) ∧ decode 0x59aa8af3#32 = .ok (.tldR 21#7 42#7 77#7 true) ∧
    decode 0x69aa8af3#32 = .ok (.tldC 21#7 42#7 77#7 true) ∧ decode 0x79aa8af3#32 = .ok (.tstR 21#7 42#7 77#7 true) ∧
    decode 0x89aa8af3#32 = .ok (.tstC 21#7 42#7 77#7 true) := by
  repeat' apply And.intro
  all_goals rfl

theorem test_decode_copies :
    decode 0x09aa8ab4#32 = .ok (.cpyin 21#7 42#7 77#7) ∧ decode 0x19aa8ab4#32 = .ok (.cpyg 21#7 42#7 77#7) ∧
    decode 0x29aa8ab4#32 = .ok (.cpymc 21#7 42#7 77#7) ∧ decode 0x39aa8ab4#32 = .ok (.cpyout 21#7 42#7 77#7) ∧
    decode 0x400a8034#32 = .ok (.cwait 42#7) := by
  repeat' apply And.intro
  all_goals rfl

theorem test_decode_streams :
    decode 0x09aa8ab5#32 = .ok (.sbind 21#7 42#7 77#7) ∧ decode 0x10000ab5#32 = .ok (.sunbind 21#7) ∧ decode 0x200a8ab5#32 = .ok (.sstat 21#7 42#7) ∧
    decode 0x300081b5#32 = .ok (.sstatMask 3#7 2#7) := by
  repeat' apply And.intro
  all_goals rfl

theorem test_decode_scales :
    decode 0x002081b6#32 = .ok (.kld 3#7 2#7 1#7) ∧ decode 0x102081b6#32 = .ok (.kst 3#7 2#7 1#7) ∧ decode 0x200081b6#32 = .ok (.kmov 3#7 2#7) ∧
    decode 0x300081b6#32 = .ok (.kset 3#7 2#7) := by
  repeat' apply And.intro
  all_goals rfl

theorem test_decode_matrices :
    decode 0x09aa8ab7#32 = .ok (.tshape 21#7 42#7 77#7) ∧ decode 0x100001b7#32 = .ok (.mzero 3#7) ∧
    decode 0x29aa8ab7#32 = .ok (.mldop 21#7 42#7 77#7) ∧ decode 0x39aa8ab7#32 = .ok (.mldopFf 21#7 42#7 77#7) ∧
    decode 0x59aa8337#32 = .ok (.mxoa 42#7 77#7 1#2 6#5) ∧ decode 0x99aa8337#32 = .ok (.mxos 42#7 77#7 1#2 6#5) ∧
    decode 0xc02081b7#32 = .ok (.mlda 3#7 2#7 1#7) ∧ decode 0xd02081b7#32 = .ok (.msta 3#7 2#7 1#7) ∧ decode 0xe00081b7#32 = .ok (.mrd 3#7 2#7) ∧
    decode 0xf00081b7#32 = .ok (.mwr 3#7 2#7) := by
  repeat' apply And.intro
  all_goals rfl

theorem test_decode_small_matrices :
    decode 0x09aa8af8#32 = .ok (.smmul 21#7 42#7 77#7 true) ∧ decode 0x19aa8af8#32 = .ok (.smmult 21#7 42#7 77#7 true) ∧
    decode 0x200a8af8#32 = .ok (.smchol 21#7 42#7 true) ∧ decode 0x39aa8af8#32 = .ok (.smlup 21#7 42#7 77#7 true) ∧
    decode 0x400a8af8#32 = .ok (.smsolc 21#7 42#7 true) ∧ decode 0x59aa8af8#32 = .ok (.smsolp 21#7 42#7 77#7 true) ∧
    decode 0x600a8af8#32 = .ok (.smtran 21#7 42#7 true) := by
  repeat' apply And.intro
  all_goals rfl

theorem test_decode_chains :
    decode 0x000a8039#32 = .ok (.chcfg 42#7) ∧ decode 0x10000039#32 = .ok .chend ∧ decode 0x29aa8039#32 = .ok (.chrun 42#7 77#7) ∧
    decode 0x30000039#32 = .ok .chwait ∧ decode 0x400a8ab9#32 = .ok (.chstat 21#7 42#7) ∧ decode 0x500a8039#32 = .ok (.chsave 42#7) ∧
    decode 0x600a8039#32 = .ok (.chload 42#7) ∧ decode 0x70000039#32 = .ok .chdrop ∧ decode 0x89aa8af9#32 = .ok (.turn 21#7 42#7 77#7 true) ∧
    decode 0x900a8039#32 = .ok (.link 42#7) := by
  repeat' apply And.intro
  all_goals rfl

theorem test_decode_queues :
    decode 0x000081ba#32 = .ok (.qpush 3#7 2#7) ∧ decode 0x100081ba#32 = .ok (.qpop 3#7 2#7) ∧ decode 0x200081ba#32 = .ok (.qspace 3#7 2#7) ∧
    decode 0x300081ba#32 = .ok (.qcnt 3#7 2#7) ∧ decode 0x400001ba#32 = .ok (.qclr 3#7) := by
  repeat' apply And.intro
  all_goals rfl

theorem test_decode_bookings :
    decode 0x000a8abb#32 = .ok (.book 21#7 42#7) ∧ decode 0x100a8abb#32 = .ok (.bkqry 21#7 42#7) ∧ decode 0x2000003b#32 = .ok .bkrel ∧
    decode 0x3000003b#32 = .ok .bkwait := by
  repeat' apply And.intro
  all_goals rfl

theorem test_decode_sequencer :
    decode 0x000a803c#32 = .ok (.srscfg 42#7) ∧ decode 0x1000003c#32 = .ok .srsstep ∧ decode 0x200a8abc#32 = .ok (.srsmap 21#7 42#7) ∧
    decode 0x3000003c#32 = .ok .srsclr ∧ decode 0x400a803c#32 = .ok (.srssig 42#7) := by
  repeat' apply And.intro
  all_goals rfl

theorem test_decode_tasks :
    decode 0x000a803d#32 = .ok (.barw 42#7) ∧ decode 0x19aa803d#32 = .ok (.signal 42#7 77#7) ∧ decode 0x29aa803d#32 = .ok (.waitv 42#7 77#7) ∧
    decode 0x89aa8abd#32 = .ok (.qcmd 21#7 42#7 77#7) ∧ decode 0x9000003d#32 = .ok .tdone ∧ decode 0xa00a803d#32 = .ok (.dsig 42#7) := by
  repeat' apply And.intro
  all_goals rfl

end Sys2Proof.Tests
end

section
/-! The scalar integer instructions, division, jumps and branches (R124 to R133). First what each word function of the model computes, as an
exact value of its operands; then the statements, each clause by how its instruction ends (`gives_of`, `jumps_of`, `trapsWith_of`). -/
namespace Sys2Proof.Machine

/-! ### Sums, differences and products -/

theorem word_sub_eq_ofInt (x y : Word) : x - y = .ofInt 64 (x.toInt - y.toInt) :=
  BitVec.eq_of_toInt_eq (BitVec.toInt_sub.trans (BitVec.toInt_ofInt _).symm)

theorem word_mul_eq_ofInt (x y : Word) : x * y = .ofInt 64 (x.toInt * y.toInt) := by
  rw [BitVec.ofInt_mul, BitVec.ofInt_toInt, BitVec.ofInt_toInt]

theorem word_add_sext64 {n : Nat} (x : Word) (i : BitVec n) : x + sext64 i = .ofInt 64 (x.toInt + i.toInt) := by
  rw [BitVec.ofInt_add, BitVec.ofInt_toInt]; rfl

/-- The high word of a product is the high half of the product taken at 128 bits, whatever signs its factors have. -/
theorem highOf_eq_extract (z : Int) : highOf z = (BitVec.ofInt 128 z).extractLsb' 64 64 := by
  apply BitVec.eq_of_toNat_eq
  simp only [highOf, pow2, BitVec.extractLsb'_toNat, BitVec.toNat_ofInt, Nat.shiftRight_eq_div_pow]
  omega

theorem setWidth128_eq_ofInt (x : Word) : x.setWidth 128 = .ofInt 128 (x.toNat : Int) := by
  rw [BitVec.ofInt_natCast, BitVec.ofNat_toNat]

theorem highOf_signed (x y : Word) : highOf (x.toInt * y.toInt) = (x.signExtend 128 * y.signExtend 128).extractLsb' 64 64 := by
  rw [highOf_eq_extract, BitVec.ofInt_mul]; rfl

theorem highOf_unsigned (x y : Word) :
    highOf ((x.toNat : Int) * (y.toNat : Int)) = (x.setWidth 128 * y.setWidth 128).extractLsb' 64 64 := by
  rw [highOf_eq_extract, BitVec.ofInt_mul, setWidth128_eq_ofInt, setWidth128_eq_ofInt]

theorem highOf_mixed (x y : Word) : highOf (x.toInt * (y.toNat : Int)) = (x.signExtend 128 * y.setWidth 128).extractLsb' 64 64 := by
  rw [highOf_eq_extract, BitVec.ofInt_mul, setWidth128_eq_ofInt]; rfl

/-! ### Shifts and rotation -/

theorem shAmount_eq_mod (y : Word) : shAmount y = y.toNat % 64 := by
  simp only [shAmount, BitVec.extractLsb'_toNat, Nat.shiftRight_zero, Nat.reducePow]

theorem word_shiftLeft_eq_ofNat (x : Word) (n : Nat) : x <<< n = .ofNat 64 (x.toNat * 2 ^ n) := by
  apply BitVec.eq_of_toNat_eq
  rw [BitVec.toNat_shiftLeft, Nat.shiftLeft_eq, BitVec.toNat_ofNat]

theorem word_ushiftRight_eq_ofNat (x : Word) (n : Nat) : x >>> n = .ofNat 64 (x.toNat / 2 ^ n) := by
  rw [← Nat.shiftRight_eq_div_pow, ← BitVec.toNat_ushiftRight, BitVec.ofNat_toNat, BitVec.setWidth_eq]

theorem word_sshiftRight_eq_ofInt (x : Word) (n : Nat) : x.sshiftRight n = .ofInt 64 (x.toInt / 2 ^ n) := by
  rw [BitVec.sshiftRight, Int.shiftRight_eq_div_pow]; rfl

/-- A shifted word and one that fills only the bits shifted in share no bit, so joining them adds them up. -/
theorem word_shiftLeft_or_eq_ofNat (x low : Word) (n : Nat) (h : ∀ i, n ≤ i → low.getLsbD i = false) :
    x <<< n ||| low = .ofNat 64 (x.toNat * 2 ^ n + low.toNat) := by
  have disjoint : x <<< n &&& low = 0#64 := by
    apply BitVec.eq_of_getLsbD_eq; intro i hi
    rw [BitVec.getLsbD_and, BitVec.getLsbD_shiftLeft, BitVec.getLsbD_zero]
    by_cases shiftedIn : i < n
    · simp only [shiftedIn, decide_true, Bool.not_true, Bool.and_false, Bool.false_and]
    · rw [h i (Nat.not_lt.mp shiftedIn), Bool.and_false]
  rw [← BitVec.add_eq_or_of_and_eq_zero _ _ disjoint, BitVec.ofNat_add, word_shiftLeft_eq_ofNat, BitVec.ofNat_toNat, BitVec.setWidth_eq]

theorem word_rotateRight_eq_ofNat (x : Word) (k : Nat) (h : k < 64) :
    x.rotateRight k = .ofNat 64 (x.toNat / 2 ^ k + x.toNat * 2 ^ (64 - k)) := by
  have clear : ∀ i, 64 - k ≤ i → (x >>> k).getLsbD i = false := fun i hi => by
    rw [BitVec.getLsbD_ushiftRight, BitVec.getLsbD_of_ge _ _ (by omega)]
  rw [BitVec.rotateRight_def, Nat.mod_eq_of_lt h, BitVec.or_comm, word_shiftLeft_or_eq_ofNat _ _ _ clear, BitVec.toNat_ushiftRight,
    Nat.shiftRight_eq_div_pow, Nat.add_comm]

theorem word_lih_eq_ofNat (x : Word) (j : BitVec 18) : x <<< 18 ||| j.setWidth 64 = .ofNat 64 (x.toNat * 2 ^ 18 + j.toNat) := by
  have clear : ∀ i, 18 ≤ i → (j.setWidth 64).getLsbD i = false := fun i hi => by
    rw [BitVec.getLsbD_setWidth, BitVec.getLsbD_of_ge _ _ hi, Bool.and_false]
  rw [word_shiftLeft_or_eq_ofNat _ _ _ clear, BitVec.toNat_setWidth_of_le (by decide)]

/-! ### Comparisons -/

theorem flagWord_slt (x y : Word) : flagWord (x.slt y) = if x.toInt < y.toInt then 1 else 0 := by
  simp only [flagWord, BitVec.slt_iff_toInt_lt]

theorem flagWord_ult (x y : Word) : flagWord (x.ult y) = if x.toNat < y.toNat then 1 else 0 := by
  simp only [flagWord, BitVec.ult_iff_lt, BitVec.lt_def]

theorem not_slt_iff_toInt_ge (x y : Word) : (!x.slt y) = true ↔ x.toInt ≥ y.toInt := by
  rw [Bool.not_eq_true', ← Bool.not_eq_true, BitVec.slt_iff_toInt_lt, Int.not_lt]

theorem not_ult_iff_toNat_ge (x y : Word) : (!x.ult y) = true ↔ x.toNat ≥ y.toNat := by
  rw [Bool.not_eq_true', ← Bool.not_eq_true, BitVec.ult_iff_lt, BitVec.lt_def, Nat.not_lt]

theorem toInt_sext64 {n : Nat} (i : BitVec n) (h : n ≤ 64) : (sext64 i).toInt = i.toInt := BitVec.toInt_signExtend_of_le h

theorem word_smin_eq_ofInt (x y : Word) : (if x.slt y then x else y) = .ofInt 64 (Min.min x.toInt y.toInt) := by
  simp only [BitVec.slt_iff_toInt_lt]
  split
  case isTrue h => rw [Int.min_eq_left (Int.le_of_lt h), BitVec.ofInt_toInt]
  case isFalse h => rw [Int.min_eq_right (Int.not_lt.mp h), BitVec.ofInt_toInt]

theorem word_smax_eq_ofInt (x y : Word) : (if y.slt x then x else y) = .ofInt 64 (Max.max x.toInt y.toInt) := by
  simp only [BitVec.slt_iff_toInt_lt]
  split
  case isTrue h => rw [Int.max_eq_left (Int.le_of_lt h), BitVec.ofInt_toInt]
  case isFalse h => rw [Int.max_eq_right (Int.not_lt.mp h), BitVec.ofInt_toInt]

theorem word_umin_eq_ofNat (x y : Word) : (if x.ult y then x else y) = .ofNat 64 (Min.min x.toNat y.toNat) := by
  simp only [BitVec.ult_iff_lt, BitVec.lt_def]
  split
  case isTrue h => rw [Nat.min_eq_left (Nat.le_of_lt h), BitVec.ofNat_toNat, BitVec.setWidth_eq]
  case isFalse h => rw [Nat.min_eq_right (Nat.not_lt.mp h), BitVec.ofNat_toNat, BitVec.setWidth_eq]

theorem word_umax_eq_ofNat (x y : Word) : (if y.ult x then x else y) = .ofNat 64 (Max.max x.toNat y.toNat) := by
  simp only [BitVec.ult_iff_lt, BitVec.lt_def]
  split
  case isTrue h => rw [Nat.max_eq_left (Nat.le_of_lt h), BitVec.ofNat_toNat, BitVec.setWidth_eq]
  case isFalse h => rw [Nat.max_eq_right (Nat.not_lt.mp h), BitVec.ofNat_toNat, BitVec.setWidth_eq]

/-! ### Bits of one word -/

/-- Below n, a bit shifted up to the top of the word and down again is back at its place. -/
theorem getLsbD_shiftLeft_back (w : Word) (n i : Nat) (h : n ≤ 64) (low : i < n) :
    (w <<< (64 - n)).getLsbD (64 - n + i) = w.getLsbD i := by
  have inside : 64 - n + i < 64 := by omega
  have notShiftedIn : ¬ 64 - n + i < 64 - n := by omega
  simp only [BitVec.getLsbD_shiftLeft, inside, notShiftedIn, Nat.add_sub_cancel_left, decide_true, decide_false, Bool.not_false,
    Bool.true_and]

theorem zextN_eq_setWidth (w : Word) (n : Nat) (h : n ≤ 64) : zextN w n = (w.setWidth n).setWidth 64 := by
  apply BitVec.eq_of_getLsbD_eq; intro i hi
  rw [zextN, BitVec.getLsbD_ushiftRight, BitVec.getLsbD_setWidth, BitVec.getLsbD_setWidth]
  by_cases low : i < n
  · rw [getLsbD_shiftLeft_back w n i h low]
    simp only [hi, low, decide_true, Bool.true_and]
  · rw [BitVec.getLsbD_of_ge _ _ (show 64 ≤ 64 - n + i by omega)]
    simp only [low, decide_false, Bool.false_and, Bool.and_false]

/-- Bit i of both is bit i of w below n, and from there on bit n − 1, the sign. -/
theorem sextN_eq_signExtend (w : Word) (n : Nat) (pos : 0 < n) (h : n ≤ 64) : sextN w n = (w.setWidth n).signExtend 64 := by
  have sign : (w <<< (64 - n)).msb = (w.setWidth n).msb := by
    have top : 64 - n + (n - 1) = 64 - 1 := by omega
    have last : n - 1 < n := by omega
    rw [BitVec.msb_eq_getLsbD_last, BitVec.msb_eq_getLsbD_last, ← top, getLsbD_shiftLeft_back w n _ h last, BitVec.getLsbD_setWidth,
      decide_eq_true last, Bool.true_and]
  apply BitVec.eq_of_getLsbD_eq; intro i hi
  have inWord : ¬ 64 ≤ i := Nat.not_le.mpr hi
  rw [sextN, BitVec.getLsbD_sshiftRight, BitVec.getLsbD_signExtend, decide_eq_false inWord, decide_eq_true hi, Bool.not_false]
  by_cases low : i < n
  · rw [if_pos (by omega), if_pos low, getLsbD_shiftLeft_back w n i h low, BitVec.getLsbD_setWidth, decide_eq_true low, Bool.true_and,
      Bool.true_and]
  · rw [if_neg (by omega), if_neg low, sign]

/-- The first bit that a search over a word's 64 bits finds, in the order `at_` looks at them; 64 where every bit is clear. -/
theorem findBit_spec (w : Word) (at_ : Nat → Nat) (n : Nat)
    (hn : n = ((List.range 64).find? (fun i => w.getLsbD (at_ i))).getD 64) :
    n ≤ 64 ∧ (∀ i < n, w.getLsbD (at_ i) = false) ∧ (n < 64 → w.getLsbD (at_ n) = true) := by
  subst hn
  cases found : (List.range 64).find? (fun i => w.getLsbD (at_ i)) with
  | none =>
    have clear := List.find?_range_eq_none.mp found
    exact ⟨Nat.le_refl _, fun i hi => by simpa only [Bool.not_eq_true'] using clear i hi, fun h => absurd h (Nat.lt_irrefl _)⟩
  | some n =>
    obtain ⟨set, inRange, clear⟩ := List.find?_range_eq_some.mp found
    exact ⟨Nat.le_of_lt (List.mem_range.mp inRange), fun i hi => by simpa only [Bool.not_eq_true'] using clear i hi, fun _ => set⟩

theorem popcount_eq_countP (w : Word) : popcount 64 w.toNat = (List.range 64).countP (fun i => w.getLsbD i) :=
  List.countP_eq_length_filter.symm

/-- Byte i of the eight joined bytes is the byte of the i-th piece from the right. -/
theorem bswap_extract (x : Word) (i : Nat) (h : i < 8) : (bswap x).extractLsb' (8 * i) 8 = x.extractLsb' (8 * (7 - i)) 8 := by
  unfold bswap
  have place : i = 0 ∨ i = 1 ∨ i = 2 ∨ i = 3 ∨ i = 4 ∨ i = 5 ∨ i = 6 ∨ i = 7 := by omega
  rcases place with rfl | rfl | rfl | rfl | rfl | rfl | rfl | rfl <;>
    simp (disch := omega) only [extract_append_high, extract_append_low, BitVec.extractLsb'_eq_self, Nat.reduceMul, Nat.reduceSub]

/-! ### Integer instructions (R124, R126 to R129) -/

/-- The target of a word offset, as an exact multiple of 4 (R98). -/
theorem Drover.target_eq {n : Nat} (d : Drover) (i : BitVec n) : d.target i = d.iaddr + .ofInt 64 (4 * i.toInt) := by
  rw [BitVec.ofInt_mul]; rfl

/-- Settles O1: each instruction completes with its word function of the operands, and that function has the exact value of the table. -/
theorem integerInstructionsGiveTheirResults : Obligations.IntegerInstructionsGiveTheirResults := by
  unfold Obligations.IntegerInstructionsGiveTheirResults
  refine ⟨fun s a b c => ?registers, fun s a b => ?unary, fun s a b i n j => ?immediates⟩
  case registers =>
    have amount : shAmount (s.cur.getG c) = (s.cur.getG c).toNat % 64 := shAmount_eq_mod _
    have below : (s.cur.getG c).toNat % 64 < 64 := Nat.mod_lt _ (by decide)
    exact
      ⟨gives_of rfl (BitVec.add_def _ _),
       gives_of rfl (word_sub_eq_ofInt _ _),
       gives_of rfl (word_mul_eq_ofInt _ _),
       gives_of rfl (highOf_signed _ _),
       gives_of rfl (highOf_unsigned _ _),
       gives_of rfl (highOf_mixed _ _),
       gives_of rfl rfl,
       gives_of rfl rfl,
       gives_of rfl rfl,
       gives_of rfl rfl,
       gives_of rfl rfl,
       gives_of rfl (amount ▸ word_shiftLeft_eq_ofNat _ _),
       gives_of rfl (amount ▸ word_ushiftRight_eq_ofNat _ _),
       gives_of rfl (amount ▸ word_sshiftRight_eq_ofInt _ _),
       gives_of rfl (amount ▸ word_rotateRight_eq_ofNat _ _ below),
       gives_of rfl (flagWord_slt _ _),
       gives_of rfl (flagWord_ult _ _),
       gives_of rfl (word_smin_eq_ofInt _ _),
       gives_of rfl (word_smax_eq_ofInt _ _),
       gives_of rfl (word_umin_eq_ofNat _ _),
       gives_of rfl (word_umax_eq_ofNat _ _),
       gives_of rfl (amount ▸ sextN_eq_signExtend _ _ (Nat.succ_pos _) below),
       gives_of rfl (amount ▸ zextN_eq_setWidth _ _ below),
       gives_of rfl rfl⟩
  case unary =>
    obtain ⟨clzLe, clzClear, clzSet⟩ := findBit_spec (s.cur.getG b) (fun i => 63 - i) (clz64 (s.cur.getG b)) rfl
    obtain ⟨ctzLe, ctzClear, ctzSet⟩ := findBit_spec (s.cur.getG b) (fun i => i) (ctz64 (s.cur.getG b)) rfl
    exact
      ⟨⟨_, clzLe, gives_of rfl rfl, clzClear, clzSet⟩,
       ⟨_, ctzLe, gives_of rfl rfl, ctzClear, ctzSet⟩,
       gives_of rfl (congrArg (BitVec.ofNat 64) (popcount_eq_countP _)),
       _, gives_of rfl rfl, bswap_extract _⟩
  case immediates =>
    have amount : (n.setWidth 64).toNat = n.toNat := BitVec.toNat_setWidth_of_le (by decide)
    have signed : (sext64 i).toInt = i.toInt := toInt_sext64 i (by decide)
    exact
      ⟨gives_of rfl (word_add_sext64 _ _),
       gives_of rfl rfl,
       gives_of rfl rfl,
       gives_of rfl rfl,
       gives_of rfl (signed ▸ flagWord_slt _ _),
       gives_of rfl (flagWord_ult _ _),
       gives_of rfl (amount ▸ word_shiftLeft_eq_ofNat _ _),
       gives_of rfl (amount ▸ word_ushiftRight_eq_ofNat _ _),
       gives_of rfl (amount ▸ word_sshiftRight_eq_ofInt _ _),
       gives_of rfl rfl,
       gives_of rfl (word_lih_eq_ofNat _ _),
       gives_of rfl (Drover.target_eq _ _)⟩

/-! ### Division (R125) -/

/-- DIV at its one overflow: 2^63 wraps to −2^63. -/
theorem divS_overflow {x y : Word} (hx : x = .ofInt 64 (-2 ^ 63)) (hy : y = .ofInt 64 (-1)) : divS x y = .ofInt 64 (-2 ^ 63) := by
  subst hx hy; decide

theorem remS_overflow {x y : Word} (hx : x = .ofInt 64 (-2 ^ 63)) (hy : y = .ofInt 64 (-1)) : remS x y = 0 := by
  subst hx hy; decide

/-- Settles O2: the four instructions complete for every divisor, with the value of their branch of R125. -/
theorem divisionNeverTraps : Obligations.DivisionNeverTraps := by
  unfold Obligations.DivisionNeverTraps
  refine fun s a b c => ⟨fun zero => ?zero, fun nonzero => ?nonzero, fun top minusOne => ?overflow⟩
  case zero => exact ⟨gives_of rfl (if_pos zero), gives_of rfl (if_pos zero), gives_of rfl (if_pos zero), gives_of rfl (if_pos zero)⟩
  case nonzero =>
    exact ⟨gives_of rfl (if_neg nonzero), gives_of rfl (if_neg nonzero), gives_of rfl (if_neg nonzero), gives_of rfl (if_neg nonzero)⟩
  case overflow => exact ⟨gives_of rfl (divS_overflow top minusOne), gives_of rfl (remS_overflow top minusOne)⟩

/-! ### Jumps and branches (R130 to R132) -/

/-- Completion with no register written (R132, a branch that is not taken). -/
theorem jumps_of_complete {i : Instr} {s : State} (h : exec i s = s.complete s.cur) : Jumps i s s.cur.getG s.cur.nextPc :=
  ⟨_, h, s.completes_complete s.cur rfl rfl rfl⟩

/-- A jump that writes the address of the next word to ga (R130, R131). -/
theorem jumps_of_link {i : Instr} {s : State} {a : Reg} {link p q : Word} (h : exec i s = s.finish ((s.cur.setG a link).retireTo q))
    (hq : q = p) : Jumps i s (s.regsWith a link) p :=
  jumps_of h (Drover.setG_reps _ _ _) (Drover.setG_nextEsr _ _ _) (Drover.setG_others _ _ _) (fun _ => Drover.getG_setG _ _ _ _) hq

/-- A BRANCH (R132), whose condition on the two words says `p`. -/
theorem jumps_branch {i : Instr} {s : State} {cond : Word → Word → Bool} {a b : Reg} {off : BitVec 11} {p : Prop}
    (h : exec i s = branch cond a b off s) (hp : cond (s.cur.getG a) (s.cur.getG b) = true ↔ p) :
    (p → Jumps i s s.cur.getG (s.cur.iaddr + .ofInt 64 (4 * off.toInt))) ∧ (¬ p → Jumps i s s.cur.getG s.cur.nextPc) := by
  unfold branch at h
  constructor
  case left =>
    intro taken
    rw [if_pos (hp.mpr taken)] at h
    exact jumps_of h rfl rfl rfl (fun _ => rfl) (Drover.target_eq _ _)
  case right =>
    intro notTaken
    rw [if_neg (fun c => notTaken (hp.mp c))] at h
    exact jumps_of_complete h

/-- JALR to a multiple of 4 (R131). -/
theorem exec_jalr_aligned {s : State} {a b : Reg} {i : BitVec 11} (h : (s.cur.getG b + sext64 i).toNat % 4 = 0) :
    exec (.jalr a b i) s = s.finish ((s.cur.setG a (s.cur.iaddr + 4)).retireTo (s.cur.getG b + sext64 i)) :=
  if_neg (fun low => low ((and3_eq_zero _).mpr h))

/-- JALR to any other address (R131). -/
theorem exec_jalr_misaligned {s : State} {a b : Reg} {i : BitVec 11} (h : (s.cur.getG b + sext64 i).toNat % 4 ≠ 0) :
    exec (.jalr a b i) s = .next (s.takeTrap s.sel { s.cur.trapOf cMISALIGN with va := s.cur.getG b + sext64 i }) :=
  if_pos (fun low => h ((and3_eq_zero _).mp low))

/-- Settles O3: a jump retires to its target with the link written, a branch by its condition on the two registers, and a misaligned
JALR traps before any write. -/
theorem jumpsAndBranchesGoToTheirTargets : Obligations.JumpsAndBranchesGoToTheirTargets := by
  unfold Obligations.JumpsAndBranchesGoToTheirTargets
  refine ⟨fun s a b i j => ?jumps, fun s a b i misaligned handles => ?traps⟩
  case jumps =>
    exact
      ⟨jumps_of_link rfl (Drover.target_eq _ _),
       fun aligned => jumps_of_link (exec_jalr_aligned aligned) rfl,
       jumps_branch rfl beq_iff_eq,
       jumps_branch rfl bne_iff_ne,
       jumps_branch rfl BitVec.slt_iff_toInt_lt,
       jumps_branch (cond := fun x y => !x.slt y) rfl (not_slt_iff_toInt_ge _ _),
       jumps_branch rfl BitVec.ult_iff_lt,
       jumps_branch (cond := fun x y => !x.ult y) rfl (not_ult_iff_toNat_ge _ _)⟩
  case traps => exact trapsWith_of (exec_jalr_misaligned misaligned) handles (by decide)

end Sys2Proof.Machine
end
